-- ==== Sys2Proof/Word.lean ====
section
/-! DEFINITION. The native word (R8) and the byte, and the plainest arithmetic on them. -/

namespace Sys2Proof

/-- The native word: registers, commands, event records and counters are 64 bits wide (R4, R8). -/
abbrev Word := BitVec 64

/-- One byte of device memory or of a message. -/
abbrev Byte := BitVec 8

/-- The error counters and sequence numbers count modulo 2 to the 32 (R44, R260, R472). -/
def two32 : Nat := 4294967296

/-- A number as a word, taken modulo 2 to the 64. -/
def word (n : Nat) : Word := BitVec.ofNat 64 n

end Sys2Proof
end

