-- ==== Sys2Proof/Syntax.lean ====
section
/-! DEFINITION. The commands and happenings the block takes from outside: one constructor for each row of the
opcode table, with its operands. An Ohmold packet carries its issuer's master ID, its header word less the opcode
(R382) and its parameter words. Outcomes of physics or of keys the spec does not give (what Echo decodes, sensor
readings, authentication) are operands of their rows. -/

namespace Sys2Proof

/-- The master ID of a request (R411). -/
abbrev Master := Nat

/-- Where a received frame came from: family, source address, source UDP port and source MAC (R330). -/
structure Source where
  ipv6 : Bool
  addrHi : Nat
  addrLo : Nat
  udp : Nat
  mac : Nat
deriving DecidableEq, Repr

/-- The state that the link of a port takes: down, up at 50 Gb/s (KR, CR), or up at 100 Gb/s (KR2, CR2) (R4, R311). -/
inductive LinkState where
  | down
  | at50
  | at100
deriving DecidableEq, Repr

/-- What Echo finds on decoding a band's variants as the output FIFO holds them (R197, R198, R200): CRC-32C of each superblock of its
reconstructions, boundary CRCs, whether an element is out of range, undecodable or its trailing bits wrong, the length at which the data
end, and the header items. -/
structure EchoFindings where
  crc0 : List Nat
  crc1 : List Nat
  edge0 : Nat
  edge1 : Nat
  undecodable : Bool
  len0 : Nat
  len1 : Nat
  headers0 : List (List Byte)
  headers1 : List (List Byte)
deriving DecidableEq, Repr

/-- Samples of a decoded picture, each plane row by row. -/
structure Picture where
  luma : List Nat := []
  cb : List Nat := []
  cr : List Nat := []
deriving DecidableEq, Repr

/-- A sequence header, VPS or SPS of an ingest stream, as far as R130 judges it, with the picture size that it gives. -/
structure StreamHeader where
  /-- seq_profile, general_profile_idc or profile_idc, and the codec's level code. -/
  profile : Nat
  level : Nat
  depth : Nat
  /-- 0 monochrome, 1 4:2:0, else another format. -/
  chroma : Nat
  /-- AVC: constrained; frame_mbs_only_flag 0; FMO or ASO. HEVC: range, scalable, multiview or screen content extension. AV1: large scale
  tile. -/
  constrained : Bool
  fields : Bool
  flexible : Bool
  extension : Bool
  largeScale : Bool
  width : Nat
  height : Nat
deriving DecidableEq, Repr

/-- What Echo finds on decoding one ingest frame (R215 to R221). -/
structure DecodedFrame where
  width : Nat
  height : Nat
  key : Bool
  /-- Positions, counted back in decode order from 1, of the pictures it references. -/
  refs : List Nat
  /-- References the decoder does not hold (R218). -/
  missing : Nat
  /-- Syntax errors met (R219). -/
  syntaxErrors : Nat
  /-- Superblocks damaged, by index in the picture: from the first damaged one to the end of its tile or slice (R219). -/
  damaged : List Nat
  totalSb : Nat
  /-- No part could be decoded (R220). -/
  undecodable : Bool
  /-- A sequence header, VPS or SPS that comes with it (R131). -/
  header : Option StreamHeader
  /-- AV1 operating points other than OP_POINT alone hold it (R130). -/
  points : List Nat
  /-- Decoded bit depth, monochrome, and the samples; the samples with film grain where it is signalled (R132). -/
  depth : Nat
  mono : Bool
  picture : Picture
  grained : Option Picture
  /-- The picture is output; its place in display order since the last key picture; how many pictures may wait for their turn in that
  order; and the picture held, counted back in decode order from 1, that an AV1 show_existing_frame shows again, the unit coding none
  (R216). -/
  shown : Bool
  order : Nat
  waits : Nat
  existing : Option Nat
  /-- The access unit codes a further picture behind this one: an AV1 temporal unit with hidden pictures (R130, R209). -/
  more : Bool := false
  /-- Pictures that leave the reference slots or the decoded picture buffer with this one, counted back in decode order from 1; 0 is this
  one itself, which no later picture references (R218). -/
  drops : List Nat := []
deriving DecidableEq, Repr

/-- What verification finds in a firmware image (R368, R520). -/
structure ImageResult where
  /-- 0 none; 1 signature; 2 version; 3 decryption; 4 format; 5 timeout (`BOOT_STATUS` ERROR). -/
  error : Nat
  svn : Nat
  keyIndex : Nat
  /-- The image asks for SVN_MIN to be raised to its version. -/
  raisesSvn : Bool
  firmwareId : Word
  patchId : Word
  /-- Values of `GAL_UC_MATCH0` onwards that the patch carries (R94). -/
  matchRegs : List Word
  /-- Words of the patch RAM, from its first (R94). -/
  patchRam : List (BitVec 128)
  /-- Galleries whose patch fails verification (R94). -/
  badPatch : List Nat
  /-- TABLE_ID of each table set carried (R520). -/
  tableIds : List Word
  /-- Words of `KEY_POLICY0` onwards (R365). -/
  policy : List Word
  /-- Access table words (target, word index, value); none: the defaults of R437. -/
  access : Option (List (Nat × Nat × Word))
  /-- Galleries that fail the self-test of this boot (R236). -/
  failedTest : List Nat := []
deriving DecidableEq, Repr

/-- A non-posted request of the device (R381, R413, R426). -/
inductive HostRequest where
  /-- A read of submission slots of this function. -/
  | slots (fn : Nat)
  /-- A descriptor fetch, index read or data read of this Shaft channel; `tail`: it answers the last read of the
  descriptor after its byte count has been reached (R427). -/
  | shaft (chan : Nat) (tail : Bool)
deriving DecidableEq, Repr

/-- Who met an uncorrectable memory error, and on what data (R448). -/
inductive MemUser where
  | mirror
  | source (stream frame row : Nat)
  /-- `frame` is that of the picture that holds the line. -/
  | reference (stream seq frame : Nat)
  | fifo (stream seq : Nat)
  | stored (stream seq : Nat)
  | ingest (ctx superblocks : Nat)
  /-- A recipient entry, learned block or key slot: read for the head copy of this queue; none: for a feedback packet. -/
  | entry (recip : Option Nat)
  | bar2
  | shaftOut (chan : Nat)
  | scrubber
deriving DecidableEq, Repr

/-- The body of an MCTP message of type 0x7E (R400). -/
inductive MctpBody where
  /-- KIND 0x01: header word and parameter words. -/
  | command (hdr : Word) (ps : List Word)
  /-- KIND 0x03: offset into the image and image bytes; `last`: the image is complete. -/
  | imageBlock (offset : Nat) (bytes : List Byte) (last : Bool)
  /-- Another KIND, or nonzero bytes 1 to 3. -/
  | other
  /-- The bytes of a message as they come, from the message type on; `last`: an image block in it completes the image. -/
  | message (bytes : List Byte) (last : Bool)
deriving DecidableEq, Repr

/-- What the Sump auditor reads at the link of a buffer (R282, R283): what was last written there, or a value that device memory has come
to hold by itself. -/
inductive AuditFinding where
  | asWritten
  | link (w : Word)
deriving DecidableEq, Repr

/-- One command or happening: a row of the opcode table. -/
inductive Instr where
  -- DEVICE commands
  | deviceNop (fn : Master) (hdr : Word) (ps : List Word)
  | deviceQuery (fn : Master) (hdr : Word) (ps : List Word)
  | deviceIdentity (fn : Master) (hdr : Word) (ps : List Word)
  | deviceReset (fn : Master) (hdr : Word) (ps : List Word)
  | deviceResetFire
  | sleep (fn : Master) (hdr : Word) (ps : List Word)
  | calibrate (fn : Master) (hdr : Word) (ps : List Word)
  | deviceClearFault (fn : Master) (hdr : Word) (ps : List Word)
  -- STREAM commands
  | streamOpen (fn : Master) (hdr : Word) (ps : List Word)
  | streamSetupDone (n : Fin 192)
  | streamClose (fn : Master) (hdr : Word) (ps : List Word)
  | streamCloseDone (n : Fin 192)
  | streamQuery (fn : Master) (hdr : Word) (ps : List Word)
  | streamAssign (fn : Master) (hdr : Word) (ps : List Word)
  | streamClear (fn : Master) (hdr : Word) (ps : List Word)
  -- RASTER commands
  | rasterConfig (fn : Master) (hdr : Word) (ps : List Word)
  | rasterQuery (fn : Master) (hdr : Word) (ps : List Word)
  | rasterClear (fn : Master) (hdr : Word) (ps : List Word)
  -- RATE commands
  | rateSet (fn : Master) (hdr : Word) (ps : List Word)
  | rateTarget (fn : Master) (hdr : Word) (ps : List Word)
  | rateLimits (fn : Master) (hdr : Word) (ps : List Word)
  | rateRoi (fn : Master) (hdr : Word) (ps : List Word)
  | rateMap (fn : Master) (hdr : Word) (ps : List Word)
  | rateReport (fn : Master) (hdr : Word) (ps : List Word)
  | rateQuery (fn : Master) (hdr : Word) (ps : List Word)
  | rateClear (fn : Master) (hdr : Word) (ps : List Word)
  -- REF commands
  | refConfig (fn : Master) (hdr : Word) (ps : List Word)
  | refKey (fn : Master) (hdr : Word) (ps : List Word)
  | refRefresh (fn : Master) (hdr : Word) (ps : List Word)
  | refAck (fn : Master) (hdr : Word) (ps : List Word)
  | refLoss (fn : Master) (hdr : Word) (ps : List Word)
  | refQuery (fn : Master) (hdr : Word) (ps : List Word)
  | refClear (fn : Master) (hdr : Word) (ps : List Word)
  -- RECIP commands
  | recipAdd (fn : Master) (hdr : Word) (ps : List Word)
  | recipRemove (fn : Master) (hdr : Word) (ps : List Word)
  | recipModify (fn : Master) (hdr : Word) (ps : List Word)
  | recipQuery (fn : Master) (hdr : Word) (ps : List Word)
  | recipClear (fn : Master) (hdr : Word) (ps : List Word)
  | recipFlush (fn : Master) (hdr : Word) (ps : List Word)
  -- QUEUE commands
  | queueBind (fn : Master) (hdr : Word) (ps : List Word)
  | queueUnbind (fn : Master) (hdr : Word) (ps : List Word)
  | queueMirror (fn : Master) (hdr : Word) (ps : List Word)
  | queueStream (fn : Master) (hdr : Word) (ps : List Word)
  -- KEY and VEIN commands
  /-- `kek`: the ECDH secret of its public key and the fused device identity key (R361); none: its words are no public key. -/
  | keyKek (fn : Master) (hdr : Word) (ps : List Word) (kek : Option Nat)
  | keyLoad (fn : Master) (hdr : Word) (ps : List Word)
  | keyRoll (fn : Master) (hdr : Word) (ps : List Word)
  | keyErase (fn : Master) (hdr : Word) (ps : List Word)
  | keyQuery (fn : Master) (hdr : Word) (ps : List Word)
  | veinConfig (fn : Master) (hdr : Word) (ps : List Word)
  | veinRecord (fn : Master) (hdr : Word) (ps : List Word)
  | veinQuery (fn : Master) (hdr : Word) (ps : List Word)
  -- FLEET and DIAG commands
  | fleetStage (fn : Master) (hdr : Word) (ps : List Word)
  | fleetActivate (fn : Master) (hdr : Word) (ps : List Word)
  | fleetQuery (fn : Master) (hdr : Word) (ps : List Word)
  | fleetCancel (fn : Master) (hdr : Word) (ps : List Word)
  | diagRetire (fn : Master) (hdr : Word) (ps : List Word)
  | diagInject (fn : Master) (hdr : Word) (ps : List Word)
  | diagFaultrec (fn : Master) (hdr : Word) (ps : List Word)
  -- DECODE commands
  | decodeOpen (fn : Master) (hdr : Word) (ps : List Word)
  | decodeClose (fn : Master) (hdr : Word) (ps : List Word)
  | decodeCloseDone (c : Fin 96)
  | decodeRelease (fn : Master) (hdr : Word) (ps : List Word)
  | decodeResync (fn : Master) (hdr : Word) (ps : List Word)
  | decodeQuery (fn : Master) (hdr : Word) (ps : List Word)
  | decodeClear (fn : Master) (hdr : Word) (ps : List Word)
  -- The Lantern
  /-- Master, the stream whose page is written, the value, and whether the write is 64 bits wide (R43). -/
  | rasterToken (m : Master) (n : Fin 192) (v : Word) (wide : Bool)
  /-- The input and the high time of the pulse in ns (R46). -/
  | rasterSyncPulse (input : Fin 4) (highNs : Nat)
  | lanternRowTimer (n : Fin 192)
  | stall (n : Fin 192)
  | bandEligible (n : Fin 192)
  -- The Gallery
  -- The table gives these rows no operand beside the Gallery: their second is `Unit`.
  | bandDispatch (g : Fin 26) (u : Unit)
  | superblockCode (g : Fin 26) (u : Unit)
  | bandOccupancyEnd (g : Fin 26)
  | bandCommit (g : Fin 26) (u v : Unit)
  | bandClose (g : Fin 26)
  | overrun (g : Fin 26) (u : Unit)
  | missed (n : Fin 192)
  | watchdog (g : Fin 26)
  | flush (m : Master) (g : Fin 26)
  | timeout (g : Fin 26)
  | sramCorr (g : Fin 26)
  | sramUncorr (g : Fin 26)
  | controlStoreError (g : Fin 26)
  | power (g : Fin 26)
  | failover
  /-- Echo's findings, from which the verdict follows (R198). `differs`: the superblocks, by index in the band, that decode to different
  syntax in the two variants (R200). -/
  | verdict (g : Fin 26) (found : EchoFindings) (differs : List Nat)
  | ingestPeriod
  | ingestFrameOutput (c : Fin 96) (f : DecodedFrame)
  -- Mouth
  | fifoReadTurn
  | reseqTmo (n : Fin 192)
  | calendarSlot
  | portServe (p : Fin 2)
  /-- The recipient that stands for the transmit context. -/
  | senderReport (r : Fin 16384)
  /-- The record's header words and its data bytes, read from the host transmit ring (R306). -/
  | hostTransmit (hdr : List Word) (bytes : List Byte)
  /-- The frame from destination MAC to FCS. -/
  | frameReceive (p : Fin 2) (bytes : List Byte)
  | reorderWindowClose (c : Fin 96)
  | unlocked
  | ppsOutSecond
  | ppsInEdge
  | linkChange (p : Fin 2) (link : LinkState)
  /-- Pool, buffer index, and what the auditor finds there. -/
  | auditorVisit (pool : Fin 5) (buffer : Nat) (found : AuditFinding)
  | silent (r : Fin 16384)
  | learnedSlotExpiry (r : Fin 16384) (p : Fin 2) (k : Fin 4)
  | graceEnd (k : Fin 20480)
  -- Boot and transport
  | bootImage (m : Master) (v : Word)
  | imageVerified (r : ImageResult)
  | mctpMessage (tag : Fin 8) (body : MctpBody)
  | alertResponse (wins : Bool)
  /-- Master, function, value, and the words of the slots from the head to the new tail, read from host memory. -/
  | ringSqTail (m : Master) (f : Fin 193) (v : Word) (slots : List Word)
  | ringEnable (m : Master) (f : Fin 193) (v : Word)
  -- PCIe and Shaft
  | errorCompletion (r : HostRequest)
  | completionTimeout (r : HostRequest)
  /-- The Completion Timeout Value field of Device Control 2. -/
  | completionTimeoutValue (code : Fin 16)
  /-- Offset, and the bytes written; none: a read of `len` bytes. -/
  | bar2Access (off : Nat) (bytes : Option (List Byte)) (len : Nat)
  | functionLevelReset (f : Fin 193)
  | pcieLinkDown
  | hotReset
  | shaftChPost (m : Master) (c : Fin 288) (v : Word)
  | shaftChCtrlWrite (m : Master) (c : Fin 288) (v : Word)
  /-- The channel and the four words of the descriptor fetched from host memory. -/
  | descriptorStart (c : Fin 288) (d : List Word)
  /-- The channel and the bytes moved, row after row. -/
  | descriptorComplete (c : Fin 288) (bytes : List Byte)
  -- The memory controller
  | corrected (m : Fin 32) (line : Nat) (rewritten : Bool)
  | uncorrected (m : Fin 32) (line : Nat) (tag : Bool) (user : MemUser)
  /-- The channel, the line read, and what it held: 0 clean, 1 corrected, 2 uncorrectable, 3 tag mismatch. -/
  | scrubLine (m : Fin 32) (line : Nat) (found : Fin 4)
  | neighbour (m : Fin 32) (bank : Fin 16) (row : Nat)
  | refreshWindow
  /-- Channel, class and age in ns of the waiting request, and its requester. -/
  | agePromotion (m : Fin 32) (cls : Fin 4) (arrived : Nat) (who : Master)
  -- Events
  | eqEnable (m : Master) (f : Fin 193) (v : Word)
  | eqHead (m : Master) (f : Fin 193) (v : Word)
  | eqCpl (m : Master) (f : Fin 193) (v : Word)
  | fastPend (m : Master) (f : Fin 193) (v : Word)
  | coalUsExpiry (f : Fin 193)
  | wakeLatch (src : Fin 1280) (cause : Nat)
  | wakeRecordDelivery
  -- Faults
  | fltHeartbeat (m : Master) (v : Word)
  | heartbeatTimeout
  | faultPulseEnd
  | fltCtrlWrite (m : Master) (v : Word)
  | captureFree (m : Master) (k : Fin 4)
  | persistentEntryWrite
  | graveHoldEnd
  /-- The cause of R253: 1 divergence, 2 uncorrectable SRAM error, 3 watchdog, 4 power. -/
  | takeover (cause : Fin 5)
  /-- Which class G cause of source 1236: 1 FUSE, 2 RECOVERY_BOOT, 3 BOTH_PAIRS (R481). -/
  | fuse (cause : Fin 4)
  | sharedUe (cause : Fin 9)
  | sharedCe (cause : Fin 7)
  -- Power, reset, thermal, calibration, telemetry
  /-- The rail (0 VIN12, 1 VCORE) and its level in mV. -/
  | warn (rail : Fin 2) (mv : Nat)
  | recovered (rail : Fin 2) (mv : Nat)
  | holdMove
  | admitHoldClear
  | brownout (rail : Fin 2) (mv : Nat)
  | standbyReset
  /-- The rail (0 VIN12, 1 VCORE, 2 V3P3_SB) and its level in mV. -/
  | supplyInRange (rail : Fin 3) (mv : Nat)
  | perstNAssert (lowNs : Nat)
  /-- The BOOT_MODE straps as sampled (R562). -/
  | perstNRelease (bootMode : Fin 4)
  | resetExit
  | tjWarn (sensor : Fin 32) (degC : Nat)
  | tjOk
  | thermalTrip (sensor : Fin 32) (degC : Nat)
  | shutdown (sensor : Fin 32) (degC : Nat)
  /-- The block of R514 and its sensor reading in sixteenths of a degree. -/
  | calTrigger (b : Fin 36) (tj : Int)
  /-- The block, whether the repeat agrees, and the sensor reading. -/
  | calPairDone (b : Fin 36) (agrees : Bool) (tj : Int)
  | calRetry (b : Fin 36) (agrees : Bool) (tj : Int)
  /-- The 40 quantities of R517, each with whether its sensor is under auto-zero. -/
  | telemetryTick (values : List (Nat × Bool))
  | timer
  -- Fleet, commits, registers
  | activationLanding
  | digestRecompute
  | cfgCommitAll (m : Master)
  | cfgCommitGroup (m : Master) (g : Fin 16)
  | shadowWrite (m : Master) (addr : Nat) (v : Word)
  | registerWrite (m : Master) (addr : Nat) (v : Word) (wide : Bool)
  | rcRead (m : Master) (addr : Nat) (wide : Bool)
  | counterClear (m : Master) (addr : Nat) (v : Word)
  | lockSet (m : Master) (addr : Nat) (v : Word)
  | indDataRead (m : Master)
  | indDataWrite (m : Master) (v : Word)
  -- RECIP_CMD operations: master and recipient, and the port for operations 0x2 and 0x5
  | read (m : Master) (r : Fin 16384)
  | readLearned (m : Master) (r : Fin 16384) (p : Fin 2)
  | modify (m : Master) (r : Fin 16384)
  | clear (m : Master) (r : Fin 16384)
  | flushLearned (m : Master) (r : Fin 16384) (p : Fin 2)
  | readHwm (m : Master) (r : Fin 16384)
  -- JTAG, takeover, link, late completion
  | tapReset
  | takeoverComplete
  /-- Lanes, speed code and FLIT mode of the trained link. -/
  | pcieLinkUp (width speed : Nat) (flit : Bool)
  | lateCompletion
  /-- TMS and TDI at the edge. -/
  | tckRisingEdge (tms tdi : Bool)
deriving DecidableEq, Repr

end Sys2Proof
end

