-- ==== Sys2Proof/Config.lean ====
section
/-! DEFINITION. What an implementation fixes and the spec leaves open (free values, no body), and the sizes the spec
fixes for the part. -/

namespace Sys2Proof.Config

/-- Free values: draw number `k` of a 64-bit value the spec leaves open (notes/assumptions/2.md). -/
opaque freeWord : Nat → Word

/-- The Vendor ID of the functions (R407); the spec names the vendor and gives no number. -/
opaque vendorId : Nat

/-- The clockIdentity of the PTP client (R304), and the NTP time stamp of a time in ns of PTP or device time (R307); the spec gives
neither. -/
opaque clockIdentity : BitVec 64
opaque ntpTime : Nat → BitVec 64

/-- The DER certificate of the device identity key (R394): its length in bytes; the spec does not give it. -/
opaque certLength : Nat

/-- Byte `i` of the certificate of R394. -/
opaque certByte : Nat → Byte

/-- Implementation words of the indirect space (R553): generation of the unit's values, space, unit, word. -/
opaque indirectWord : Nat → Nat → Nat → Nat → Word

/-- The ECDH secret of the public key in the words of a KEY.KEK packet read from a ring and the fused device identity key, which is not
given (R361); none: the words are no public key. -/
opaque ecdhSecret : List Word → Option Nat

/-- The bits of the instruction register select EXTEST or AC EXTEST (R564); the spec gives no instruction codes. -/
opaque isExtest : List Bool → Bool

/-- In EXTEST, output pin `p` (0 FAULT_N, 1 ALERT_N) is low, as the bits last updated into the boundary register say (R564);
the spec gives no layout of that register. -/
opaque boundaryLow : Nat → List Bool → Bool

/-- Free values: byte `a` of device memory after change of ORDER number `g` (R446), when nothing has written it since
(notes/assumptions/2.md). -/
opaque freeByte : Nat → Nat → Byte

/-- Superblocks a Gallery codes per second, and the capacity of R23. -/
def galleryCapacity : Nat := 250000

/-- Context slots of a Gallery (R23). -/
def gallerySlots : Nat := 8

/-- The assured ingest pool in superblocks per second (R17). -/
def assuredPool : Nat := 1500000

/-- Backed device memory in bytes (R441). -/
def memBytes : Nat := 64424509440

/-- Bytes of one memory window (R431). -/
def windowBytes : Nat := 268435456

/-- First byte of the mirror region (R445). -/
def mirrorBase : Nat := 64424509440 - 536870912

end Sys2Proof.Config
end

