-- ==== Sys2Proof/Machine/State.lean ====
section
/-! DEFINITION. The state of the block as plain data, and the state right after reset. Registers visible in BAR0 live
in `Dev.regs` under their addresses (R549); what no register shows lives in the named fields beside it. -/

namespace Sys2Proof.Machine

/-- A sparse table: keys strictly rising, no entry equal to the default of its use (kept by `Tab.set`). -/
abbrev Tab (α : Type) := List (Nat × α)

/-- Why the block would stop. The spec names no happening that stops it in this sense: its fault classes are effects on
State (R476). -/
inductive Fault where
  /-- Raised by no command: every row has a next state. Safe. -/
  | noneInSpec
deriving DecidableEq, Repr

/-- Why a command has no meaning. -/
inductive Refusal where
  /-- Raised by `exec` for a row that has no meaning yet, by its mnemonic. Safe. -/
  | notModelled (mnemonic : String)
deriving DecidableEq, Repr

/-- The four states of a stream or decode context (R14, R16). -/
inductive Phase where
  | free
  | admitted
  | running
  | closing
deriving DecidableEq, Repr

/-! ### Streams -/

/-- The declarations of STREAM.OPEN, words 1 to 6 (R390). -/
structure StreamCfg where
  codec : Nat := 0
  profile : Nat := 0
  depth : Nat := 8
  srcFormat : Nat := 1
  matrix : Bool := false
  fullRange : Bool := false
  hintNeg : Bool := false
  palette : Bool := false
  redundantHdr : Bool := false
  bandRows : Nat := 1
  rateNum : Nat := 1
  rateDen : Nat := 1
  width : Nat := 0
  height : Nat := 0
  refSlots : Nat := 4
  slotCount : Nat := 3
  ringBase : Nat := 0
  slotStride : Nat := 0
  lumaPitch : Nat := 0
  chromaOffset : Nat := 0
  chromaPitch : Nat := 0
  hintOffset : Nat := 0
deriving DecidableEq, Repr

/-- The rate parameters of R134. -/
structure RateParams where
  mode : Nat := 0
  aim : Nat := 192
  keyMult : Nat := 4
  dryMin : Nat := 16
  hrdRate : Nat := 0
  hrdBuf : Nat := 0
  targetRate : Nat := 0
  cqQ : Nat := 28
  qpMin : Nat := 8
  qpMax : Nat := 51
deriving DecidableEq, Repr

/-- An ROI rectangle (R157). -/
structure RoiRect where
  en : Bool := false
  cls : Nat := 0
  x0 : Nat := 0
  y0 : Nat := 0
  x1 : Nat := 0
  y1 : Nat := 0
deriving DecidableEq, Repr

/-- ROI classes and rectangles (R156, R157). -/
structure Roi where
  offsets : List Int := [0, 0, 0, 0]
  floors : List Nat := [51, 51, 51, 51]
  rects : List RoiRect := []
deriving DecidableEq, Repr

/-- Location and enable of the QP map (R158). -/
structure QpMap where
  base : Nat := 0
  stride : Nat := 0
  en : Bool := false
deriving DecidableEq, Repr

/-- A record ring in host memory with no consumer index (R161, R217, R358). -/
structure RecordRing where
  base : Nat := 0
  records : Nat := 0
  en : Bool := false
  next : Nat := 0
deriving DecidableEq, Repr

/-- Reference policy, timeouts and limits of REF.CONFIG (R193). -/
structure RefCfg where
  policy : Nat := 0
  refreshPics : Nat := 8
  ackTmoMs : Nat := 500
  keyMinMs : Nat := 1000
  recovKeyMinMs : Nat := 100
  refreshMinMs : Nat := 250
deriving DecidableEq, Repr

/-- A staged command, in order of acceptance (R166, R192). -/
inductive Staged where
  | rateSet (p : RateParams)
  | target (rate : Nat) (cqQ : Nat)
  | limits (qpMin qpMax : Nat)
  | roi (r : Roi)
  | map (m : QpMap)
  | refConfig (c : RefCfg)
deriving DecidableEq, Repr

/-- A part of a stream on its Gallery, with the load placed for it (R25, R348). -/
structure Part where
  gal : Nat
  load : Nat
  /-- Phase slot on its Gallery, by order of admission (R55). -/
  order : Nat
  /-- Context slot of the Gallery (R23), 0 to 7. -/
  slot : Nat := 0
deriving DecidableEq, Repr

/-- The checkpointed rate state (R160). -/
structure RateState where
  d : Nat := 0
  frac : Nat := 0
  v : Int := 0
  /-- A picture has been coded since the stream opened. -/
  started : Bool := false
  frame : Nat := 0
  key : Bool := false
  dry : Bool := false
  cap : Nat := 0
  tgt : Nat := 0
  /-- Costs charged in the picture in progress, by band (R150). -/
  costs : Tab Nat := []
  /-- Limits set in the picture in progress, by band (R148). -/
  limits : Tab Nat := []
  cIntra : Nat := 819
  /-- Forecast of each superblock row; empty: 819 bits for each of its superblocks (R140). -/
  cRow : List Nat := []
  /-- The DISOCC fraction of each band of the previous picture as the checkpoint holds it, in 1/255 (0 of 0: the hints were not
  admitted), and DISOCC words and hint words of each band of the present one (R142, R160). -/
  disoccPrev : List (Nat × Nat) := []
  disocc : List (Nat × Nat) := []
  /-- Header bytes of the later bands of the picture, where they are fixed (R575). -/
  laterHdr : Option Nat := none
deriving DecidableEq, Repr

/-! ### Coded data (R60, R71 to R88, R354) -/

/-- A motion vector in quarter luma samples. -/
structure Mv where
  x : Int := 0
  y : Int := 0
deriving DecidableEq, Repr

/-- Samples of a picture's planes, by 8,192 times the row and the column in the plane. -/
structure Planes where
  luma : Tab Nat := []
  cb : Tab Nat := []
  cr : Tab Nat := []
deriving DecidableEq, Repr

/-- The prediction of a block: intra without references, else inter from the pictures of these frames with these vectors. -/
structure Pred where
  /-- The codec's mode number, luma and chroma. -/
  mode : Nat := 0
  chroma : Nat := 0
  refs : List Nat := []
  mvs : List Mv := []
  /-- AV1: the colours of a palette and the colour index of each luma sample, and the alphas of Cb and Cr from luma (R115). -/
  colours : List Nat := []
  indexes : List Nat := []
  alphas : Int × Int := (0, 0)
deriving DecidableEq, Repr

/-- A coded block: its place and size in luma samples, its prediction, its transform choice, and the levels of its planes. -/
structure Blk where
  x : Nat
  y : Nat
  w : Nat
  h : Nat
  pred : Pred := ({} : Pred)
  tx : Nat := 0
  levels : List (List Int) := []
deriving DecidableEq, Repr

/-- The filter syntax of a superblock: its CDEF preset, where one is coded, the Wiener coefficients of its restoration unit in each plane,
empty where it uses none, and its SAO choice, where it has one (R83, R115, R116). -/
structure FilterCode where
  cdef : Option Nat := none
  wiener : List (List Int) := []
  sao : Option Nat := none
deriving DecidableEq, Repr

/-- The syntax of a superblock: its quantiser, its blocks in coding order and its filter syntax. -/
structure SbCode where
  q : Nat := 0
  blocks : List Blk := []
  filter : FilterCode := ({} : FilterCode)
deriving DecidableEq, Repr

/-- A unit of entropy coding: a superblock, or a macroblock of AVC, with the quantiser change that it carries (R127) and its filter
syntax. -/
structure CodedUnit where
  delta : Int := 0
  blocks : List Blk := []
  filter : FilterCode := ({} : FilterCode)
deriving DecidableEq, Repr

/-- Steps that a size limit has taken for a superblock: guarded (R149), requantised under the limit of 4,096 bytes, past 4,096 bytes as
decided (R81), and coarser than its quality floor (R157). -/
structure SbSteps where
  guarded : Bool := false
  capped : Bool := false
  big : Bool := false
  breach : Bool := false
deriving DecidableEq, Repr

/-- A picture as the Gallery holds it in device memory: beside its samples the final vectors (R76) and the taint map (R354). -/
structure RecPic where
  frame : Nat
  /-- Its slot of the reference store, as device memory holds it (R86, R87). -/
  unit : Nat := 0
  /-- Samples before the in-loop filters, and the filtered ones as far as they are final or at the close of their band (R84). -/
  raw : Planes := ({} : Planes)
  fin : Planes := ({} : Planes)
  /-- Superblocks coded, by index. -/
  coded : Tab (Option SbCode) := []
  /-- Final vectors by 16×16 block: 512 times the block row and the block column. -/
  vectors : Tab (Option Mv) := []
  /-- Tainted superblocks. -/
  taint : List Nat := []
  /-- Pictures of the intra refresh wave that it belongs to, its own place among them, and the wave's first reference (R187). -/
  wave : Option (Nat × Nat) := none
  clean : Nat := 0
deriving DecidableEq, Repr

/-- A picture of the reference store (R176, R189). -/
structure RefPic where
  frame : Nat
  anchor : Bool := false
  barred : Bool := false
  key : Bool := false
  /-- Its slot, 0 to 7 (R189). -/
  slot : Nat := 0
  /-- AVC: its frame_num (R118), and whether a picture coded since has signalled that it is long-term or unmarked (R179). -/
  num : Nat := 0
  told : Bool := false
deriving DecidableEq, Repr

/-- An entry of the acknowledgement table (R173, R175). -/
structure AckEntry where
  frame : Nat
  firstSeq : Nat
  lastSeq : Nat
  confirmed : Bool := false
  barred : Bool := false
  key : Bool := false
  recovery : Bool := false
  gap : Bool := false
  required : List Nat := []
  acked : List Nat := []
  /-- The picture has completed: its last band has closed (R84, R182). -/
  complete : Bool := false
  /-- AVC: its frame_num (R118). -/
  num : Nat := 0
deriving DecidableEq, Repr

/-- What the reference decision of a picture chose (R182, R189). -/
inductive RefKind where
  | normal
  | recovery
  | key
deriving DecidableEq, Repr

/-- The reference state of a stream (R175, R189). -/
structure RefState where
  store : List RefPic := []
  table : List AckEntry := []
  decided : Option Nat := none
  kind : RefKind := .normal
  first : Option Nat := none
  second : Option Nat := none
  /-- Their store slots at the decision (R189). -/
  firstSlot : Option Nat := none
  secondSlot : Option Nat := none
  /-- AV1: pictures decided and not yet complete, each with the slot that its frame header refreshes (R119, R179). -/
  claims : List (Nat × Nat) := []
  /-- Position of the running intra refresh wave, and its length (R187). -/
  wave : Option (Nat × Nat) := none
  lastKeyAt : Option Nat := none
  lastWaveAt : Option Nat := none
  keyReq : Bool := false
  keyForced : Bool := false
  keyHeldRaised : Bool := false
  refreshReq : Bool := false
  /-- The request is that of a wave that a recovery picture cut short (R182). -/
  restart : Bool := false
  /-- Frame of the latest key frame (R180). -/
  lastKeyFrame : Nat := 0
  /-- AVC: frame_num of the picture decided, and key frames so far, for idr_pic_id (R118, R119). -/
  num : Nat := 0
  keys : Nat := 0
  /-- PENDING of groups 0 to 7 (R175). -/
  pending : List Bool := []
  /-- LOST_FROM of groups 0 to 7 (R183). -/
  lostFrom : List (Option Nat) := []
  cfg : RefCfg := ({} : RefCfg)
deriving DecidableEq, Repr

/-- The reference decision of a picture (R181) and its frame-start rate state (R248), kept while bands of the picture may still be
dispatched. -/
structure PicDecision where
  frame : Nat
  kind : RefKind := .normal
  first : Option Nat := none
  second : Option Nat := none
  start : RateState := ({} : RateState)
  /-- The store and the numbering that the picture's headers signal (R118, R179). -/
  store : List RefPic := []
  num : Nat := 0
  keys : Nat := 0
  keyFrame : Nat := 0
  /-- Rate parameters and device state that its headers carry: those in force at its first band (R120, R122). -/
  params : RateParams := ({} : RateParams)
  /-- Quantiser of band 0 (R127). -/
  q : Nat := 0
  /-- No picture was coded before it in the stream (R83). -/
  firstPicture : Bool := false
  /-- Position and length of the intra refresh wave that it belongs to (R187). -/
  wave : Option (Nat × Nat) := none
  /-- The store slot that the picture itself will take (R119). -/
  slot : Nat := 0
  /-- The sequence-level and picture-level header state that Echo has taken from the headers of band 0 (R197). -/
  echo : Option (List (List Byte)) := none
deriving DecidableEq, Repr

/-- How far a band has come. -/
inductive BandStage where
  | waiting
  | coding
  | draining
  | committed
  | closed
deriving DecidableEq, Repr

/-- A band of a stream from its eligibility until it is verified. -/
structure Band where
  seq : Nat
  frame : Nat
  b : Nat
  part : Nat := 0
  /-- Its superblocks. -/
  n : Nat := 0
  last : Bool := false
  eligibleAt : Nat := 0
  deadline : Nat := 0
  stage : BandStage := .waiting
  /-- Repeat band of R50 or R54. -/
  rep : Bool := false
  /-- Host-caused for availability (R251). -/
  host : Bool := false
  missing : Bool := false
  dry : Bool := false
  vein : Bool := false
  key : Bool := false
  resend : Bool := false
  /-- Cost charged, in bits (R150). -/
  charge : Option Nat := none
  /-- The band has closed once (R49). -/
  closedOnce : Bool := false
  gal : Nat := 0
  startAt : Nat := 0
  q : Nat := 0
  est : Nat := 0
  /-- The weight est_b(32) and the factor m_b at its dispatch (R142). -/
  weight : Nat := 0
  mNum : Nat := 1
  mDen : Nat := 1
  /-- The Vein schedule selects it (R345). -/
  sched : Bool := false
  limit : Nat := 0
  /-- QP map entries of its superblocks as read at its dispatch; none: the map is off or unusable (R158). -/
  mapEntries : List Int := []
  /-- Abandons of its header routines, when their present run began, and the routines that have ended (R95, R97, R98). -/
  abandons : Nat := 0
  runAt : Nat := 0
  routinesDone : Nat := 0
  /-- Place of its latest close in the order of closes (R199). -/
  closeNo : Nat := 0
  hdrBytes : Nat := 0
  /-- The bytes of its header items (R119); obu_size and tile sizes are filled in at the commit (R96). -/
  hdr : List (List Byte) := []
  hintsUsed : Bool := false
  /-- The hint words read at its dispatch (R69). -/
  hints : List Word := []
  /-- Its base quantiser (R127). -/
  base : Nat := 0
  /-- The superblocks of its variants 0 and 1, coded so far. -/
  coded0 : List SbCode := []
  coded1 : List SbCode := []
  /-- What the size limits did to its superblocks, by index (R81, R149, R157). -/
  steps : List SbSteps := []
  /-- Samples of variant 1 before the in-loop filters. -/
  raw1 : Planes := ({} : Planes)
  /-- Its variant superblocks, by index in the band, with the inner luma sums S0 and S1 (R351, R358). -/
  sums : List (Nat × Nat × Nat) := []
  /-- Its CRC records: superblock CRCs of variants 0 and 1, and the boundary CRCs (R85). -/
  crc0 : List Nat := []
  crc1 : List Nat := []
  edge0 : Nat := 0
  edge1 : Nat := 0
  sbDone : Nat := 0
  bits0 : Nat := 0
  bits1 : Nat := 0
  variants : Nat := 0
  guarded : Nat := 0
  sbCap : Nat := 0
  roiBreach : Nat := 0
  hintWon : Nat := 0
  len0 : Nat := 0
  len1 : Nat := 0
  dropped : Bool := false
  closeAt : Nat := 0
  verdict : Option Nat := none
  lateCounted : Bool := false
  accounted : Bool := false
  digest4 : Nat := 0
  epoch : Nat := 0
  tableSet : Nat := 0
  framePtp : Word := 0
  /-- Bytes of each header item of R123 or R125 but the last, in order. -/
  pre : List Nat := []
  /-- Mouth has released it (R262); a gap marker lists it; it counts as verified (R230). -/
  released : Bool := false
  lost : Bool := false
  verified : Bool := false
  /-- It has been counted in VEIN_BANDS (R576). -/
  veinCounted : Bool := false
deriving DecidableEq, Repr

/-- A checkpoint image (R227): the fields beside the rate and reference state it holds. -/
structure Image where
  seq : Nat
  nextSeq : Nat
  picSeq : Nat
  frame : Nat
  b : Nat
  rep : Bool := false
  vein : Bool := false
  resend : Bool := false
  lost : Bool := false
  part : Nat := 0
  charge : Nat := 0
  veinPos : Word := 0
  time : Nat := 0
  rate : RateState := ({} : RateState)
  ref : RefState := ({} : RefState)
  /-- Staged commands not yet applied (R160, R189). -/
  staged : List Staged := []
  /-- Readable in copy A and in copy B (R232). -/
  copyA : Bool := true
  copyB : Bool := true
deriving DecidableEq, Repr

/-- What the frame report takes from a closed band (R161). -/
structure BandStat where
  n : Nat := 0
  q : Nat := 0
  cost : Nat := 0
  est : Nat := 0
  weight : Nat := 0
  /-- Coded normally: it enters the sums for the correction of R143. -/
  normal : Bool := false
  dry : Bool := false
  rep : Bool := false
  vein : Bool := false
  hints : Bool := false
  hintWon : Nat := 0
  guarded : Nat := 0
  sbCap : Nat := 0
  roiBreach : Nat := 0
deriving DecidableEq, Repr

/-- What the frame report of the picture in progress gathers (R161). -/
structure PicStats where
  frame : Nat := 0
  framePtp : Word := 0
  undershotPrev : Bool := false
  /-- The picture has not ended yet. -/
  going : Bool := false
  bands : Tab BandStat := []
  /-- The first band that the dry test made dry, whether or not it closes (R152). -/
  firstDry : Option Nat := none
deriving DecidableEq, Repr

/-- The Vein parameters of R344. -/
structure VeinCfg where
  en : Bool := false
  f : Nat := 4
  sb : Nat := 4
  delta : Nat := 3
  slot : Nat := 0
  salt : Nat := 0
deriving DecidableEq, Repr

/-- A held item of a resequencer (R261): sequence number, and the gap's count and cause when it is a marker. -/
structure HeldItem where
  seq : Nat
  count : Nat := 0
  cause : Nat := 0
deriving DecidableEq, Repr

/-- One stream (R13). -/
structure Stream where
  phase : Phase := .free
  arming : Bool := false
  /-- Advances that the Lantern has accepted while arming (R38). -/
  armAdvances : Nat := 0
  abort : Bool := false
  /-- It reached RUNNING before its close began (R251). -/
  ran : Bool := false
  cfg : StreamCfg := ({} : StreamCfg)
  load : Nat := 0
  parts : List Part := []
  /-- Sequence number of the next band to become eligible. -/
  nextSeq : Nat := 0
  bands : List Band := []
  /-- Next band of the Lantern's frame that is not yet eligible. -/
  nextBand : Nat := 0
  /-- The Lantern's frame is not coded (R38, R47). -/
  skipFrame : Bool := false
  /-- The Lantern of an orphaned stream as it would go on until the close completion: `LANTERN_ROWS`, next band, frame not coded, next
  sequence number (R240). -/
  ghost : Option (Word × Nat × Bool × Nat) := none
  /-- `LANTERN_CTRL` as it governs the present frame (R42). -/
  ctrl : Word := 0
  lastAdvance : Nat := 0
  stallRaised : Bool := false
  /-- The Lantern's frame was closed by a stall: later tokens for it are ignored (R57). -/
  stallClosed : Bool := false
  /-- When the row timer of SYNC_MODE 1 next rises (R46). -/
  rowTimer : Option Nat := none
  params : RateParams := ({} : RateParams)
  staged : List Staged := []
  roi : Roi := ({} : Roi)
  map : QpMap := ({} : QpMap)
  report : RecordRing := ({} : RecordRing)
  rate : RateState := ({} : RateState)
  pic : PicStats := ({} : PicStats)
  /-- Pictures before it whose last band has not closed yet, with their own rate state (R143, R161). -/
  prevPics : List (PicStats × RateState) := []
  qLast : Nat := 0
  /-- Frame at which the latest RATE.SET landed (R166). -/
  setLanded : Option Nat := none
  ref : RefState := ({} : RefState)
  /-- The decisions of pictures that still have bands here, newest first (R181, R248). -/
  decisions : List PicDecision := []
  /-- Bands of coded pictures still without a PASS: frame and count (R204). -/
  unpassed : Tab Nat := []
  /-- Pictures in the stream's store units: those of the reference store, the one under reconstruction, and the one coded before, newest
  first (R76, R87). -/
  recs : List RecPic := []
  images : List Image := []
  verified : Option Nat := none
  /-- Copies A and B of VERIFIED are readable (R232). -/
  verA : Bool := true
  verB : Bool := true
  /-- CKPT_LOST: items of the stream record lost in both copies (R232). -/
  ckptLost : Word := 0
  vein : VeinCfg := ({} : VeinCfg)
  veinNext : Option (VeinCfg × Nat) := none
  /-- Word 1 of the VEIN.CONFIG that waits for its landing (R576). -/
  veinWord : Word := 0
  /-- The parameters before the last landing, and the SEQ it landed at (R347). -/
  veinPrev : VeinCfg := ({} : VeinCfg)
  veinFrom : Nat := 0
  veinNoKey : Bool := false
  /-- First SEQ of the period at which scheduling resumes after the slot was loaded again (R364). -/
  veinResume : Option Nat := none
  veinReleased : Bool := false
  /-- SEQ of the last band of the Vein period that ended last (R576). -/
  veinEnded : Option Nat := none
  veinRing : RecordRing := ({} : RecordRing)
  held : List HeldItem := []
  heldSince : Nat := 0
  /-- A nonzero SRC_UDP has been accepted by QUEUE.STREAM since STREAM.OPEN (R324). -/
  srcUdpSet : Bool := false
  /-- The switch SEQ that the latest landing recorded (R526). -/
  switchSeq : Nat := 0
  /-- Counters of R162 (words 1 to 9), R190 (1 to 9), R252 (4 to 8) and R576 (VEIN_BANDS, ERASURES). -/
  rateCnt : Tab Word := []
  refCnt : Tab Word := []
  availCnt : Tab Word := []
  veinCnt : Tab Word := []
deriving DecidableEq, Repr

/-! ### Decode contexts -/

/-- The ingress binding of QUEUE.BIND (R303, R312). -/
structure Binding where
  e0 : Bool
  e1 : Bool
  ipv6 : Bool
  anySsrc : Bool
  pt : Nat
  dstUdp : Nat
  ssrc : Nat
  reorderPkts : Nat
  reorderUs : Nat
  keySlot : Nat
  nextRtp : Option Nat := none
  /-- Packets held for reordering: RTP number, marker, time stamp, payload. -/
  window : List (Nat × Bool × Nat × List Byte) := []
  windowAt : Nat := 0
  lastMarker : Bool := false
  /-- Time stamp of the access unit in progress, and the bytes of an OBU or NAL unit whose fragments are still coming. -/
  curTs : Nat := 0
  part : List Byte := []
deriving DecidableEq, Repr

/-- An access unit in the input buffer (R209, R303, R420), or the place of one that was dropped whole (R210). -/
structure AccessUnit where
  number : Nat
  length : Nat
  lost : Bool
  pts : Nat
  time : Word
  /-- Bytes of the input buffer that its record takes. -/
  size : Nat
  /-- Device time of its completion, and whether no earlier unit waited then (R213). -/
  at_ : Nat
  alone : Bool
deriving DecidableEq, Repr

/-- A picture that a decode context holds: its number in decode order and its access unit, whether the codec's reference slots or picture
buffer still hold it, whether it is clean, its size, its FRAME_SEQ once output (0xFFFF_FFFF before), and its samples (R214, R217 to R221). -/
structure HeldPic where
  number : Nat
  unit : Nat
  inBuffer : Bool := true
  clean : Bool
  width : Nat
  height : Nat
  seq : Nat
  depth : Nat
  picture : Picture
deriving DecidableEq, Repr

/-- A decoded frame that waits for its turn in display order (R216): how many key pictures came before it, its place after the last of
them, and what its record and its slot will hold. -/
structure Shown where
  epoch : Nat
  order : Nat
  unit : AccessUnit
  /-- Number in decode order of the picture shown. -/
  number : Nat
  clean : Bool
  missing : Bool
  un : Bool
  damaged : Bool
  key : Bool
  grain : Bool
  width : Nat
  height : Nat
  concealed : Nat
  totalSb : Nat
  used : Bool
  /-- Number in decode order of the substitute picture. -/
  sub : Option Nat
  gap : Bool
  /-- The frame is no larger than the context's maximum. -/
  fits : Bool
  /-- Offsets in the slot with their bytes. -/
  rows : List (Nat × List Byte)
deriving DecidableEq, Repr

/-- One decode context (R16). -/
structure Ctx where
  phase : Phase := .free
  abort : Bool := false
  codec : Nat := 0
  inFormat : Nat := 0
  network : Bool := false
  assured : Bool := false
  outFormat : Nat := 1
  outSlots : Nat := 2
  overwrite : Bool := true
  grain : Bool := true
  opPoint : Nat := 0
  rateNum : Nat := 1
  rateDen : Nat := 1
  maxW : Nat := 0
  maxH : Nat := 0
  inBase : Nat := 0
  inSize : Nat := 0
  outBase : Nat := 0
  outStride : Nat := 0
  ring : RecordRing := ({} : RecordRing)
  load : Nat := 0
  /-- Credit of R212 in thousandths of a superblock. -/
  credit : Nat := 0
  /-- Superblocks laid for the context in the present period. -/
  given : Nat := 0
  /-- The Galleries that its piece of the present period lies on, with their superblocks, in the order in which they serve it; and those of
  earlier periods that went into the frame in progress (R212). -/
  pieces : List (Nat × Nat) := []
  work : List (Nat × Nat) := []
  auNumber : Nat := 0
  /-- The access unit in progress: bytes so far, LOST. -/
  auOpen : Option (Nat × Bool) := none
  /-- It does not fit: it will be dropped whole (R210). -/
  auDrop : Bool := false
  units : List AccessUnit := []
  /-- Bytes occupied in the input buffer, those of the access unit in progress included. -/
  fill : Nat := 0
  /-- Ring offset of the access unit in progress. -/
  wr : Nat := 0
  /-- Units lost or dropped since the last output frame (GAP of R217). -/
  gapSince : Bool := false
  frameSeq : Nat := 0
  /-- Output slots in use: slot and FRAME_SEQ. -/
  slots : List (Nat × Nat) := []
  nextSlot : Nat := 0
  /-- Pictures held in decode order, newest first, and the pictures decoded so far. -/
  pics : List HeldPic := []
  decoded : Nat := 0
  /-- A picture of the oldest access unit has been decoded, and a further one follows in it. -/
  midUnit : Bool := false
  /-- Decoded frames that wait for their turn in display order, and the key pictures decoded so far. -/
  waiting : List Shown := []
  epoch : Nat := 0
  /-- How many of them may wait for their turn, as of the latest picture. -/
  waits : Nat := 0
  concealed : Bool := false
  /-- The latest sequence header, VPS or SPS lies outside R130 (R131), and the size that the latest one within it gives (R220). -/
  badHeader : Bool := false
  seqW : Nat := 0
  seqH : Nat := 0
  lastW : Nat := 0
  lastH : Nat := 0
  /-- LATE has been raised in the present period (R213). -/
  lateRaised : Bool := false
  /-- AVC packets of packetization-mode 2 dropped (R303). -/
  modeTwo : Nat := 0
  /-- Superblocks of the next frame that an unreadable memory line conceals (R448). -/
  hurt : Nat := 0
  binding : Option Binding := none
  cnt : Tab Word := []
deriving DecidableEq, Repr

/-! ### Galleries, Shaft -/

/-- An item of an output FIFO, one head entry (R100): a band, or a gap marker when `count` is not 0. -/
structure FifoItem where
  stream : Nat
  b : Nat
  seq : Nat
  frame : Nat
  count : Nat := 0
  cause : Nat := 0
  /-- 0 plain, 1 Vein variant 0, 2 Vein variant 1. -/
  variant : Nat := 0
  /-- Length slot committed (R101). -/
  valid : Bool := true
  resend : Bool := false
  rep : Bool := false
  key : Bool := false
  last : Bool := false
  /-- Bitstream bytes. -/
  len : Nat := 0
  digest4 : Nat := 0
  epoch : Nat := 0
  framePtp : Word := 0
  pre : List Nat := []
  /-- Entry of the FIFO that holds the head, once its place is known (R454). -/
  place : Option Nat := none
  /-- Its band had passed when its Gallery retired (R235). -/
  passed : Bool := false
deriving DecidableEq, Repr

/-- A line of the reference cache: a compression unit of a stream's picture in its compressed form, and whether Echo's share holds it
(R88). -/
structure CacheLine where
  stream : Nat
  frame : Nat
  unit : Nat
  echo : Bool
  data : List Byte := []
deriving DecidableEq, Repr

/-- One Gallery. -/
structure Gal where
  /-- The band whose occupancy runs: stream and SEQ. -/
  cur : Option (Nat × Nat) := none
  /-- Bands past their occupancy and not yet closed. -/
  closing : List (Nat × Nat) := []
  fifo : List FifoItem := []
  /-- Write and read pointers of the FIFO in entries, counted without wrap (R99). -/
  wr : Nat := 0
  rd : Nat := 0
  lastRead : Nat := 0
  tmoRaised : Bool := false
  /-- The last 64 verdicts, newest first; true is FAIL (R206). -/
  window : List Bool := []
  /-- The occupancy of a discarded band still runs, or moved parts are being loaded, until this time (R52, R242). -/
  busyUntil : Nat := 0
  unwell : Bool := false
  /-- Closes so far: the order in which verdicts follow (R199). -/
  closes : Nat := 0
  /-- Control store address that the header sequencer fetches next, the core clock up to which it has executed microwords, and the
  microwords of the present run (R92, R97). -/
  uc : Nat := 0
  ucClock : Nat := 0
  ucRun : Nat := 0
  /-- Device time of its retirement (R238). -/
  retiredAt : Nat := 0
  /-- Patch RAM: 1,024 words of 128 bits, those past the list zero (R92, R94). -/
  patch : List Nat := []
  /-- The lines of the reference cache, most recently used first (R88). -/
  cache : List CacheLine := []
deriving DecidableEq, Repr

/-- A Shaft chain in progress (R416 to R421). -/
structure Chain where
  owner : Nat
  frame : Nat := 0
  record : Nat := 0
  next : Nat := 0
  descs : Nat := 0
  headDone : Bool := false
  tail : Bool := false
  /-- `SHAFT_CH_CTRL` as it governs this chain (R429). -/
  ctrl : Word := 0
  /-- Hint rows that completed descriptors have written (R420). -/
  hintRows : List (Nat × Nat) := []
deriving DecidableEq, Repr

/-- Rows of one frame accounted by Shaft (R422): delivered and missing luma intervals, accounted CbCr intervals. -/
structure FrameRows where
  frame : Nat
  luma : List (Nat × Nat) := []
  missing : List (Nat × Nat) := []
  chroma : List (Nat × Nat) := []
  ended : Bool := false
deriving DecidableEq, Repr

/-- One Shaft channel. -/
structure Chan where
  /-- Posted chains: HEAD address and owner (R416). -/
  queue : List (Nat × Nat) := []
  chain : Option Chain := none
  /-- The descriptor in progress: its four words. -/
  desc : Option (List Word) := none
  /-- A chain has been posted for the stream: Shaft takes part in its source (R412, R422). -/
  served : Bool := false
  /-- Memory lines that the descriptor in progress could not read: their rows go out poisoned (R448). -/
  poison : List Nat := []
  frames : List FrameRows := []
deriving DecidableEq, Repr

/-! ### Recipients, keys, Mouth -/

/-- A learned slot (R318). -/
structure Learned where
  valid : Bool := false
  src : Source := { ipv6 := false, addrHi := 0, addrLo := 0, udp := 0, mac := 0 }
  lastSeen : Nat := 0
deriving DecidableEq, Repr

/-- The colour of a copy (R290). -/
inductive Colour where
  | green
  | yellow
  | red
deriving DecidableEq, Repr

/-- A queued copy of one packet (R284, R285). -/
structure QEntry where
  stream : Nat
  seq : Nat
  idx : Nat
  count : Nat
  len : Nat
  /-- The packet's payload, its SRTP index, and the master key and salt it is sent under (R267, R271, R363). -/
  payload : List Byte := []
  index : Nat := 0
  master : Nat := 0
  colour : Colour
  dup : Bool := false
  variant : Nat := 0
  rtp : Nat := 0
  void : Bool := false
  admitAt : Nat := 0
  /-- The key slot that the copy was admitted under, and what its band's release fixed of the packet: RTP header, SSRC and source port
  (R267, R289, R323). -/
  slot : Nat := 0
  header : List Byte := []
  ssrc : Nat := 0
  srcPort : Nat := 0
  /-- A mirror copy of it counts in the band's reference count (R285, R298). -/
  mirrored : Bool := false
deriving DecidableEq, Repr

/-- Where a queue stands (R335, R338, R339). -/
inductive QPlace where
  | idle
  | calendar (slot : Nat)
  | ready (port : Nat)
  | held
deriving DecidableEq, Repr

/-- One recipient: its entry (R315), learned blocks (R318) and queue (R284). -/
structure Recip where
  valid : Bool := false
  stream : Nat := 0
  group : Nat := 0
  reports : Bool := true
  silent : Bool := false
  marked : Bool := false
  cls : Nat := 0
  dup : Nat := 0
  ports : Nat := 0
  ipv6 : Bool := false
  learn : Bool := true
  keySlot : Nat := 0
  dstUdp : Nat := 0
  addrHi : Nat := 0
  addrLo : Nat := 0
  mac0 : Nat := 0
  mac1 : Nat := 0
  clientSsrc : Nat := 0
  rate : Nat := 0
  burst : Nat := 0
  countFrom : Nat := 0
  /-- COUNT_FROM takes the frame of the next reference decision (R171). -/
  countNext : Bool := false
  lastAck : Nat := 4294967295
  lastAckTime : Nat := 0
  lost : Nat := 0
  latHwm : Nat := 0
  depthHwm : Nat := 0
  qlen : Nat := 0
  /-- Counters of entry words 16 to 23. -/
  cnt : Tab Word := []
  learned0 : List Learned := []
  learned1 : List Learned := []
  queue : List QEntry := []
  tokens : Int := 0
  /-- Slot boundary up to which tokens have been added (R336). -/
  tokenSlot : Nat := 0
  place : QPlace := .idle
  /-- The entry blocks of its queue (R278), pool and buffer, latest first. -/
  blocks : List (Nat × Nat) := []
  /-- SEQ of the bands in hand whose loss has marked it (R287). -/
  dropBands : List Nat := []
  /-- SEQ of the last band of the picture whose leaving clears the mark, and that it has left the port (R183). -/
  clearAt : Option Nat := none
  clearSent : Bool := false
  /-- SRTCP indexes accepted from it, the highest first (R301). -/
  rtcpSeen : List Nat := []
deriving DecidableEq, Repr

/-- One key slot (R359). -/
structure Key where
  kind : Nat := 0
  material : Nat := 0
  w : Word := 0
  keyId : Word := 0
  loader : Nat := 0
  pending : Option (Nat × Word) := none
  pendingGraceMs : Nat := 0
  old : Nat := 0
  /-- The old key is accepted until this device time (R363). -/
  graceUntil : Option Nat := none
  /-- Keys before the old one that are still accepted, each until its device time (R363). -/
  older : List (Nat × Nat) := []
  /-- TX: next SRTP index of the transmit context; RX: highest accepted. -/
  index : Nat := 0
  /-- TX: the first SRTP index of the transmit context: lower ones have never been used (R302). -/
  firstIndex : Nat := 0
  /-- RX: a packet has been accepted. TX: SRTCP index of the next sender report, packets and payload bytes sent (R307). -/
  accepted : Bool := false
  srIndex : Nat := 0
  sentPackets : Nat := 0
  sentOctets : Nat := 0
  wearRaised : Bool := false
  /-- History of the transmit context (R302): SEQ, first index, packets, killed, re-sent. -/
  history : List (Nat × Nat × Nat × Bool × Bool) := []
  srAt : Nat := 0
deriving DecidableEq, Repr

/-- A stored band (R278). -/
structure Stored where
  stream : Nat
  seq : Nat
  frame : Nat
  b : Nat
  last : Bool
  vein : Bool
  key : Bool
  rep : Bool
  resend : Bool
  len0 : Nat
  len1 : Nat
  /-- The bitstreams of variants 0 and 1, as read from the output FIFO. -/
  data0 : List Byte := []
  data1 : List Byte := []
  digest4 : Nat
  epoch : Nat
  /-- Every buffer taken: pool and buffer. -/
  bufs : List (Nat × Nat)
  released : Bool := false
  releasedAt : Nat := 0
  passed : Bool := false
  killed : Bool := false
  refs : Nat := 0
  /-- `LANTERN_FRAME_PTP` of its picture (R268). -/
  framePtp : Word := 0
  pre : List Nat := []
deriving DecidableEq, Repr

/-- The free list of a pool (R280): the buffer at its head; the links that are not those of the reset, by which each buffer links to the
one behind it; and what has been written over the link of a free buffer (R283). A link holds the next buffer; none: the list ends. -/
structure FreeList where
  head : Nat := 0
  links : Tab (Option (Option Nat)) := []
  spoilt : Tab (Option Word) := []
deriving DecidableEq, Repr

/-- One Ethernet port. -/
structure Port where
  up : Bool := false
  gbps : Nat := 100
  ready : List Nat := []
  /-- The packet being transmitted: recipient, entry, end of its frame; killed. -/
  wire : Option (Nat × QEntry × Nat) := none
  wireKilled : Bool := false
  /-- The time word at which the first byte of the packet on the wire passed the port (R299). -/
  wireAt : Word := 0
  /-- Host frames may be sent again from this time, and the one last sent is on the wire until this time (R306). -/
  hostAt : Nat := 0
  hostEnd : Nat := 0
  /-- Received frames dropped by rule 1 of R300, PAUSE and PFC frames dropped (R307), unclaimed frames dropped (rule 5 of R300). -/
  badFrames : Nat := 0
  pauseFrames : Nat := 0
  unclaimed : Nat := 0
deriving DecidableEq, Repr

/-- A mirror (R298): stream, recipient when it is a recipient mirror, next packet number of its own context. -/
structure Mirror where
  stream : Nat
  recip : Option Nat
  next : Nat := 0
deriving DecidableEq, Repr

/-- Mouth and Sump beside their registers. -/
structure Mouth where
  lfsr : Nat := 44257
  turn : Nat := 0
  stored : List Stored := []
  /-- Port E0. -/
  port0 : Port := ({} : Port)
  /-- Port E1. -/
  port1 : Port := ({} : Port)
  /-- The slot the calendar serves (R334). -/
  calV : Nat := 0
  /-- Queues in the calendar, in order of entry: slot and recipient. -/
  calendar : List (Nat × Nat) := []
  mirrors : List Mirror := []
  /-- Buffers in use: pool and owner (0 to 191 streams, 1,000 + class, 2,000 device), by pool × 4,096 + owner. -/
  used : Tab Nat := []
  /-- Stamps of unreferenced buffers, by pool × 2^32 + buffer (R282). -/
  stamps : Tab Nat := []
  /-- The free lists of the pools (R280). -/
  free : Tab FreeList := []
  /-- Buffers cut off behind a broken link, unreferenced: pool, first and last of each run (R283). -/
  lost : List (Nat × Nat × Nat) := []
  /-- Feedback packets dropped because their authentication failed, and because no recipient was found (R301). -/
  authFails : Nat := 0
  unattributed : Nat := 0
deriving DecidableEq, Repr

/-! ### Rings, events, faults -/

/-- A submitted packet: issuer, header word, parameters, MCTP tag, and for KEY.KEK the ECDH secret under the fused identity key (R361). -/
structure Pkt where
  fn : Nat
  hdr : Word
  ps : List Word
  tag : Option Nat := none
  kek : Option Nat := none
deriving DecidableEq, Repr

/-- A latched happening of a LEVEL source (R464): cause, SUBJECT, DATA, time, MERGED. -/
structure Latch where
  cause : Nat
  subject : Nat
  data : Nat
  time : Word
  merged : Bool := false
deriving DecidableEq, Repr

/-- What an event queue keeps beside its registers (R462, R466). -/
structure EqX where
  lostNext : Bool := false
  /-- A record has been written since the last one lost (R474 QUEUE_LOST). -/
  wrote : Bool := false
  since : Nat := 0
  firstAt : Nat := 0
deriving DecidableEq, Repr

/-- An entry of the persistent record (R490), with Roost's time of its happening. -/
structure RecEntry where
  seq : Nat := 0
  kind : Nat
  cls : Nat := 0
  injected : Bool := false
  repeats : Nat := 0
  boot : Nat := 0
  hdr : Word := 0
  addr : Word := 0
  time : Word := 0
  raster : Word := 0
  at_ : Nat := 0
deriving DecidableEq, Repr

/-- The non-volatile storage of Roost (R489, R532) and the fuse that firmware may raise (R368). -/
structure NonVol where
  record : List RecEntry := []
  nextSeq : Nat := 0
  ordinal : Nat := 0
  ordValid : Bool := false
  svnMin : Nat := 0
deriving DecidableEq, Repr

/-- The fault collector beside its registers (R485, R486). -/
structure Flt where
  pulseEnd : Option Nat := none
  heartbeatAt : Option Nat := none
  /-- FAULT_N keeps the fallback level until FLT_CTRL is written (R486). -/
  keepLevel : Bool := false
  keptLow : Bool := false
deriving DecidableEq, Repr

/-- What Roost keeps through a reset of the main die (R501). -/
structure Roost where
  up : Bool := true
  entries : List RecEntry := []
  /-- Times of the entries written in the last second (R489). -/
  written : List Nat := []
  bootCount : Nat := 0
  grave : Bool := false
  wakeSet : List (Nat × Nat) := []
  wakeRecs : List (Nat × Nat × Nat) := []
  /-- FAULT_N stays low in sleep for a fault left uncleared (R563). -/
  sleepLow : Bool := false
  /-- Alert causes stay through a reset: PEND lives in FLT_ALERT; this mirrors it while the die is down. -/
  alert : Bool := false
deriving DecidableEq, Repr

/-- How far the die has come (R503). -/
inductive DiePhase where
  /-- Roost is not running or a supply is out of range. -/
  | unpowered
  /-- Held in reset. -/
  | reset
  /-- Rails in regulation; the die waits for PERST_N. -/
  | waiting
  /-- Out of reset: the boot ROM or firmware runs. -/
  | running
  | asleep
  | grave
deriving DecidableEq, Repr

/-- Supplies, reset, thermal. -/
structure Pwr where
  die : DiePhase := .waiting
  vin : Nat := 12000
  core : Nat := 750
  sb : Nat := 3300
  minVin : Nat := 12000
  minCore : Nat := 750
  /-- Rails in warning. -/
  vinWarn : Bool := false
  coreWarn : Bool := false
  warnAt : Option Nat := none
  moved : Bool := false
  stableAt : Option Nat := none
  perst : Bool := true
  bootMode : Nat := 0
  smbAddr : Nat := 0
  resetKind : Nat := 0
  resetAt : Nat := 0
  /-- DEVICE.RESET is scheduled for this time (R395). -/
  resetDue : Option Nat := none
  wakeDue : Option Nat := none
  /-- Since this time of Roost VIN12 has been back at 10.8 V after a brown-out. -/
  backAt : Option Nat := none
  /-- PERST_N has been asserted since the thermal shutdown (R501). -/
  rePerst : Bool := false
  linkUp : Bool := false
  linkSeen : Bool := false
  /-- E0, E1 have had their boot pair (R512). -/
  e0Seen : Bool := false
  e1Seen : Bool := false
deriving DecidableEq, Repr

/-- A calibration block (R510, R511): 0 idle, 1 waiting, 2 first pair, 3 retry due. -/
structure CalBlk where
  stage : Nat := 0
  startAt : Nat := 0
  again : Bool := false
  /-- The latest run pauses its memory channel until this time (R453). -/
  pausedUntil : Nat := 0
deriving DecidableEq, Repr

/-- The running firmware image (R368, R520). -/
structure BootImg where
  svn : Nat
  firmwareId : Word
  patchId : Word
  tableIds : List Word
deriving DecidableEq, Repr

/-- Boot state beside BOOT_STATUS. -/
structure Boot where
  img : Option BootImg := none
  /-- Bytes of the image: received over SMBus so far, or as `BOOT_IMAGE` gives them, with the image's place in the memory window (R371). -/
  received : Nat := 0
  offset : Nat := 0
  /-- Verification has failed from the primary source (R369). -/
  recovery : Bool := false
  /-- Boot pairs of R512 still running, by block. -/
  pairs : List Nat := []
deriving DecidableEq, Repr

/-- The Guide pairs (R253 to R256). -/
structure Guide where
  pairA : Bool := true
  pairB : Bool := true
  takeoverAt : Option Nat := none
  /-- Retired Galleries whose parts are still to be moved, in the order observed (R238). -/
  moves : List Nat := []
deriving DecidableEq, Repr

/-- A packet taken whose reply is still to come (R378, R402). -/
structure Outstanding where
  fn : Nat
  hdr : Word
  target : Nat
  tag : Option Nat
  results : List Word := []
  replayed : Bool := false
  /-- Its reply is discarded: the ring was disabled, or the function reset, since it was taken (R378, R404). -/
  dropped : Bool := false
deriving DecidableEq, Repr

/-- The staged fleet profile (R524). -/
structure Profile where
  epoch : Nat
  pacingEn : Bool
  tableSet : Nat
  expect : List Word
  pacing : List Word
deriving DecidableEq, Repr

/-- Fleet state beside its registers. -/
structure Fleet where
  staged : Option Profile := none
  armed : Option Nat := none
  prevSet : Nat := 0
  digestDue : Bool := false
  driftRaisedAt : Option Nat := none
  /-- A landing waits for the release of the set before the previous one (R527). -/
  waiting : Bool := false
deriving DecidableEq, Repr

/-- What an Announce message says of a master (R304): its port identity and grandmaster, its place in the order of the best master clock
algorithm, lower being better, and when it was last heard. -/
structure PtpMaster where
  port : Nat
  gm : Nat
  rank : Nat
  heard : Nat
deriving DecidableEq, Repr

/-- PTP time and its client (R304). -/
structure Ptp where
  locked : Bool := false
  offset : Int := 0
  good : Nat := 0
  bad : Nat := 0
  lastAt : Nat := 0
  /-- When the times of the last Sync were known: what 100 ppm of slew are counted from (R304). -/
  slewAt : Nat := 0
  gm : Nat := 0
  /-- The whole second of PTP time at which PPS_OUT rises next while the clock is locked (R305). -/
  ppsNext : Nat := 0
  /-- The port on which the masters have been heard, and the masters. -/
  heardOn : Nat := 0
  masters : List PtpMaster := []
  /-- A two-step Sync that waits for its Follow_Up: sequence number, receipt time and correction. -/
  sync : Option (Nat × Int × Int) := none
  /-- Master's sending time and receipt time of the latest Sync, its correction added to the first. -/
  t1 : Int := 0
  t2 : Int := 0
  /-- The Delay_Req in flight: sequence number and sending time. -/
  request : Option (Nat × Int) := none
  requests : Nat := 0
  /-- Mean path delay, once a Delay_Resp has given it. -/
  path : Option Int := none
deriving DecidableEq, Repr

/-- Memory controller state beside its registers (R447, R450, R452). -/
structure Memc where
  /-- Tracked rows of bank b of channel m, by 16 m + b: row and count. -/
  rows : Tab (List (Nat × Nat)) := []
  /-- Corrected errors of channel m in the present second. -/
  ceCount : Tab Nat := []
  ceSecond : Tab Nat := []
  /-- Requests promoted: channel, class now, time of arrival, requester, and the time of the promotion. -/
  promoted : List (Nat × Nat × Nat × Nat × Nat) := []
deriving DecidableEq, Repr

/-- What the configuration spaces of the functions report and what the host has set in them (R406, R407); the Vendor ID is
`Config.vendorId`. -/
structure PcieCfg where
  deviceId : Nat := 0x0192
  vfDeviceId : Nat := 0x0193
  classCode : Nat := 0x048000
  totalVfs : Nat := 192
  firstVfOffset : Nat := 1
  vfStride : Nat := 1
  /-- VFs enabled in the SR-IOV capability: VF 1 to VF `numVfs` (notes/assumptions/18.md). -/
  numVfs : Nat := 192
  /-- Size of BAR2 in GiB, 64 at reset; the host resizes it through PCIe configuration (notes/assumptions/8.md). -/
  bar2GiB : Nat := 64
deriving DecidableEq, Repr

/-- The states of the IEEE 1149.1 TAP controller. -/
inductive TapState where
  | testLogicReset
  | runTestIdle
  | selectDr
  | captureDr
  | shiftDr
  | exit1Dr
  | pauseDr
  | exit2Dr
  | updateDr
  | selectIr
  | captureIr
  | shiftIr
  | exit1Ir
  | pauseIr
  | exit2Ir
  | updateIr
deriving DecidableEq, Repr

/-- The TAP (R564): controller state, TCK edges with TMS high in a row, bits shifted since the last capture, bits last
updated into the data register, EXTEST in force. -/
structure Tap where
  st : TapState := .testLogicReset
  run : Nat := 0
  shift : List Bool := []
  data : List Bool := []
  extest : Bool := false
deriving DecidableEq, Repr

/-- A captured register value that waits for its landing (R533): address, value and stream. -/
structure Capture where
  addr : Nat
  value : Word
  stream : Nat
deriving DecidableEq, Repr

/-- What the block puts on its outputs. -/
inductive Out where
  /-- Words written to host memory from this address (records, completion records). -/
  | host (addr : Nat) (words : List Word)
  /-- A reply of function `fn` with the ring slot of its header word, and the host addresses of its slots from that one on; the header's
slot is written last (R374, R379). -/
  | reply (fn slot : Nat) (addrs : List Nat) (words : List Word)
  /-- Decoded frame bytes written to host memory; `poison`: the TLP is poisoned (R448). -/
  | data (addr : Nat) (bytes : List Byte) (poison : Bool)
  /-- The message of a reply over MCTP with its tag: its bytes from the message type on (R400, R401). -/
  | mctp (tag : Nat) (bytes : List Byte)
  /-- An MSI-X message (R466). -/
  | msix (fn vector : Nat)
  /-- The completion of a register read by this master. -/
  | read (m : Nat) (v : Word)
  /-- The completion of a BAR2 read. -/
  | bytes (bs : List Byte) (poison : Bool)
  /-- A packet that began on a port: recipient, entry, marker bit, time stamp, destination, digest bytes, epoch,
  and the frame from destination MAC to FCS. -/
  | packet (port recip : Nat) (e : QEntry) (marker : Bool) (ts : Nat) (dst : Source) (digest4 epoch : Nat) (frame : List Byte)
  /-- The packet on the wire of this port ends with a complemented FCS (R296). -/
  | fcsKill (port : Nat)
  /-- An RTCP sender report of the transmit context of this key slot to a recipient: the frame (R307). -/
  | senderReport (port keySlot : Nat) (frame : List Byte)
  /-- A message of the PTP client, and whether it goes over UDP (R304). -/
  | ptp (port : Nat) (udp : Bool) (message : List Byte)
  /-- A host frame with its FCS (R306). -/
  | hostFrame (port : Nat) (bytes : List Byte)
  /-- A rising edge of PPS_OUT (R305). -/
  | pps
  /-- The device's answer to the Alert Response Address (R488). -/
  | alertAddress (addr : Nat)
deriving DecidableEq, Repr

/-! ### The state -/

/-- Everything of the device but its memory and its non-volatile storage. -/
structure Dev where
  now : Nat := 0
  upTime : Nat := 0
  /-- The model's own counter of free values drawn. -/
  freeCtr : Nat := 0
  regs : Tab Word := []
  /-- Number of the latest telemetry tick (R515). -/
  tick : Nat := 0
  /-- Explicit access table words, by address (R433). -/
  acc : Tab (Option Word) := []
  /-- The access defaults of the standard image are in force (R437). -/
  accStd : Bool := false
  shadow : Tab (Option Word) := []
  captured : List Capture := []
  snaps : Tab (Option (Nat × Nat)) := []
  out : List Out := []
  streams : Tab Stream := []
  sOwner : Tab Nat := []
  ctxs : Tab Ctx := []
  /-- Ingest periods begun (R212), and the best-effort context whose turn comes first (R214). -/
  ingestPeriods : Nat := 0
  ingestTurn : Nat := 0
  cOwner : Tab Nat := []
  gals : Tab Gal := []
  chans : Tab Chan := []
  recips : Tab Recip := []
  keys : Tab Key := []
  keks : Tab (Option Nat) := []
  mouth : Mouth := ({} : Mouth)
  rings : List Outstanding := []
  submitted : List Pkt := []
  /-- The function whose turn a waiting packet of its took last; 254: MCTP (R397). -/
  turn : Nat := 0
  srcs : Tab (List Latch) := []
  /-- ACTIVE of each source (R465): 0 when it is not, else one more than the function that received its record. -/
  activeFn : Tab Nat := []
  eqs : Tab EqX := []
  /-- Galleries whose routine a fast record of theirs abandons (R95). -/
  fastMet : List Nat := []
  /-- When a limited event was last raised, plus one, by key (the rules that say once per interval). -/
  lastRaised : Tab Nat := []
  flt : Flt := ({} : Flt)
  roost : Roost := ({} : Roost)
  pwr : Pwr := ({} : Pwr)
  cal : Tab CalBlk := []
  boot : Boot := ({} : Boot)
  guide : Guide := ({} : Guide)
  fleet : Fleet := ({} : Fleet)
  ptp : Ptp := ({} : Ptp)
  memc : Memc := ({} : Memc)
  pcie : PcieCfg := ({} : PcieCfg)
  /-- Indirect words that have been written, by space, unit and word. -/
  ind : Tab (Option Word) := []
  /-- Generation of the trained values of each calibration block: an accepted pair starts a new one (R511). -/
  indGen : Tab Nat := []
  tap : Tap := ({} : Tap)
  /-- Allocations of the coding and ingest regions (R455): base, bytes, owner (a stream, or 1,000 + a context). -/
  allocs : List (Nat × Nat × Nat) := []
  /-- Last rising edge seen on each RASTER_SYNC input, plus one (R46). -/
  syncAt : Tab Nat := []
deriving DecidableEq, Repr

/-- The state of the block. -/
structure State where
  /-- The commands that wait, first in first out. -/
  pending : List Instr := []
  /-- Device memory (R441): bytes that differ from what unwritten memory reads as. -/
  mem : List Host.Cell := []
  /-- The model's own count of committed changes of ORDER, after which the contents of device memory are undefined
  (R446): 0 while unwritten memory reads as the model's reset contents, else the number of the free contents. -/
  memGen : Nat := 0
  nv : NonVol := ({} : NonVol)
  dev : Dev := ({} : Dev)
deriving DecidableEq, Repr

/-- The machine right after a power-on reset: both rails in range, Roost running, the die waiting for the release of
PERST_N, every register at its reset value, nothing pending (R501, R503; notes/assumptions/5.md). -/
def State.reset : State := { pending := [], mem := [], nv := {}, dev := {} }

end Sys2Proof.Machine
end

