-- ==== Sys2Proof/Machine/Ops.lean ====
section
/-! DEFINITION. The named operations over tables, bit fields, device memory, time and outputs. -/

namespace Sys2Proof.Machine

/-! ### Tables -/

/-- The entry of a table at a key; the default where none is listed. -/
def Tab.get {α : Type} (t : Tab α) (dflt : α) (k : Nat) : α :=
  match t with
  | [] => dflt
  | (j, v) :: r => if j = k then v else Tab.get r dflt k

/-- A table without its entry at a key. -/
def Tab.del {α : Type} (t : Tab α) (k : Nat) : Tab α :=
  match t with
  | [] => []
  | (j, v) :: r => if j = k then Tab.del r k else (j, v) :: Tab.del r k

/-- Puts an entry in front of the first with a greater key. -/
def Tab.ins {α : Type} (t : Tab α) (k : Nat) (v : α) : Tab α :=
  match t with
  | [] => [(k, v)]
  | (j, w) :: r => if j < k then (j, w) :: Tab.ins r k v else (k, v) :: (j, w) :: r

/-- Sets the entry of a table at a key, keeping the keys rising and no entry equal to the default. -/
def Tab.set {α : Type} [DecidableEq α] (t : Tab α) (dflt : α) (k : Nat) (v : α) : Tab α :=
  if v = dflt then t.del k else (t.del k).ins k v

/-! ### Bit fields (R8) -/

/-- Field [hi:lo] of a word. -/
def fld (w : Word) (hi lo : Nat) : Nat := w.toNat / 2 ^ lo % 2 ^ (hi + 1 - lo)

/-- Bit i of a word. -/
def bit (w : Word) (i : Nat) : Bool := w.toNat / 2 ^ i % 2 == 1

/-- A word with field [hi:lo] replaced. -/
def setFld (w : Word) (hi lo v : Nat) : Word :=
  word (w.toNat - fld w hi lo * 2 ^ lo + v % 2 ^ (hi + 1 - lo) * 2 ^ lo)

/-- A word with bit i replaced. -/
def setBit (w : Word) (i : Nat) (b : Bool) : Word := setFld w i i b.toNat

/-- The word whose field [hi:lo] is all ones. -/
def ones (hi lo : Nat) : Word := word (2 ^ (hi + 1) - 2 ^ lo)

/-- The bits of a word outside a mask are all zero. -/
def within (w mask : Word) : Bool := w &&& mask == w

/-- Rounds a quotient up. -/
def ceilDiv (a b : Nat) : Nat := (a + b - 1) / b

/-- A signed number as the low `bits` bits of its two's complement. -/
def signedBits (bits : Nat) (i : Int) : Nat := (i % (2 ^ bits : Nat)).toNat

/-- The signed number in the low `bits` bits. -/
def signedOf (bits n : Nat) : Int := if n % 2 ^ bits < 2 ^ (bits - 1) then (n % 2 ^ bits : Nat) else (n % 2 ^ bits : Nat) - (2 ^ bits : Nat)

/-- A power of two. -/
def isPow2 (n : Nat) : Bool := n != 0 && 2 ^ Nat.log2 n == n

/-- Sequence numbers are compared modulo 2 to the 32: how far b lies ahead of a (R260). -/
def seqAhead (a b : Nat) : Nat := (b + two32 - a % two32) % two32

/-- Sequence number plus k. -/
def seqAdd (a k : Nat) : Nat := (a + k) % two32

/-- The 8 bytes of a word, most significant first. -/
def bytesBE (w : Word) : List Byte := [7, 6, 5, 4, 3, 2, 1, 0].map fun i => BitVec.ofNat 8 (w.toNat / 2 ^ (8 * i))

/-- The 8 bytes of a word, least significant first, as in memory (R375). -/
def bytesLE (w : Word) : List Byte := [0, 1, 2, 3, 4, 5, 6, 7].map fun i => BitVec.ofNat 8 (w.toNat / 2 ^ (8 * i))

/-- The number that bytes spell, most significant first. -/
def natBE (bs : List Byte) : Nat := bs.foldl (fun n b => n * 256 + b.toNat) 0

/-- The number that bytes spell, least significant first. -/
def natLE (bs : List Byte) : Nat := bs.foldr (fun b n => n * 256 + b.toNat) 0

/-- `n` bytes of a number, most significant first. -/
def natBytesBE (n v : Nat) : List Byte := (List.range n).map fun i => BitVec.ofNat 8 (v / 2 ^ (8 * (n - 1 - i)))

/-! ### Device memory (R441) -/

/-- What a byte that nothing has written reads as: zero after a reset (notes/assumptions/3.md), a free value after a
committed change of ORDER (R446). -/
def memDflt (gen a : Nat) : Byte := if gen = 0 then 0 else Config.freeByte gen a

/-- Device memory is in canonical form: addresses strictly rising and backed, no byte equal to what an unlisted one
reads as. -/
def Memory.wf (gen : Nat) (m : List Host.Cell) : Bool :=
  match m with
  | [] => true
  | [(a, b)] => decide (b ≠ memDflt gen a) && decide (a < Config.memBytes)
  | (a, b) :: (a', b') :: r =>
    decide (b ≠ memDflt gen a) && decide (a < Config.memBytes) && decide (a < a') && Memory.wf gen ((a', b') :: r)

/-- One byte of device memory. -/
def memByte (gen : Nat) (m : List Host.Cell) (a : Nat) : Byte := Tab.get (α := Byte) m (memDflt gen a) a

/-- Writes one byte; an address that is not backed takes no write (R408). -/
def memPut (gen : Nat) (m : List Host.Cell) (a : Nat) (b : Byte) : List Host.Cell :=
  if a < Config.memBytes then Tab.set (α := Byte) m (memDflt gen a) a b else m

/-- Writes consecutive bytes. -/
def memWrite (gen : Nat) (m : List Host.Cell) (a : Nat) (bs : List Byte) : List Host.Cell :=
  match bs with
  | [] => m
  | b :: r => memWrite gen (memPut gen m a b) (a + 1) r

/-- Byte a of the device memory of a state. -/
def State.byte (s : State) (a : Nat) : Byte := memByte s.memGen s.mem a

/-- Consecutive bytes of device memory. -/
def State.bytes (s : State) (a n : Nat) : List Byte := (List.range n).map fun i => s.byte (a + i)

/-- Stores consecutive bytes. -/
def State.store (s : State) (a : Nat) (bs : List Byte) : State := { s with mem := memWrite s.memGen s.mem a bs }

/-- The little-endian word at an address. -/
def State.wordAt (s : State) (a : Nat) : Word := word (natLE (s.bytes a 8))

/-! ### Lifts, time, outputs, free values -/

/-- An effect on the device that touches neither memory, nor non-volatile storage, nor the queue. -/
def State.onDev (s : State) (f : Dev → Dev) : State := { s with dev := f s.dev }

/-- A next state. -/
def ok (s : State) : Host.Outcome State Fault Refusal := .next s

/-- Puts something on an output. -/
def emit (d : Dev) (o : Out) : Dev := { d with out := d.out ++ [o] }

/-- Device time is carried forward to the time a happening was scheduled at (R574); it never falls. Roost's count moves
with it. -/
def advance (d : Dev) (t : Nat) : Dev := { d with now := max d.now t, upTime := d.upTime + (max d.now t - d.now) }

/-- Draws a free value: a 64-bit value the spec leaves open. -/
def draw (d : Dev) : Word × Dev := (Config.freeWord d.freeCtr, { d with freeCtr := d.freeCtr + 1 })

/-- The time word of records and registers: PTP time when locked, else device time with UNLOCKED in bit 63 (R49, R304,
R460). -/
def timeWord (d : Dev) : Word :=
  if d.ptp.locked then word ((((d.now : Int) + d.ptp.offset) % (2 ^ 63 : Nat)).toNat) else word (2 ^ 63 + d.now % 2 ^ 63)

/-- PTP time in ns, or device time while PTP is not locked. -/
def ptpNow (d : Dev) : Nat := if d.ptp.locked then ((d.now : Int) + d.ptp.offset).toNat else d.now

/-- The time word of Roost's own count, always UNLOCKED (R469, R490). -/
def roostWord (d : Dev) : Word := word (2 ^ 63 + d.upTime % 2 ^ 63)

/-! ### Entries of the tables of Dev -/

def Dev.stream (d : Dev) (n : Nat) : Stream := d.streams.get ({} : Stream) n

def Dev.setStream (d : Dev) (n : Nat) (s : Stream) : Dev := { d with streams := d.streams.set ({} : Stream) n s }

def Dev.onStream (d : Dev) (n : Nat) (f : Stream → Stream) : Dev := d.setStream n (f (d.stream n))

def Dev.ctx (d : Dev) (c : Nat) : Ctx := d.ctxs.get ({} : Ctx) c

def Dev.setCtx (d : Dev) (c : Nat) (x : Ctx) : Dev := { d with ctxs := d.ctxs.set ({} : Ctx) c x }

def Dev.onCtx (d : Dev) (c : Nat) (f : Ctx → Ctx) : Dev := d.setCtx c (f (d.ctx c))

def Dev.gal (d : Dev) (g : Nat) : Gal := d.gals.get ({} : Gal) g

def Dev.setGal (d : Dev) (g : Nat) (x : Gal) : Dev := { d with gals := d.gals.set ({} : Gal) g x }

def Dev.onGal (d : Dev) (g : Nat) (f : Gal → Gal) : Dev := d.setGal g (f (d.gal g))

def Dev.chan (d : Dev) (c : Nat) : Chan := d.chans.get ({} : Chan) c

def Dev.setChan (d : Dev) (c : Nat) (x : Chan) : Dev := { d with chans := d.chans.set ({} : Chan) c x }

def Dev.onChan (d : Dev) (c : Nat) (f : Chan → Chan) : Dev := d.setChan c (f (d.chan c))

def Dev.recip (d : Dev) (r : Nat) : Recip := d.recips.get ({} : Recip) r

def Dev.setRecip (d : Dev) (r : Nat) (x : Recip) : Dev := { d with recips := d.recips.set ({} : Recip) r x }

def Dev.onRecip (d : Dev) (r : Nat) (f : Recip → Recip) : Dev := d.setRecip r (f (d.recip r))

def Dev.key (d : Dev) (k : Nat) : Key := d.keys.get ({} : Key) k

def Dev.setKey (d : Dev) (k : Nat) (x : Key) : Dev := { d with keys := d.keys.set ({} : Key) k x }

def Dev.onKey (d : Dev) (k : Nat) (f : Key → Key) : Dev := d.setKey k (f (d.key k))

def Dev.onMouth (d : Dev) (f : Mouth → Mouth) : Dev := { d with mouth := f d.mouth }

/-- After reset stream n is owned by VF n + 1 (R18). -/
def Dev.streamOwner (d : Dev) (n : Nat) : Nat := d.sOwner.get (n + 1) n

/-- After reset every decode context is owned by the PF (R18). -/
def Dev.ctxOwner (d : Dev) (c : Nat) : Nat := d.cOwner.get 0 c

def Dev.setStreamOwner (d : Dev) (n m : Nat) : Dev := { d with sOwner := d.sOwner.set (n + 1) n m }

def Dev.setCtxOwner (d : Dev) (c m : Nat) : Dev := { d with cOwner := d.cOwner.set 0 c m }

def Dev.calBlk (d : Dev) (b : Nat) : CalBlk := d.cal.get ({} : CalBlk) b

def Dev.setCal (d : Dev) (b : Nat) (x : CalBlk) : Dev := { d with cal := d.cal.set ({} : CalBlk) b x }

def Dev.eqx (d : Dev) (f : Nat) : EqX := d.eqs.get ({} : EqX) f

def Dev.setEqx (d : Dev) (f : Nat) (x : EqX) : Dev := { d with eqs := d.eqs.set ({} : EqX) f x }

/-- Function f is there: the PF, or a VF that is enabled in the SR-IOV capability (R20, R406). -/
def Dev.functionOn (d : Dev) (f : Nat) : Bool := decide (f ≤ d.pcie.numVfs)

/-- Vendor ID and Device ID that function f reports, and its class code (R407); the class code of a VF is that of the PF. -/
def Dev.identityOf (d : Dev) (f : Nat) : Nat × Nat × Nat :=
  (Config.vendorId, if f = 0 then d.pcie.deviceId else d.pcie.vfDeviceId, d.pcie.classCode)

/-- Routing identifier of VF f within the PF's bus, by First VF Offset and VF Stride (R406). -/
def Dev.routingOf (d : Dev) (f : Nat) : Nat := if f = 0 then 0 else d.pcie.firstVfOffset + (f - 1) * d.pcie.vfStride

/-- Replaces the i-th element of a list. -/
def setAt {α : Type} (l : List α) (i : Nat) (v : α) : List α := l.set i v

/-- Port p of Mouth: 0 is E0, any other number E1. -/
def Dev.port (d : Dev) (p : Nat) : Port := if p = 0 then d.mouth.port0 else d.mouth.port1

def Dev.setPort (d : Dev) (p : Nat) (x : Port) : Dev := d.onMouth fun m => if p = 0 then { m with port0 := x } else { m with port1 := x }

def Dev.onPort (d : Dev) (p : Nat) (f : Port → Port) : Dev := d.setPort p (f (d.port p))

/-- Inserts an element before the first that does not go before it. -/
def insertBy {α : Type} (le : α → α → Bool) (x : α) (l : List α) : List α :=
  match l with
  | [] => [x]
  | y :: r => if le y x then y :: insertBy le x r else x :: y :: r

/-- A list in order; equal elements keep theirs. -/
def sortBy {α : Type} (le : α → α → Bool) (l : List α) : List α := l.foldl (fun s x => insertBy le x s) []

/-- A list with each element once, in order of first appearance. -/
def uniq {α : Type} [DecidableEq α] (l : List α) : List α := l.foldl (fun s x => if s.contains x then s else s ++ [x]) []

/-- Folds an effect over a list. -/
def each {α β : Type} (l : List α) (d : β) (f : β → α → β) : β := l.foldl f d

end Sys2Proof.Machine
end

