-- ==== Sys2Proof/Machine/Crypto.lean ====
section
/-! DEFINITION. The named public algorithms the spec refers to by name: SHA-256 (R519), SHA-384 (R361), AES-256 (R345,
R362), the key unwraps of RFC 5649 and RFC 3394 (R361, R362), SRTP (R360), the frame check sequence and CRC-32C (R84, R490). PRESUMED: their
content is the standards' own, which the spec names and does not repeat (notes/assumptions/9.md). -/

namespace Sys2Proof.Machine

/-- Sum of 32-bit numbers. -/
def add32 (a b : Nat) : Nat := (a + b) % two32

/-- Rotation right of a 32-bit number. -/
def rotr32 (a n : Nat) : Nat := (a / 2 ^ n + a * 2 ^ (32 - n)) % two32

/-! ### SHA-256 -/

def shaK : List Nat :=
  [0x428a2f98, 0x71374491, 0xb5c0fbcf, 0xe9b5dba5, 0x3956c25b, 0x59f111f1, 0x923f82a4, 0xab1c5ed5] ++
  [0xd807aa98, 0x12835b01, 0x243185be, 0x550c7dc3, 0x72be5d74, 0x80deb1fe, 0x9bdc06a7, 0xc19bf174] ++
  [0xe49b69c1, 0xefbe4786, 0x0fc19dc6, 0x240ca1cc, 0x2de92c6f, 0x4a7484aa, 0x5cb0a9dc, 0x76f988da] ++
  [0x983e5152, 0xa831c66d, 0xb00327c8, 0xbf597fc7, 0xc6e00bf3, 0xd5a79147, 0x06ca6351, 0x14292967] ++
  [0x27b70a85, 0x2e1b2138, 0x4d2c6dfc, 0x53380d13, 0x650a7354, 0x766a0abb, 0x81c2c92e, 0x92722c85] ++
  [0xa2bfe8a1, 0xa81a664b, 0xc24b8b70, 0xc76c51a3, 0xd192e819, 0xd6990624, 0xf40e3585, 0x106aa070] ++
  [0x19a4c116, 0x1e376c08, 0x2748774c, 0x34b0bcb5, 0x391c0cb3, 0x4ed8aa4a, 0x5b9cca4f, 0x682e6ff3] ++
  [0x748f82ee, 0x78a5636f, 0x84c87814, 0x8cc70208, 0x90befffa, 0xa4506ceb, 0xbef9a3f7, 0xc67178f2]

def shaInit : List Nat :=
  [0x6a09e667, 0xbb67ae85, 0x3c6ef372, 0xa54ff53a, 0x510e527f, 0x9b05688c, 0x1f83d9ab, 0x5be0cd19]

def shaSmall0 (x : Nat) : Nat := (rotr32 x 7 ^^^ rotr32 x 18) ^^^ (x / 2 ^ 3)
def shaSmall1 (x : Nat) : Nat := (rotr32 x 17 ^^^ rotr32 x 19) ^^^ (x / 2 ^ 10)
def shaBig0 (x : Nat) : Nat := (rotr32 x 2 ^^^ rotr32 x 13) ^^^ rotr32 x 22
def shaBig1 (x : Nat) : Nat := (rotr32 x 6 ^^^ rotr32 x 11) ^^^ rotr32 x 25

/-- Extends the message schedule, held newest first, by one word. -/
def shaExtend (w : List Nat) : List Nat :=
  add32 (add32 (shaSmall1 (w.getD 1 0)) (w.getD 6 0)) (add32 (shaSmall0 (w.getD 14 0)) (w.getD 15 0)) :: w

/-- One round over the eight working variables. -/
def shaRound (h : List Nat) (kw : Nat) : List Nat :=
  match h with
  | [a, b, c, d, e, f, g, h] =>
    let t1 := add32 (add32 h (shaBig1 e)) (add32 ((e &&& f) ^^^ ((two32 - 1 - e) &&& g)) kw)
    let t2 := add32 (shaBig0 a) (((a &&& b) ^^^ (a &&& c)) ^^^ (b &&& c))
    [add32 t1 t2, a, b, c, add32 d t1, e, f, g]
  | h => h

/-- Compresses one block of 64 bytes. -/
def shaBlock (h : List Nat) (blk : List Byte) : List Nat :=
  let w0 := (List.range 16).map fun i => natBE ((blk.drop (4 * i)).take 4)
  let w := ((List.range 48).foldl (fun w _ => shaExtend w) w0.reverse).reverse
  let h' := (List.zipWith add32 shaK w).foldl shaRound h
  List.zipWith add32 h h'

/-- The padded message. -/
def shaPad (m : List Byte) : List Byte :=
  m ++ [0x80] ++ List.replicate ((119 - m.length % 64) % 64) 0 ++ natBytesBE 8 (8 * m.length)

def shaBlocks (n : Nat) (h : List Nat) (m : List Byte) : List Nat :=
  match n with
  | 0 => h
  | n + 1 => shaBlocks n (shaBlock h (m.take 64)) (m.drop 64)

/-- SHA-256: the 32 bytes as a number, most significant first. -/
def sha256 (m : List Byte) : Nat :=
  let p := shaPad m
  (shaBlocks (p.length / 64) shaInit p).foldl (fun n x => n * two32 + x) 0

/-! ### SHA-384 and HKDF of RFC 5869 (R361) -/

def two64 : Nat := 2 ^ 64

/-- Sum and rotation right of 64-bit numbers. -/
def add64 (a b : Nat) : Nat := (a + b) % two64
def rotr64 (a n : Nat) : Nat := (a / 2 ^ n + a * 2 ^ (64 - n)) % two64

def sha384K : List Nat :=
  [0x428a2f98d728ae22, 0x7137449123ef65cd, 0xb5c0fbcfec4d3b2f, 0xe9b5dba58189dbbc,
   0x3956c25bf348b538, 0x59f111f1b605d019, 0x923f82a4af194f9b, 0xab1c5ed5da6d8118] ++
  [0xd807aa98a3030242, 0x12835b0145706fbe, 0x243185be4ee4b28c, 0x550c7dc3d5ffb4e2,
   0x72be5d74f27b896f, 0x80deb1fe3b1696b1, 0x9bdc06a725c71235, 0xc19bf174cf692694] ++
  [0xe49b69c19ef14ad2, 0xefbe4786384f25e3, 0x0fc19dc68b8cd5b5, 0x240ca1cc77ac9c65,
   0x2de92c6f592b0275, 0x4a7484aa6ea6e483, 0x5cb0a9dcbd41fbd4, 0x76f988da831153b5] ++
  [0x983e5152ee66dfab, 0xa831c66d2db43210, 0xb00327c898fb213f, 0xbf597fc7beef0ee4,
   0xc6e00bf33da88fc2, 0xd5a79147930aa725, 0x06ca6351e003826f, 0x142929670a0e6e70] ++
  [0x27b70a8546d22ffc, 0x2e1b21385c26c926, 0x4d2c6dfc5ac42aed, 0x53380d139d95b3df,
   0x650a73548baf63de, 0x766a0abb3c77b2a8, 0x81c2c92e47edaee6, 0x92722c851482353b] ++
  [0xa2bfe8a14cf10364, 0xa81a664bbc423001, 0xc24b8b70d0f89791, 0xc76c51a30654be30,
   0xd192e819d6ef5218, 0xd69906245565a910, 0xf40e35855771202a, 0x106aa07032bbd1b8] ++
  [0x19a4c116b8d2d0c8, 0x1e376c085141ab53, 0x2748774cdf8eeb99, 0x34b0bcb5e19b48a8,
   0x391c0cb3c5c95a63, 0x4ed8aa4ae3418acb, 0x5b9cca4f7763e373, 0x682e6ff3d6b2b8a3] ++
  [0x748f82ee5defb2fc, 0x78a5636f43172f60, 0x84c87814a1f0ab72, 0x8cc702081a6439ec,
   0x90befffa23631e28, 0xa4506cebde82bde9, 0xbef9a3f7b2c67915, 0xc67178f2e372532b] ++
  [0xca273eceea26619c, 0xd186b8c721c0c207, 0xeada7dd6cde0eb1e, 0xf57d4f7fee6ed178,
   0x06f067aa72176fba, 0x0a637dc5a2c898a6, 0x113f9804bef90dae, 0x1b710b35131c471b] ++
  [0x28db77f523047d84, 0x32caab7b40c72493, 0x3c9ebe0a15c9bebc, 0x431d67c49c100d4c,
   0x4cc5d4becb3e42b6, 0x597f299cfc657e2a, 0x5fcb6fab3ad6faec, 0x6c44198c4a475817]

def sha384Init : List Nat :=
  [0xcbbb9d5dc1059ed8, 0x629a292a367cd507, 0x9159015a3070dd17, 0x152fecd8f70e5939,
   0x67332667ffc00b31, 0x8eb44a8768581511, 0xdb0c2e0d64f98fa7, 0x47b5481dbefa4fa4]

/-- Extends the message schedule, held newest first, by one word. -/
def sha384Extend (w : List Nat) : List Nat :=
  let x := w.getD 14 0
  let y := w.getD 1 0
  add64 (add64 ((rotr64 y 19 ^^^ rotr64 y 61) ^^^ (y / 2 ^ 6)) (w.getD 6 0))
    (add64 ((rotr64 x 1 ^^^ rotr64 x 8) ^^^ (x / 2 ^ 7)) (w.getD 15 0)) :: w

/-- One round over the eight working variables. -/
def sha384Round (h : List Nat) (kw : Nat) : List Nat :=
  match h with
  | [a, b, c, d, e, f, g, h] =>
    let t1 := add64 (add64 h ((rotr64 e 14 ^^^ rotr64 e 18) ^^^ rotr64 e 41)) (add64 ((e &&& f) ^^^ ((two64 - 1 - e) &&& g)) kw)
    let t2 := add64 ((rotr64 a 28 ^^^ rotr64 a 34) ^^^ rotr64 a 39) (((a &&& b) ^^^ (a &&& c)) ^^^ (b &&& c))
    [add64 t1 t2, a, b, c, add64 d t1, e, f, g]
  | h => h

/-- Compresses one block of 128 bytes. -/
def sha384Block (h : List Nat) (blk : List Byte) : List Nat :=
  let w0 := (List.range 16).map fun i => natBE ((blk.drop (8 * i)).take 8)
  let w := ((List.range 64).foldl (fun w _ => sha384Extend w) w0.reverse).reverse
  List.zipWith add64 h ((List.zipWith add64 sha384K w).foldl sha384Round h)

def sha384Blocks (n : Nat) (h : List Nat) (m : List Byte) : List Nat :=
  match n with
  | 0 => h
  | n + 1 => sha384Blocks n (sha384Block h (m.take 128)) (m.drop 128)

/-- SHA-384. -/
def sha384 (m : List Byte) : List Byte :=
  let p := m ++ [0x80] ++ List.replicate ((239 - m.length % 128) % 128) 0 ++ natBytesBE 16 (8 * m.length)
  ((sha384Blocks (p.length / 128) sha384Init p).take 6).flatMap fun x => natBytesBE 8 x

/-- HMAC-SHA-384 under a key of at most 128 bytes. -/
def hmac384 (key m : List Byte) : List Byte :=
  let pad := fun (x : Byte) => (key ++ List.replicate (128 - key.length) 0).map fun b => b ^^^ x
  sha384 (pad 0x5C ++ sha384 (pad 0x36 ++ m))

/-- 32 bytes of HKDF-SHA-384 from a secret and an info string, without salt. -/
def hkdf384 (secret info : List Byte) : List Byte := (hmac384 (hmac384 (List.replicate 48 0) secret) (info ++ [1])).take 32

/-- The wrapping key of KEY.KEK: the ECDH secret, and the info string "EWY192 KEK" with the index in one byte (R361). -/
def kekWrapping (secret index : Nat) : Nat :=
  natBE (hkdf384 (natBytesBE 48 secret) ([0x45, 0x57, 0x59, 0x31, 0x39, 0x32, 0x20, 0x4B, 0x45, 0x4B] ++ natBytesBE 1 index))

/-! ### AES-256 -/

/-- The S-box of FIPS 197 and its inverse: byte x of the number is the image of x. -/
def aesSbox : Nat :=
  0x16bb54b00f2d99416842e6bf0d89a18cdf2855cee9871e9b948ed9691198f8e19e1dc186b95735610ef6034866b53e708a8bbd4b1f74dde8c6b4a61c2e2578ba08ae7a65eaf4566ca94ed58d6d37c8e779e4959162acd3c25c2406490a3a32e0db0b5ede14b8ee4688902a22dc4f816073195d643d7ea7c41744975fec130ccdd2f3ff1021dab6bcf5389d928f40a351a89f3c507f02f94585334d43fbaaefd0cf584c4a39becb6a5bb1fc20ed00d153842fe329b3d63b52a05a6e1b1a2c830975b227ebe28012079a059618c323c7041531d871f1e5a534ccf73f362693fdb7c072a49cafa2d4adf04759fa7dc982ca76abd7fe2b670130c56f6bf27b777c63

def aesSboxInv : Nat :=
  0x7d0c2155631469e126d677ba7e042b17619953833cbbebc8b0f52aae4d3be0a0ef9cc9939f7ae52d0d4ab519a97f51605fec8027591012b131c7078833a8dd1ff45acd78fec0db9a2079d2c64b3e56fc1bbe18aa0e62b76f89c5291d711af1476edf751ce837f9e28535ade72274ac9673e6b4f0cecff297eadc674f4111913a6b8a130103bdafc1020f3fca8f1e2cd00645b3b80558e4f70ad3bc8c00abd890849d8da75746155edab9edfd5048706c92b6655dcc5ca4d41698688664f6f87225d18b6d49a25b76b224d92866a12e084ec3fa420b954cee3d23c2a632947b54cbe9dec444438e3487ff2f9b8239e37cfbd7f3819ea340bf38a53630d56a0952

def aesSub (x : Nat) : Nat := aesSbox / 2 ^ (8 * x) % 256
def aesSubInv (x : Nat) : Nat := aesSboxInv / 2 ^ (8 * x) % 256

/-- Byte i of a block, counted from the most significant. -/
def aesByte (s i : Nat) : Nat := s / 2 ^ (8 * (15 - i)) % 256

/-- The block whose byte i is `f i`. -/
def aesBlock (f : Nat → Nat) : Nat := (List.range 16).foldl (fun n i => n * 256 + f i) 0

/-- The four bytes of a word of the key schedule through the S-box. -/
def aesSubWord (w : Nat) : Nat :=
  (aesSub (w / 2 ^ 24) * 2 ^ 24 + aesSub (w / 2 ^ 16 % 256) * 2 ^ 16) + (aesSub (w / 2 ^ 8 % 256) * 2 ^ 8 + aesSub (w % 256))

/-- Word i of the key schedule, put before the words so far, newest first. -/
def aesExpandStep (w : List Nat) (i : Nat) : List Nat :=
  let prev := w.getD 0 0
  let t :=
    if i % 8 = 0 then aesSubWord (prev * 2 ^ 8 % two32 + prev / 2 ^ 24) ^^^ 2 ^ (23 + i / 8)
    else if i % 8 = 4 then aesSubWord prev
    else prev
  (w.getD 7 0 ^^^ t) :: w

/-- The 60 words of the key schedule of a 256-bit key as one number, most significant first. -/
def aesSchedule (key : Nat) : Nat :=
  let w0 := (List.range 8).map fun i => key / 2 ^ (32 * i) % two32
  ((List.range 52).foldl (fun w i => aesExpandStep w (i + 8)) w0).foldr (fun x n => n * two32 + x) 0

/-- Round key r of a schedule. -/
def aesRoundKey (ks r : Nat) : Nat := ks / 2 ^ (128 * (14 - r)) % 2 ^ 128

def aesSubAll (s : Nat) : Nat := aesBlock fun i => aesSub (aesByte s i)
def aesSubInvAll (s : Nat) : Nat := aesBlock fun i => aesSubInv (aesByte s i)
/-- Row r of a block, whose columns stand from the most significant word down. -/
def aesRow (s r : Nat) : Nat := s &&& 0xFF000000FF000000FF000000FF000000 / 2 ^ (8 * r)

/-- Rotation left of a 128-bit number. -/
def aesRotate (s n : Nat) : Nat := s * 2 ^ n % 2 ^ 128 + s / 2 ^ (128 - n)

/-- Moves row r left by a columns where a is `f r`. -/
def aesShiftBy (f : Nat → Nat) (s : Nat) : Nat :=
  (aesRow s 0 ^^^ aesRotate (aesRow s 1) (32 * f 1)) ^^^ (aesRotate (aesRow s 2) (32 * f 2) ^^^ aesRotate (aesRow s 3) (32 * f 3))

def aesShift (s : Nat) : Nat := aesShiftBy (fun r => r) s
def aesShiftInv (s : Nat) : Nat := aesShiftBy (fun r => 4 - r) s

/-- Each byte of a block doubled in the field of AES. -/
def aesDouble (s : Nat) : Nat :=
  (s &&& 0x7F7F7F7F7F7F7F7F7F7F7F7F7F7F7F7F) * 2 ^^^ (s / 128 &&& 0x01010101010101010101010101010101) * 0x1B

/-- Each column moved up by one byte. -/
def aesUp (s : Nat) : Nat := (s &&& 0x00FFFFFF00FFFFFF00FFFFFF00FFFFFF) * 2 ^ 8 ^^^ aesRow s 0 / 2 ^ 24

/-- Each column multiplied by the circulant of the products a, b, c, d. -/
def aesCirculant (a b c d : Nat) : Nat := a ^^^ aesUp (b ^^^ aesUp (c ^^^ aesUp d))

/-- MixColumns: the circulant of 2, 3, 1, 1. -/
def aesMix (s : Nat) : Nat := aesCirculant (aesDouble s) (aesDouble s ^^^ s) s s

/-- Its inverse: the circulant of 14, 11, 13, 9. -/
def aesMixInv (s : Nat) : Nat :=
  let s2 := aesDouble s
  let s4 := aesDouble s2
  let s8 := aesDouble s4
  aesCirculant (s2 ^^^ s4 ^^^ s8) (s ^^^ s2 ^^^ s8) (s ^^^ s4 ^^^ s8) (s ^^^ s8)

/-- AES-256 of one block under a schedule, blocks as 16-byte numbers. -/
def aesEncryptWith (ks block : Nat) : Nat :=
  let s := (List.range 13).foldl (fun s r => aesMix (aesShift (aesSubAll s)) ^^^ aesRoundKey ks (r + 1))
    (block ^^^ aesRoundKey ks 0)
  aesShift (aesSubAll s) ^^^ aesRoundKey ks 14

/-- The inverse of AES-256 of one block under a schedule. -/
def aesDecryptWith (ks block : Nat) : Nat :=
  let s := (List.range 13).foldl (fun s r => aesSubInvAll (aesShiftInv (aesMixInv (s ^^^ aesRoundKey ks (13 - r)))))
    (aesSubInvAll (aesShiftInv (block ^^^ aesRoundKey ks 14)))
  s ^^^ aesRoundKey ks 0

/-- AES-256 of one block. -/
def aesEncrypt (key block : Nat) : Nat := aesEncryptWith (aesSchedule key) block

/-! ### Key unwrap of RFC 5649 -/

/-- One step of the unwrap of n semiblocks: number t from 6 n down to 1. -/
def unwrapStep (ks n : Nat) (ar : Nat × List Nat) (t : Nat) : Nat × List Nat :=
  let i := (t - 1) % n
  let b := aesDecryptWith ks ((ar.1 ^^^ t) * 2 ^ 64 + ar.2.getD i 0)
  (b / 2 ^ 64, ar.2.set i (b % 2 ^ 64))

/-- Unwraps semiblocks (the first is the integrity block): the plaintext of `bytes` bytes as a number, or none when the
integrity check, the length or the padding fails. -/
def unwrapPad (kek : Nat) (c : List Word) (bytes : Nat) : Option Nat :=
  let r := (c.drop 1).map (·.toNat)
  let n := r.length
  let ar := ((List.range (6 * n)).map fun k => 6 * n - k).foldl (unwrapStep (aesSchedule kek) n) ((c.headD 0).toNat, r)
  let plain := ar.2.foldl (fun m w => m * 2 ^ 64 + w) 0
  let pad := 8 * n - bytes
  if ar.1 = 0xA65959A6 * two32 + bytes ∧ bytes ≤ 8 * n ∧ pad < 8 ∧ plain % 256 ^ pad = 0 then some (plain / 256 ^ pad) else none

/-! ### Key unwrap of RFC 3394 -/

/-- Unwraps semiblocks (the first is the integrity block): the plaintext as a number, or none when the integrity check fails. -/
def unwrapPlain (kek : Nat) (c : List Word) : Option Nat :=
  let r := (c.drop 1).map (·.toNat)
  let n := r.length
  let ar := ((List.range (6 * n)).map fun k => 6 * n - k).foldl (unwrapStep (aesSchedule kek) n) ((c.headD 0).toNat, r)
  if ar.1 = 0xA6A6A6A6A6A6A6A6 then some (ar.2.foldl (fun m w => m * 2 ^ 64 + w) 0) else none

/-! ### AES-256 in counter mode and in GCM -/

/-- The blocks of some bytes, the last filled with zeros. -/
def blocks16 (bs : List Byte) : List Nat :=
  (List.range (ceilDiv bs.length 16)).map fun i =>
    let b := (bs.drop (16 * i)).take 16
    natBE b * 256 ^ (16 - b.length)

/-- The first n bytes of the key stream that starts at a counter block. -/
def aesStream (ks block n : Nat) : List Byte :=
  ((List.range (ceilDiv n 16)).flatMap fun i => natBytesBE 16 (aesEncryptWith ks (block + i))).take n

/-- Product in the field of GHASH. -/
def ghashMul (x y : Nat) : Nat :=
  ((List.range 128).foldl (fun (a : Nat × Nat) i =>
    (if x / 2 ^ (127 - i) % 2 = 1 then a.1 ^^^ a.2 else a.1, if a.2 % 2 = 1 then a.2 / 2 ^^^ 0xE1 * 2 ^ 120 else a.2 / 2)) (0, y)).1

/-- GHASH of the associated data and a ciphertext. -/
def ghash (h : Nat) (aad c : List Byte) : Nat :=
  (blocks16 aad ++ blocks16 c ++ [8 * aad.length * 2 ^ 64 + 8 * c.length]).foldl (fun y b => ghashMul (y ^^^ b) h) 0

/-- The authentication tag over associated data and a ciphertext, for a 12-byte IV. -/
def gcmTag (key iv : Nat) (aad c : List Byte) : List Byte :=
  let ks := aesSchedule key
  natBytesBE 16 (ghash (aesEncryptWith ks 0) aad c ^^^ aesEncryptWith ks (iv * two32 + 1))

/-- Encryption and decryption: the counter starts at 2. -/
def gcmCrypt (key iv : Nat) (bs : List Byte) : List Byte :=
  List.zipWith (· ^^^ ·) bs (aesStream (aesSchedule key) (iv * two32 + 2) bs.length)

/-! ### SRTP and SRTCP of RFC 3711 with AEAD_AES_256_GCM of RFC 7714 (R301, R303, R360) -/

/-- n bytes derived from a master key and its 12-byte salt for a label, at key derivation rate 0. -/
def srtpDerive (material label n : Nat) : Nat :=
  natBE (aesStream (aesSchedule (material / 2 ^ 96)) ((material % 2 ^ 96 * 2 ^ 16 ^^^ label * 2 ^ 48) * 2 ^ 16) n)

/-- Session key and salt: labels 0 and 2 for SRTP, 3 and 5 for SRTCP. -/
def sessionKey (material : Nat) (rtcp : Bool) : Nat := srtpDerive material (if rtcp then 3 else 0) 32
def sessionSalt (material : Nat) (rtcp : Bool) : Nat := srtpDerive material (if rtcp then 5 else 2) 12

/-- The IV of a packet. -/
def srtpIv (material : Nat) (rtcp : Bool) (ssrc index : Nat) : Nat := ssrc * 2 ^ 48 + index % 2 ^ 48 ^^^ sessionSalt material rtcp

/-- The SRTP packet of an RTP packet: its header, its payload encrypted, the tag. -/
def srtpSeal (material ssrc index : Nat) (header payload : List Byte) : List Byte :=
  let iv := srtpIv material false ssrc index
  let k := sessionKey material false
  let c := gcmCrypt k iv payload
  header ++ c ++ gcmTag k iv header c

/-- The payload of an SRTP packet's part after its header; none: it does not authenticate. -/
def srtpOpen (material ssrc index : Nat) (header body : List Byte) : Option (List Byte) :=
  let iv := srtpIv material false ssrc index
  let k := sessionKey material false
  let c := body.take (body.length - 16)
  if 16 ≤ body.length ∧ gcmTag k iv header c = body.drop (body.length - 16) then some (gcmCrypt k iv c) else none

/-- The SRTCP packet of a compound RTCP packet, encrypted. -/
def srtcpSeal (material index : Nat) (bs : List Byte) : List Byte :=
  let iv := srtpIv material true (natBE ((bs.drop 4).take 4)) index
  let k := sessionKey material true
  let word := natBytesBE 4 (2 ^ 31 + index % 2 ^ 31)
  let c := gcmCrypt k iv (bs.drop 8)
  bs.take 8 ++ c ++ gcmTag k iv (bs.take 8 ++ word) c ++ word

/-- The SRTCP index of a packet, and whether it is encrypted. -/
def srtcpWord (bs : List Byte) : Nat := natBE (bs.drop (bs.length - 4))

/-- The compound RTCP packet of an SRTCP packet; none: it does not authenticate. -/
def srtcpOpen (material : Nat) (bs : List Byte) : Option (List Byte) :=
  let w := srtcpWord bs
  let iv := srtpIv material true (natBE ((bs.drop 4).take 4)) (w % 2 ^ 31)
  let k := sessionKey material true
  let tail := natBytesBE 4 w
  let n := bs.length - 20
  let tag := (bs.drop n).take 16
  if bs.length < 28 then none
  else if 2 ^ 31 ≤ w then
    let c := (bs.drop 8).take (n - 8)
    if gcmTag k iv (bs.take 8 ++ tail) c = tag then some (bs.take 8 ++ gcmCrypt k iv c) else none
  else if gcmTag k iv (bs.take n ++ tail) [] = tag then some (bs.take n) else none

/-! ### Checks over bytes -/

/-- One bit of a reflected CRC with a polynomial. -/
def crcBit (poly c : Nat) : Nat := if c % 2 = 1 then (c / 2) ^^^ poly else c / 2

/-- A reflected CRC of 32 bits over bytes. -/
def crc32 (poly : Nat) (bs : List Byte) : Nat :=
  (bs.foldl (fun c b => (List.range 8).foldl (fun c _ => crcBit poly c) (c ^^^ b.toNat)) (two32 - 1)) ^^^ (two32 - 1)

/-- CRC-32C of RFC 3720 over bytes (R490). -/
def crc32c (bs : List Byte) : Nat := crc32 0x82F63B78 bs

/-- The frame check sequence of IEEE 802.3, as it stands at the end of a frame. -/
def fcs (bs : List Byte) : List Byte := (natBytesBE 4 (crc32 0xEDB88320 bs)).reverse

/-- Sum of the 16-bit words of some bytes, the last filled with a zero. -/
def wordSum (bs : List Byte) : Nat :=
  (List.range (ceilDiv bs.length 2)).foldl (fun n i => n + 256 * (bs.getD (2 * i) 0).toNat + (bs.getD (2 * i + 1) 0).toNat) 0

/-- A sum's carries folded in. -/
def foldSum (n : Nat) : Nat := let m := n / 65536 + n % 65536; m / 65536 + m % 65536

/-- The checksum of IPv4, IPv6 and UDP. -/
def checksum (bs : List Byte) : Nat := 65535 - foldSum (foldSum (wordSum bs))

end Sys2Proof.Machine
end

