-- ==== Sys2Proof/Machine/Regs.lean ====
section
/-! DEFINITION. The BAR0 map (R539, R549): where each register lies, its reset value, which of its fields may be
written and how, and the limits the chapters state for its fields. -/

namespace Sys2Proof.Machine

/-! ### Addresses -/

def rGlbId : Nat := 0x0
def rGlbScratch : Nat := 0x8
def rGlbNarrow : Nat := 0x10
def rGlbCntClr : Nat := 0x18
def rGuideStatus : Nat := 0x100
def rSecLocks : Nat := 0x200
def rSecLockedWrites : Nat := 0x208
def rSecCntClr : Nat := 0x210
def rBootStatus : Nat := 0x300
def rBootImage : Nat := 0x308
def rKeyPolicy (r : Nat) : Nat := 0x400 + 8 * r
def rPcieCtrl : Nat := 0x500
def rPcieBar2Offset : Nat := 0x508
def rPcieLink : Nat := 0x510
def rPcieLateCpl : Nat := 0x518
def rCfgCommit : Nat := 0x600
def rCfgStatus : Nat := 0x608
def rCfgGroup (g : Nat) : Nat := 0x640 + 8 * g
def rFleetStatus : Nat := 0x700
def rFleetDigest (k : Nat) : Nat := 0x708 + 8 * k
def rFleetActTime : Nat := 0x728

/-- Register at an offset of the block of Gallery g (R106). -/
def rGal (g off : Nat) : Nat := 0x100000 + g * 0x10000 + off
def oGalStatus : Nat := 0x0
def oGalRetire : Nat := 0x8
def oGalRetireTime : Nat := 0x10
def oFifoCtrl : Nat := 0x100
def oFifoStatus : Nat := 0x108
def oFifoDrops : Nat := 0x110
def oFifoTmoCnt : Nat := 0x118
def oFifoBands : Nat := 0x120
def oUcCtrl : Nat := 0x200
def oUcPatchId : Nat := 0x208
def oUcRestarts : Nat := 0x210
def oSramCe : Nat := 0x600
def oSramUe : Nat := 0x608
def oGalCntClr : Nat := 0x700
def oHintStale (slot : Nat) : Nat := 0x800 + 0x40 * slot
def oHintBad (slot : Nat) : Nat := 0x808 + 0x40 * slot
def oSbCap (slot : Nat) : Nat := 0x810 + 0x40 * slot
def oSbCoded (slot : Nat) : Nat := 0x818 + 0x40 * slot
def oEchoVerdicts : Nat := 0xA00
def oEchoFails : Nat := 0xA08
def oEchoWindow : Nat := 0xA10
def oEchoIngestSb : Nat := 0xA18

/-- Register at an offset of the Lantern page of stream n (R40). -/
def rLan (n off : Nat) : Nat := 0x400000 + n * 0x1000 + off
def oLanToken : Nat := 0x0
def oLanRows : Nat := 0x8
def oLanCtrl : Nat := 0x10
def oLanSync : Nat := 0x18
def oLanStall : Nat := 0x20
def oLanPhase : Nat := 0x28
def oLanFramePtp : Nat := 0x30
def oLanLastPtp : Nat := 0x38
def oLanTokens : Nat := 0x40
def oLanIgnored : Nat := 0x48
def oLanSkipped : Nat := 0x50
def oLanLate : Nat := 0x58
def oLanRepeat : Nat := 0x60
def oLanLatHwm : Nat := 0x68
def oLanCntClr : Nat := 0x70

def rMouthCtrl : Nat := 0x500000
/-- Port registers: +0x00 CFG, +0x08 MAC, +0x10 IPV4, +0x18 IPV6_HI, +0x20 IPV6_LO, +0x28 LEARN. -/
def rPort (p off : Nat) : Nat := 0x500100 + 0x40 * p + off
def rClassQmax (c : Nat) : Nat := 0x500200 + 0x20 * c
/-- RED profile of class c and colour 0 G, 1 Y, 2 R. -/
def rRed (c col : Nat) : Nat := 0x500208 + 0x20 * c + 8 * col
def rQHwm (c : Nat) : Nat := 0x500300 + 8 * c
def rPtpStatus : Nat := 0x500400
def rPtpOffset : Nat := 0x500408
def rPtpGm : Nat := 0x500410
def rPpsIn : Nat := 0x500418
/-- Ring k of Mouth: +0 BASE, +8 SIZE, +0x10 PROD, +0x18 CONS. -/
def rMouthRing (k off : Nat) : Nat := 0x500500 + 0x20 * k + off
def rAqDrops : Nat := 0x500600
def rPortPunts (p : Nat) : Nat := 0x500700 + 0x10 * p
def rPortEvicts (p : Nat) : Nat := 0x500708 + 0x10 * p
/-- Mouth stream page. -/
def rMs (n off : Nat) : Nat := 0x510000 + n * 0x100 + off
def oMsCfg : Nat := 0x0
def oMsRtp : Nat := 0x8
def oMsReseq : Nat := 0x10
def oMsBands : Nat := 0x20
def oMsPackets : Nat := 0x28
def oMsKills : Nat := 0x30
def oMsGaps : Nat := 0x38
def oMsStale : Nat := 0x40
def oMsNorec : Nat := 0x48
def rRecipCmd : Nat := 0x520000
def rRecipStatus : Nat := 0x520008
def rRecipData (w : Nat) : Nat := 0x520100 + 8 * w

def rSumpCtrl : Nat := 0x600000
def rPoolCfg (p : Nat) : Nat := 0x600100 + 0x20 * p
def rPoolStatus (p : Nat) : Nat := 0x600108 + 0x20 * p
def rPoolFallbacks (p : Nat) : Nat := 0x600110 + 0x20 * p
def rClassRsv (c : Nat) : Nat := 0x600200 + 8 * c
def rLeaks : Nat := 0x600300
def rExhausted : Nat := 0x600308
def rLeakAddr : Nat := 0x600310

def rShaftCtrl : Nat := 0x640000
/-- Channel page of Shaft (R429). -/
def rCh (c off : Nat) : Nat := 0x650000 + c * 0x100 + off
def oChPost : Nat := 0x0
def oChCtrl : Nat := 0x8
def oChStatus : Nat := 0x10
def oChFill : Nat := 0x18
def oChBytes : Nat := 0x20
def oChDescs : Nat := 0x28
/-- Error counter k of a channel: 0 TAIL_ERR, 1 LIMIT, 2 TIMEOUT, 3 HOST_ERR, 4 DESC_ERR, 5 STALE, 6 OVERRUN, 7 DENIED. -/
def oChErr (k : Nat) : Nat := 0x30 + 8 * k

def rMemCtrl : Nat := 0x680000
def rMemRegion (r : Nat) : Nat := 0x680100 + 8 * r
/-- Age limit of class 1 to 3. -/
def rClassAge (k : Nat) : Nat := 0x680200 + 8 * k
def rMc (m off : Nat) : Nat := 0x690000 + m * 0x100 + off
def oMcStatus : Nat := 0x0
def oMcCe : Nat := 0x8
def oMcUe : Nat := 0x10
def oMcNrr : Nat := 0x18
def oMcScrubbed : Nat := 0x20
def oMcLastErr : Nat := 0x28

def rSrcCfg (s : Nat) : Nat := 0x700000 + 8 * s
/-- Event-queue page of function f (R471). -/
def rEq (f off : Nat) : Nat := 0x708000 + f * 0x400 + off
def oEqBase : Nat := 0x0
def oEqSize : Nat := 0x8
def oEqHead : Nat := 0x10
def oEqTail : Nat := 0x18
def oEqCtrl : Nat := 0x20
def oEqStatus : Nat := 0x28
def oEqLost : Nat := 0x30
def oEqCpl : Nat := 0x38
def oEqCntClr : Nat := 0x40
def oEqSpurious : Nat := 0x48
def oEqFastOvf : Nat := 0x50
def oFastPend : Nat := 0x80
def oFastRec (k : Nat) : Nat := 0x100 + 16 * k

def rFltStatus : Nat := 0x740000
def rFltCtrl : Nat := 0x740008
def rFltAlert : Nat := 0x740010
def rFltHeartbeat : Nat := 0x740018
/-- Capture of class k: +0 HDR, +8 ADDR, +0x10 TIME, +0x18 RASTER (R494). -/
def rCap (k off : Nat) : Nat := 0x740100 + 0x20 * k + off
def rFltCount (k : Nat) : Nat := 0x740200 + 8 * k
def rFltCntClr : Nat := 0x740220
def rRecStatus : Nat := 0x740300
def rRecDropped : Nat := 0x740308

def rAccWord (t w : Nat) : Nat := 0x780000 + t * 0x40 + 8 * w
def rWinAssign (k : Nat) : Nat := 0x7A0000 + 8 * k
def rAccDenied : Nat := 0x7B0000
def rAccLastDeny : Nat := 0x7B0008
def rAccLastAddr : Nat := 0x7B0010
def rAccCntClr : Nat := 0x7B0018

def rPwrCtrl : Nat := 0x7C0000
def rPwrStatus : Nat := 0x7C0008
def rPwrWarns : Nat := 0x7C0010
def rPwrCntClr : Nat := 0x7C0018
def rTelTick : Nat := 0x7C0100
def rTelTickPtp : Nat := 0x7C0108
def rTel (k : Nat) : Nat := 0x7C0200 + 8 * k
def rIndAddr : Nat := 0x7D0000
def rIndData : Nat := 0x7D0008
def rIndStatus : Nat := 0x7D0010
/-- Calibration block b: +0 STATUS, +8 COUNT, +0x10 TIME, +0x18 FAILS (R516). -/
def rCal (b off : Nat) : Nat := 0x7E0000 + 0x20 * b + off
def rCalCntClr : Nat := 0x7E1000

/-- Ring page of function f (R377). -/
def rRing (f off : Nat) : Nat := 0x800000 + f * 0x1000 + off
def oSqBase : Nat := 0x0
def oSqSize : Nat := 0x8
def oSqTail : Nat := 0x10
def oSqHead : Nat := 0x18
def oCqBase : Nat := 0x20
def oCqSize : Nat := 0x28
def oCqHead : Nat := 0x30
def oCqTail : Nat := 0x38
def oRingCtrl : Nat := 0x40
def oRingStatus : Nat := 0x48
def oRingTaken : Nat := 0x50

/-! ### Register descriptions -/

/-- The locks of R548. -/
inductive LockKind where
  | none
  | memMap
  | access
  | keyPolicy
  | patch
deriving DecidableEq, Repr

/-- What a register is: reset value, bits that a write sets (RW, and RL while unlocked), bits under a lock, bits a read
clears, bits a written 1 clears, whether it is write only, whether it is shadowed (R9, R549). -/
structure RegInfo where
  reset : Word := 0
  rw : Word := 0
  rl : Word := 0
  lock : LockKind := .none
  rc : Word := 0
  w1c : Word := 0
  wo : Bool := false
  shadow : Bool := false
deriving DecidableEq, Repr

/-- A register whose fields are read only; counters are of this kind. -/
def roReg (reset : Nat := 0) : Option RegInfo := some { reset := word reset }

/-- A register that is written but reads as zero: doorbells and counter clear registers. -/
def woReg : Option RegInfo := some { wo := true }

/-- A plain read-write register. -/
def rwReg (rw : Word) (reset : Nat := 0) : Option RegInfo := some { rw := rw, reset := word reset }

/-- A shadowed register. -/
def shReg (rw : Word) (reset : Nat := 0) : Option RegInfo := some { rw := rw, reset := word reset, shadow := true }

def allOnes : Word := ones 63 0

/-- Registers of the global block. -/
def glbInfo (o : Nat) : Option RegInfo :=
  if o = 0x0 then roReg 0x0192B10100000000
  else if o = 0x8 then rwReg allOnes
  else if o = 0x10 then roReg
  else if o = 0x18 then woReg
  else if o = 0x100 then roReg
  else if o = 0x200 then rwReg (ones 63 61)
  else if o = 0x208 then roReg
  else if o = 0x210 then woReg
  else if o = 0x300 then roReg
  else if o = 0x308 then woReg
  else if 0x400 ≤ o ∧ o ≤ 0x478 then some { rl := ones 63 39 ||| ones 31 0, lock := .keyPolicy }
  else if o = 0x500 then rwReg (ones 31 0) 1000
  else if o = 0x508 then rwReg (ones 35 30)
  else if o = 0x510 then roReg
  else if o = 0x518 then roReg
  else if o = 0x600 then woReg
  else if o = 0x608 then some { rc := ones 63 63 }
  else if 0x640 ≤ o ∧ o ≤ 0x6B8 then rwReg (ones 63 62 ||| ones 55 48 ||| ones 36 0)
  else if o = 0x700 then roReg
  else if 0x708 ≤ o ∧ o ≤ 0x720 then roReg
  else if o = 0x728 then roReg (2 ^ 63)
  else none

/-- Registers of a Gallery block (R106, R226, R257). -/
def galInfo (o : Nat) : Option RegInfo :=
  if o = 0x0 then roReg
  else if o = 0x8 then roReg (0xFF * 2 ^ 48)
  else if o = 0x10 then roReg (2 ^ 63)
  else if o = 0x100 then rwReg (ones 31 0) 200
  else if o = 0x108 then roReg (2 ^ 63)
  else if 0x110 ≤ o ∧ o ≤ 0x120 then roReg
  else if o = 0x200 then some { reset := word 8192, rw := ones 62 62, rl := ones 63 63 ||| ones 31 0, lock := .patch }
  else if o = 0x208 ∨ o = 0x210 then roReg
  else if 0x400 ≤ o ∧ o ≤ 0x4F8 then some { rl := ones 63 63 ||| ones 45 32 ||| ones 9 0, lock := .patch }
  else if o = 0x600 ∨ o = 0x608 then roReg
  else if o = 0x700 then woReg
  else if 0x800 ≤ o ∧ o ≤ 0x9DF ∧ o % 0x40 ≤ 0x18 then roReg
  else if 0xA00 ≤ o ∧ o ≤ 0xA18 then roReg
  else none

/-- Registers of a Lantern page (R40 to R42). -/
def lanInfo (o : Nat) : Option RegInfo :=
  if o = 0x0 then woReg
  else if o = 0x8 then roReg
  else if o = 0x10 then shReg (ones 49 44 ||| ones 31 0) (2 ^ 44 + 500 * 2 ^ 16)
  else if o = 0x18 then shReg (ones 63 32 ||| ones 15 0) 64
  else if o = 0x20 then shReg (ones 31 0) 50000
  else if o = 0x28 then roReg
  else if o = 0x30 ∨ o = 0x38 then roReg (2 ^ 63)
  else if 0x40 ≤ o ∧ o ≤ 0x60 then roReg
  else if o = 0x68 then some { rc := ones 31 0 }
  else if o = 0x70 then woReg
  else none

/-- Device, port and class registers of Mouth (R308, R333, R342). -/
def mouthInfo (o : Nat) : Option RegInfo :=
  if o = 0x0 then shReg (ones 63 45 ||| ones 39 32) (0xACE1 * 2 ^ 48 + 2 ^ 46 + 2 ^ 45)
  else if 0x100 ≤ o ∧ o ≤ 0x17F then
    if o % 0x40 = 0x0 then shReg (ones 63 34 ||| ones 31 5) (1500 * 2 ^ 50 + 34 * 2 ^ 26 + 36 * 2 ^ 20 + 38 * 2 ^ 14 + 64 * 2 ^ 6 + 2 ^ 5)
    else if o % 0x40 = 0x8 then shReg (ones 47 0)
    else if o % 0x40 = 0x10 then shReg (ones 31 0)
    else if o % 0x40 = 0x18 ∨ o % 0x40 = 0x20 then shReg allOnes
    else if o % 0x40 = 0x28 then shReg (ones 63 62 ||| ones 31 0) (2 ^ 63 + 30000)
    else none
  else if 0x200 ≤ o ∧ o ≤ 0x27F then
    if o % 0x20 = 0x0 then shReg (ones 31 0) 524288
    else if o % 0x20 = 0x8 then shReg (ones 63 56 ||| ones 47 0) (8192 * 2 ^ 24 + 4096)
    else if o % 0x20 = 0x10 then shReg (ones 63 56 ||| ones 47 0) (64 * 2 ^ 56 + 4096 * 2 ^ 24 + 2048)
    else shReg (ones 63 56 ||| ones 47 0) (128 * 2 ^ 56 + 1024 * 2 ^ 24 + 512)
  else if 0x300 ≤ o ∧ o ≤ 0x318 then some { rc := ones 31 0 }
  else if 0x400 ≤ o ∧ o ≤ 0x418 then roReg
  else if 0x500 ≤ o ∧ o ≤ 0x55F then
    if o % 0x20 = 0x0 then rwReg allOnes
    else if o % 0x20 = 0x8 then rwReg (ones 31 0)
    else if o % 0x20 = 0x10 then (if o < 0x540 then roReg else rwReg (ones 31 0))
    else if o < 0x540 then rwReg (ones 31 0) else roReg
  else if o = 0x600 then roReg
  else if 0x700 ≤ o ∧ o ≤ 0x718 then roReg
  else if o = 0x720 then woReg
  else none

/-- Registers of a Mouth stream page (R308). -/
def msInfo (o : Nat) : Option RegInfo :=
  if o = 0x0 then shReg (ones 63 45 ||| ones 31 16) (2 ^ 63 + 2 ^ 62 + 5 * 2 ^ 58 + 6 * 2 ^ 54 + 96 * 2 ^ 45)
  else if o = 0x8 then shReg allOnes
  else if o = 0x10 then roReg
  else if 0x20 ≤ o ∧ o ≤ 0x48 then roReg
  else if o = 0x50 then woReg
  else none

/-- The recipient command register and window (R319). -/
def recipInfo (o : Nat) : Option RegInfo :=
  if o = 0x0 then woReg
  else if o = 0x8 then some { rc := ones 62 62 }
  else if 0x100 ≤ o ∧ o ≤ 0x1F8 then rwReg allOnes
  else none

/-- Default SHARE, STREAM_RSV and free buffers of the pools at 512 MiB (R277, R309). -/
def poolShare (p : Nat) : Nat := [16, 8, 32, 4, 4].getD p 0
def poolRsv (p : Nat) : Nat := [32, 0, 64, 0, 0].getD p 0
def poolBufs (p : Nat) : Nat := [524288, 65536, 65536, 2048, 512].getD p 0
def poolBytes (p : Nat) : Nat := 256 * 4 ^ p

/-- Registers of Sump (R309). -/
def sumpInfo (o : Nat) : Option RegInfo :=
  if o = 0x0 then shReg (ones 63 50) (512 * 2 ^ 51 + 2 ^ 50)
  else if 0x100 ≤ o ∧ o ≤ 0x19F then
    if o % 0x20 = 0x0 then
      shReg (ones 63 56 ||| ones 47 0) (poolShare ((o - 0x100) / 0x20) * 2 ^ 56 + poolRsv ((o - 0x100) / 0x20) * 2 ^ 32)
    else if o % 0x20 = 0x8 then
      some { reset := word (poolBufs ((o - 0x100) / 0x20) * (2 ^ 32 + 1)), rc := ones 31 0 }
    else if o % 0x20 = 0x10 then roReg
    else none
  else if 0x200 ≤ o ∧ o ≤ 0x218 then rwReg (ones 31 0) 16384
  else if 0x300 ≤ o ∧ o ≤ 0x310 then roReg
  else if o = 0x318 then woReg
  else none

/-- Registers of a Shaft channel page (R429). -/
def chInfo (o : Nat) : Option RegInfo :=
  if o = 0x0 then woReg
  else if o = 0x8 then rwReg allOnes (1024 * 2 ^ 48)
  else if 0x10 ≤ o ∧ o ≤ 0x68 then roReg
  else if o = 0x70 then woReg
  else none

/-- Registers of the memory controller (R456). -/
def memInfo (o : Nat) : Option RegInfo :=
  if o = 0x0 then some { reset := word (24 * 2 ^ 48 + 2048 * 2 ^ 32 + 1000), rw := ones 55 0, rl := ones 63 62, lock := .memMap, shadow := true }
  else if 0x100 ≤ o ∧ o ≤ 0x128 then some { rl := ones 63 63 ||| ones 55 48 ||| ones 39 32, lock := .memMap, shadow := true }
  else if o = 0x130 then roReg (2 ^ 63 + 238 * 2 ^ 48 + 239 * 2 ^ 32)
  else if o = 0x208 then shReg (ones 31 0) 2000
  else if o = 0x210 then shReg (ones 31 0) 4000
  else if o = 0x218 then shReg (ones 31 0) 20000
  else none

/-- Registers of a memory channel page (R456). -/
def mcInfo (o : Nat) : Option RegInfo :=
  if o ≤ 0x28 then roReg else if o = 0x30 then woReg else none

/-- The state sources of R462 and R518. -/
def isStateSource (s : Nat) : Bool :=
  s == 1104 || s == 1120 || s == 1169 || s == 1170 || s == 1171 || (1216 ≤ s && s ≤ 1220) || s == 1248 || s == 1249 || s == 1251

/-- Registers of an event-queue page (R471). -/
def eqInfo (o : Nat) : Option RegInfo :=
  if o = 0x0 then rwReg allOnes
  else if o = 0x8 then rwReg (ones 16 0)
  else if o = 0x10 then rwReg (ones 15 0)
  else if o = 0x18 then roReg (2 ^ 63)
  else if o = 0x20 then rwReg (ones 63 63 ||| ones 47 32 ||| ones 15 0) (2 ^ 32 + 1)
  else if o = 0x28 ∨ o = 0x30 then roReg
  else if o = 0x38 ∨ o = 0x40 then woReg
  else if o = 0x48 ∨ o = 0x50 then roReg
  else if o = 0x80 then some { w1c := ones 15 0 }
  else if 0x100 ≤ o ∧ o ≤ 0x1F8 then roReg
  else none

/-- Registers of the faults block (R494). -/
def fltInfo (o : Nat) : Option RegInfo :=
  if o = 0x0 then some { reset := word (2 ^ 60), rc := ones 55 52 }
  else if o = 0x8 then rwReg (ones 63 61)
  else if o = 0x10 then rwReg (ones 62 59) (2 ^ 62 + 2 ^ 61 + 2 ^ 60 + 2 ^ 59)
  else if o = 0x18 then woReg
  else if 0x100 ≤ o ∧ o ≤ 0x178 then
    if o % 0x20 = 0x0 then some { w1c := ones 63 63 }
    else if o % 0x20 = 0x10 then roReg (2 ^ 63) else roReg
  else if 0x200 ≤ o ∧ o ≤ 0x218 then roReg
  else if o = 0x220 then woReg
  else if o = 0x300 ∨ o = 0x308 then roReg
  else none

/-- Power and telemetry registers (R516, R517). -/
def pwrInfo (o : Nat) : Option RegInfo :=
  if o = 0x0 then shReg (ones 63 47) (100 * 2 ^ 56 + 6 * 2 ^ 48 + 2 ^ 47)
  else if o = 0x8 then some { reset := word (0xFFFF * 2 ^ 32), rc := ones 47 32 }
  else if o = 0x10 then roReg
  else if o = 0x18 then woReg
  else if o = 0x100 then roReg
  else if o = 0x108 then roReg (2 ^ 63)
  else if 0x200 ≤ o ∧ o ≤ 0x338 then roReg (2 ^ 63)
  else none

/-- Calibration registers (R516). -/
def calInfo (o : Nat) : Option RegInfo :=
  if o = 0x1000 then woReg
  else if o < 36 * 0x20 then (if o % 0x20 = 0x10 then roReg (2 ^ 63) else roReg)
  else none

/-- Registers of a ring page (R377). -/
def ringInfo (o : Nat) : Option RegInfo :=
  if o = 0x0 ∨ o = 0x20 then rwReg allOnes
  else if o = 0x8 ∨ o = 0x28 then rwReg (ones 16 0)
  else if o = 0x10 ∨ o = 0x30 then rwReg (ones 15 0)
  else if o = 0x18 then roReg
  else if o = 0x38 then roReg (2 ^ 63)
  else if o = 0x40 then rwReg (ones 63 62) (2 ^ 62)
  else if o = 0x48 then roReg (2 ^ 62)
  else if o = 0x50 then roReg
  else none

/-- The register at a BAR0 address, and the target of R431 that owns the address (R539). No register: reads as zero and
ignores writes (R543). The Guide mailbox is told apart by its addresses (R540). -/
def regAt (a : Nat) : Option Nat × Option RegInfo :=
  if a < 0x1000 then (some 0, glbInfo a)
  else if a < 0x100000 then (some 0, none)
  else if a < 0x2A0000 then (some (1 + (a - 0x100000) / 0x10000), galInfo (a % 0x10000))
  else if a < 0x400000 then (none, none)
  else if a < 0x4C0000 then (some 27, lanInfo (a % 0x1000))
  else if a < 0x500000 then (none, none)
  else if a < 0x501000 then (some 28, mouthInfo (a - 0x500000))
  else if a < 0x510000 then (none, none)
  else if a < 0x51C000 then (some 28, msInfo (a % 0x100))
  else if a < 0x520000 then (none, none)
  else if a < 0x520200 then (some 28, recipInfo (a - 0x520000))
  else if a < 0x600000 then (none, none)
  else if a < 0x601000 then (some 29, sumpInfo (a - 0x600000))
  else if a < 0x640000 then (none, none)
  else if a < 0x641000 then (some 30, if a = 0x640000 then rwReg (ones 63 63) (2 ^ 63) else none)
  else if a < 0x650000 then (none, none)
  else if a < 0x662000 then (some 30, chInfo (a % 0x100))
  else if a < 0x680000 then (none, none)
  else if a < 0x681000 then (some 31, memInfo (a - 0x680000))
  else if a < 0x690000 then (none, none)
  else if a < 0x692000 then (some 31, mcInfo (a % 0x100))
  else if a < 0x700000 then (none, none)
  else if a < 0x702800 then
    (some 32, shReg (ones 63 59) (2 ^ 63 + (if isStateSource ((a - 0x700000) / 8) then 3 else 1) * 2 ^ 61))
  else if a < 0x708000 then (none, none)
  else if a < 0x738400 then (some 32, eqInfo ((a - 0x708000) % 0x400))
  else if a < 0x740000 then (none, none)
  else if a < 0x741000 then (some 33, fltInfo (a - 0x740000))
  else if a < 0x780000 then (none, none)
  else if a < 0x78E000 then (some 34, some { rl := allOnes, lock := .access })
  else if a < 0x7A0000 then (none, none)
  else if a < 0x7A0800 then (some 34, rwReg (ones 63 63 ||| ones 7 0))
  else if a < 0x7B0000 then (none, none)
  else if a < 0x7B0018 then (some 34, roReg)
  else if a < 0x7B0020 then (some 34, woReg)
  else if a < 0x7C0000 then (none, none)
  else if a < 0x7C1000 then (some 35, pwrInfo (a - 0x7C0000))
  else if a < 0x7D0000 then (none, none)
  else if a < 0x7D0020 then
    (some 35, if a = 0x7D0000 then rwReg (ones 63 47 ||| ones 23 0)
      else if a = 0x7D0008 then woReg
      else if a = 0x7D0010 then some { rc := ones 62 62 } else none)
  else if a < 0x7E0000 then (none, none)
  else if a < 0x7E1008 then (some 35, calInfo (a - 0x7E0000))
  else if a < 0x800000 then (none, none)
  else if a < 0x8C1000 then (some 36, ringInfo (a % 0x1000))
  else (none, none)

/-- The reset value of the register at an address; zero where none lies there. -/
def regReset (a : Nat) : Word := ((regAt a).2.getD ({} : RegInfo)).reset

/-- The stored value of a register. -/
def reg (d : Dev) (a : Nat) : Word := d.regs.get (regReset a) a

/-- Stores a register as hardware does, past every access rule. -/
def setReg (d : Dev) (a : Nat) (v : Word) : Dev := { d with regs := d.regs.set (regReset a) a v }

/-- Replaces field [hi:lo] of a stored register. -/
def setRegFld (d : Dev) (a hi lo v : Nat) : Dev := setReg d a (setFld (reg d a) hi lo v)

/-- Replaces one bit of a stored register. -/
def setRegBit (d : Dev) (a i : Nat) (b : Bool) : Dev := setReg d a (setBit (reg d a) i b)

/-- Field [hi:lo] of a stored register. -/
def regFld (d : Dev) (a hi lo : Nat) : Nat := fld (reg d a) hi lo

/-- Bit i of a stored register. -/
def regBit (d : Dev) (a i : Nat) : Bool := bit (reg d a) i

/-! ### Stated limits (R534, R543) -/

/-- A number lies in a range. -/
def inRange (n lo hi : Nat) : Bool := decide (lo ≤ n) && decide (n ≤ hi)

/-- A shadowed value meets the limits its chapter states (R534). The Sump registers and the memory regions are checked
with their whole commit (R277, R456). -/
def shadowOk (a : Nat) (v : Word) : Bool :=
  if 0x400000 ≤ a ∧ a < 0x4C0000 then
    if a % 0x1000 = 0x10 then
      inRange (fld v 31 16) 100 16000 && decide (fld v 15 0 ≤ 1024) && decide (fld v 47 45 ≤ 4) && decide (fld v 49 48 ≤ 1)
    else if a % 0x1000 = 0x18 then decide (fld v 15 0 ≠ 0)
    else true
  else if 0x500100 ≤ a ∧ a < 0x500180 then
    if a % 0x40 = 0x0 then inRange (fld v 63 50) 1280 9000
    else if a % 0x40 = 0x28 then fld v 31 0 == 0 || inRange (fld v 31 0) 1000 3600000
    else true
  else if 0x500200 ≤ a ∧ a < 0x500280 then
    if a % 0x20 = 0 then inRange (fld v 31 0) 16384 67108864 else decide (fld v 23 0 < fld v 47 24)
  else if 0x510000 ≤ a ∧ a < 0x51C000 ∧ a % 0x100 = 0 then
    inRange (fld v 61 58) 1 14 && inRange (fld v 57 54) 1 14 && decide (fld v 61 58 ≠ fld v 57 54)
      && decide (fld v 53 52 ≤ 2) && decide (96 ≤ fld v 51 45)
  else if a = 0x600000 then inRange (fld v 63 51) 128 4096 && decide (fld v 63 51 % 128 = 0)
  else if a = 0x680000 then
    decide (fld v 63 62 ≠ 3) && inRange (fld v 55 48) 1 168 && inRange (fld v 47 32) 256 32768
  else if 0x680208 ≤ a ∧ a ≤ 0x680218 then inRange (fld v 31 0) 100 1000000
  else if a = 0x7C0000 then inRange (fld v 63 56) 85 104 && inRange (fld v 55 48) 2 20
  else true

/-- A value written to a register that is not shadowed meets its stated limits; otherwise the write is ignored as a
whole (R543). The registers whose chapters state another outcome are not here. -/
def plainOk (d : Dev) (a : Nat) (v : Word) : Bool :=
  if a = 0x500 then inRange (fld v 31 0) 50 64000
  -- a multiple of the BAR2 size (R408, R430)
  else if a = 0x508 then fld v 35 30 % d.pcie.bar2GiB == 0
  else if 0x640 ≤ a ∧ a ≤ 0x6B8 then decide (fld v 55 48 ≤ 191)
  else if 0x400 ≤ a ∧ a ≤ 0x478 then decide (fld v 62 60 ≤ 3) && inRange (fld v 51 39) 1 4096
  else if 0x500500 ≤ a ∧ a < 0x500560 then
    if a % 0x20 = 0 then fld v 11 0 == 0
    else if a % 0x20 = 8 then fld v 31 0 == 0 || (isPow2 (fld v 31 0) && inRange (fld v 31 0) 1048576 1073741824)
    else true
  else true

/-- Width and place of an error counter in its saturated form: bit 63 and [31:0] (R472). -/
def errCountMax : Nat := two32 - 1

end Sys2Proof.Machine
end

