-- ==== Sys2Proof/Machine/Flags.lean ====
section
/-! DEFINITION. Counters and status flags: the two kinds of counter (R472), the saturated flag, the state the boot and
the power of the device stand in. -/

namespace Sys2Proof.Machine

/-- An error counter raised by n: it sticks at 0xFFFF_FFFF, and reaching it sets the saturated flag, bit 63 (R472). -/
def errAdd (v : Word) (n : Nat) : Word :=
  if fld v 31 0 + n < errCountMax then word (fld v 31 0 + n) else word (2 ^ 63 + errCountMax)

/-- Raises an error counter held in a register. -/
def incErrBy (d : Dev) (a n : Nat) : Dev := if n = 0 then d else setReg d a (errAdd (reg d a) n)

def incErr (d : Dev) (a : Nat) : Dev := incErrBy d a 1

/-- Clears an error counter and its flag. -/
def clrErr (d : Dev) (a : Nat) : Dev := setReg d a 0

/-- Clears the counters whose bits are set in a written value: pairs of bit and counter address. -/
def clrErrs (d : Dev) (v : Word) (l : List (Nat × Nat)) : Dev :=
  each l d fun d p => if bit v p.1 then clrErr d p.2 else d

/-- An error counter held in a table (the counters of R162, R190, R252, R310, R223). -/
def cntErr (t : Tab Word) (k : Nat) : Tab Word := t.set 0 k (errAdd (t.get 0 k) 1)

def cntErrBy (t : Tab Word) (k n : Nat) : Tab Word := if n = 0 then t else t.set 0 k (errAdd (t.get 0 k) n)

/-- A statistics counter held in a table raised by n; `statWraps` says whether it wrapped (R472). -/
def cntStat (t : Tab Word) (k n : Nat) : Tab Word := t.set 0 k (t.get 0 k + word n)

def statWraps (t : Tab Word) (k n : Nat) : Bool := decide (2 ^ 64 ≤ (t.get 0 k).toNat + n)

/-- `BOOT_STATUS` STATE: 0 ROM, 1 WAIT, 2 VERIFY, 3 LOAD, 4 READY, 8 FAILED, 9 GRAVE (R371). -/
def bootState (d : Dev) : Nat := regFld d rBootStatus 63 60

def setBootState (d : Dev) (v : Nat) : Dev := setRegFld d rBootStatus 63 60 v

/-- The main die runs; otherwise it is held in reset, unpowered or asleep and takes no part (R502). -/
def alive (d : Dev) : Bool := d.pwr.die == .running

/-- STATE is READY. -/
def ready (d : Dev) : Bool := alive d && bootState d == 4

/-- The device has been stopped by a class F fault (R477). -/
def stopped (d : Dev) : Bool := bootState d == 8

/-- The blocks of the die do their work: the device is READY and not stopped. -/
def working (d : Dev) : Bool := alive d && !stopped d

/-- A Gallery is retired (R234). -/
def retired (d : Dev) (g : Nat) : Bool := regBit d (rGal g oGalStatus) 63

/-- A Gallery's ADMIT_HOLD (R497). -/
def admitHold (d : Dev) (g : Nat) : Bool := regBit d (rGal g oGalStatus) 62

/-- The device is in supply warning (R496). -/
def supplyWarning (d : Dev) : Bool := d.pwr.vinWarn || d.pwr.coreWarn

/-- Level of FAULT_N: low through a pulse, the fallback level while the fallback applies or is kept, otherwise
DRIVE_LOW; released while the die is not running outside the grave hold, but for sleep under an uncleared fault (R485 to
R487, R563). -/
def faultLow (d : Dev) : Bool :=
  let st := reg d rFltStatus
  let level := (bit st 63 && regBit d rFltCtrl 63) || bit st 62 || bit st 61
  if !d.roost.up then false
  else if d.tap.extest then Config.boundaryLow 0 d.tap.data
  else if d.roost.grave then true
  else if d.pwr.die = .asleep then d.roost.sleepLow
  else if !alive d then false
  else if d.flt.pulseEnd.isSome then true
  else if bit st 60 then level
  else if d.flt.keepLevel then d.flt.keptLow
  else regBit d rFltCtrl 61

/-- Level of ALERT_N: low while PEND is set (R488); in EXTEST as the boundary register says (R564). -/
def alertLow (d : Dev) : Bool :=
  d.roost.up && (if d.tap.extest then Config.boundaryLow 1 d.tap.data else regBit d rFltAlert 63 || d.roost.alert)

/-- PPS_OUT is driven and the transmit lanes carry their links in operation alone: else PPS_OUT is high impedance and every lane in
electrical idle (R563); in EXTEST they follow the boundary register. -/
def outputsDriven (d : Dev) : Bool := d.roost.up && (alive d || d.tap.extest)

end Sys2Proof.Machine
end

