-- ==== Sys2Proof/Machine/Events.lean ====
section
/-! DEFINITION. The event system: raising a happening or an edge, the record and its queue, the fast bank, coalescing,
ACTIVE and completion (R458 to R475), and the statistics counters with their wrap event. -/

namespace Sys2Proof.Machine

/-- The owner that R459 names for a source. -/
def srcOwner (d : Dev) (s subj : Nat) : Nat :=
  if s < 768 then d.streamOwner (s / 4)
  else if s = 1136 then subj
  else if s = 1137 then (if subj < 192 then d.streamOwner subj else d.ctxOwner (subj - 192))
  else if s = 1246 ∨ s = 1247 then d.ctxOwner subj
  else if s = 1266 then d.streamOwner subj
  else 0

/-- The function whose queue takes the records of a source (R459): every owner is one of the 193 functions. -/
def srcFn (d : Dev) (s subj : Nat) : Nat := if srcOwner d s subj ≤ 192 then srcOwner d s subj else 0

/-- The device state that is the condition of a state source (R462, R518). -/
def srcState (d : Dev) (s : Nat) : Bool :=
  if s = 1104 then (d.port 0).up
  else if s = 1120 then (d.port 1).up
  else if s = 1169 then regFld d (rMouthRing 0 0x10) 31 0 != regFld d (rMouthRing 0 0x18) 31 0
  else if s = 1170 then d.ptp.locked
  else if s = 1171 then regFld d (rMouthRing 1 0x10) 31 0 != regFld d (rMouthRing 1 0x18) 31 0
  else if 1216 ≤ s ∧ s ≤ 1220 then decide (regFld d (rPoolStatus (s - 1216)) 63 32 < regFld d (rPoolCfg (s - 1216)) 31 0)
  else if s = 1248 then d.pwr.vinWarn
  else if s = 1249 then d.pwr.coreWarn
  else if s = 1251 then regBit d rPwrStatus 61
  else false

/-- The state sources that have a falling cause, 0x02. -/
def hasFalling (s : Nat) : Bool := s == 1104 || s == 1120 || s == 1170 || s == 1248 || s == 1249 || s == 1251

def srcEn (d : Dev) (s : Nat) : Bool := regBit d (rSrcCfg s) 63
def srcSense (d : Dev) (s : Nat) : Nat := regFld d (rSrcCfg s) 62 61
def srcFast (d : Dev) (s : Nat) : Bool := regBit d (rSrcCfg s) 60
def srcActive (d : Dev) (s : Nat) : Bool := d.activeFn.get 0 s != 0

def setActive (d : Dev) (s f : Nat) : Dev := { d with activeFn := d.activeFn.set 0 s (f + 1) }
def clrActive (d : Dev) (s : Nat) : Dev := { d with activeFn := d.activeFn.set 0 s 0 }

/-- An event on the limit of once per interval: `key` names what is limited. -/
def limited (d : Dev) (key interval : Nat) (f : Dev → Dev) : Dev :=
  let last := d.lastRaised.get 0 key
  if last = 0 ∨ last + interval ≤ d.now + 1 then f { d with lastRaised := d.lastRaised.set 0 key (d.now + 1) } else d

/-- Key of an event for `limited`. -/
def limKey (s cause subj : Nat) : Nat := (s * 256 + cause) * 65536 + subj

/-- The first word of a record less PHASE and LOST (R460). -/
def recWord (s cause subj data : Nat) (fast merged woke : Bool) : Word :=
  word (s % 2048 * 2 ^ 53 + cause % 256 * 2 ^ 45 + fast.toNat * 2 ^ 43 + merged.toNat * 2 ^ 40 + woke.toNat * 2 ^ 39
    + subj % 65536 * 2 ^ 16 + data % 65536)

/-- Slots of the queue between head and tail. -/
def eqUnread (d : Dev) (f : Nat) : Nat :=
  let n := regFld d (rEq f oEqSize) 16 0
  if n = 0 then 0 else (regFld d (rEq f oEqTail) 15 0 + n - regFld d (rEq f oEqHead) 15 0 % n) % n

/-- Vector 0 is sent and both conditions of R466 start anew. -/
def sendVector0 (d : Dev) (f : Nat) : Dev :=
  emit (d.setEqx f { d.eqx f with since := 0 }) (.msix f 0)

/-- Counts n records as written for the conditions of R466. -/
def coalesce (d : Dev) (f n : Nat) : Dev :=
  let x := d.eqx f
  if n = 0 then d
  else
    let d := d.setEqx f { x with since := x.since + n, firstAt := if x.since = 0 then d.now else x.firstAt }
    if regFld d (rEq f oEqCtrl) 47 32 ≤ x.since + n then sendVector0 d f else d

/-- The lowest of the 16 fast slots that is free (R467). -/
def fastSlot (d : Dev) (f : Nat) : Option Nat := (List.range 16).find? fun k => !regBit d (rEq f oFastPend) k

/-- A record goes to the fast bank and vector 1 is sent at once; a full bank counts and raises FAST_OVF at most once per
1 ms per function (R467, R474). -/
def fastPut (again : Dev → Nat → Nat → Nat → Nat → Dev) (d : Dev) (f : Nat) (w0 w1 : Word) : Dev :=
  match fastSlot d f with
  | some k =>
    let d := setReg (setReg (setRegBit d (rEq f oFastPend) k true) (rEq f (oFastRec k)) w0) (rEq f (oFastRec k + 8)) w1
    emit d (.msix f 1)
  | none =>
    let d := limited (incErr d (rEq f oEqFastOvf)) (limKey 1233 1 f) 1000000 fun d => again d 1233 1 f 0
    emit d (.msix f 1)

/-- A record is written to the queue of a function, or counted lost where the queue is full or not in service
(R461, R462, R474). -/
def queuePut (again : Dev → Nat → Nat → Nat → Nat → Dev) (d : Dev) (f : Nat) (w0 w1 : Word) : Dev :=
  let n := regFld d (rEq f oEqSize) 16 0
  let tail := regFld d (rEq f oEqTail) 15 0
  let x := d.eqx f
  if !regBit d (rEq f oEqCtrl) 63 || n == 0 || (tail + 1) % n == regFld d (rEq f oEqHead) 15 0 then
    let d := (incErr d (rEq f oEqLost)).setEqx f { x with lostNext := true, wrote := false }
    if x.wrote then again d 1233 3 f 0 else d
  else
    let phase := regBit d (rEq f oEqTail) 63
    let w := setBit (setBit w0 44 phase) 41 x.lostNext
    let d := emit d (.host ((reg d (rEq f oEqBase)).toNat + 16 * tail) [w, w1])
    let tail' := (tail + 1) % n
    let d := setReg d (rEq f oEqTail) (word (tail' + (if tail' = 0 then !phase else phase).toNat * 2 ^ 63))
    coalesce (d.setEqx f { d.eqx f with lostNext := false, wrote := true }) f 1

/-- A fast record of a Gallery's source is an event that abandons the routine running there (R95, R467). DESIGN CHOICE
(notes/assumptions/76.md): the record of the header sequencer's own source, which tells of the abandoning, abandons nothing. -/
def meetFast (d : Dev) (s : Nat) : Dev :=
  if 768 ≤ s ∧ s < 976 ∧ s % 8 ≠ 1 then { d with fastMet := d.fastMet ++ [(s - 768) / 8] } else d

/-- Writes one record of source s to function f: the fast bank takes it whether or not the queue does (R462, R467). -/
def postWith (again : Dev → Nat → Nat → Nat → Nat → Dev) (d : Dev) (f s cause subj data : Nat) (tw : Word)
    (merged woke : Bool) : Dev :=
  let fast := srcFast d s
  let w0 := recWord s cause subj data fast merged woke
  let d1 := queuePut again d f w0 tw
  if fast then meetFast (fastPut again d1 f (setBit w0 44 (regBit d (rEq f oEqTail) 63)) tw) s else d1

/-- A latched happening joins the latches of its source: a second of the same cause merges (R464). -/
def addLatch (l : List Latch) (x : Latch) : List Latch :=
  if l.any (fun y => y.cause == x.cause) then l.map fun y => if y.cause == x.cause then { y with merged := true } else y
  else l ++ [x]

/-- A happening of a source (R463): discarded while EN is 0, latched while a LEVEL source is ACTIVE, otherwise written.
`fuel` bounds the events that losing a record raises in turn: at most two. -/
def happenN (fuel : Nat) (d : Dev) (s cause subj data : Nat) : Dev :=
  match fuel with
  | 0 => d
  | n + 1 =>
    if !alive d || !srcEn d s then d
    else if srcSense d s = 0 then
      if srcActive d s then
        { d with srcs := d.srcs.set [] s (addLatch (d.srcs.get [] s) { cause := cause, subject := subj, data := data, time := timeWord d }) }
      else
        let f := srcFn d s subj
        postWith (happenN n) (setActive d s f) f s cause subj data (timeWord d) false false
    else postWith (happenN n) d (srcFn d s subj) s cause subj data (timeWord d) false false

/-- Raises a happening. -/
def raise (d : Dev) (s cause : Nat) (subj : Nat := 0) (data : Nat := 0) : Dev := happenN 3 d s cause subj data

/-- Writes a record to a function's queue. -/
def post (d : Dev) (f s cause subj data : Nat) (tw : Word) (merged woke : Bool) : Dev :=
  postWith (happenN 2) d f s cause subj data tw merged woke

/-- Raises a happening at most once per interval per source, cause and subject. -/
def raiseLim (d : Dev) (interval s cause : Nat) (subj : Nat := 0) (data : Nat := 0) : Dev :=
  limited d (limKey s cause subj) interval fun d => raise d s cause subj data

/-- An edge of a state source: `before` is its state before the effect (R463). -/
def edge (d : Dev) (s : Nat) (before : Bool) (subj : Nat := 0) (data : Nat := 0) : Dev :=
  let after := srcState d s
  if before == after || !srcEn d s || !alive d then d
  else
    let f := srcFn d s subj
    let sense := srcSense d s
    if sense = 0 then
      if after && !srcActive d s then post (setActive d s f) f s 1 subj data (timeWord d) false false else d
    else if after then (if sense = 2 then d else post d f s 1 subj data (timeWord d) false false)
    else if hasFalling s && sense != 1 then post d f s 2 subj data (timeWord d) false false
    else d

/-- A LEVEL source whose ACTIVE has cleared: one record for each cause whose condition still holds, and it is ACTIVE
again (R465, R470). The record goes to the present owner. -/
def recheck (d : Dev) (s : Nat) : Dev :=
  let ls := d.srcs.get [] s
  let st := srcState d s && !(ls.any fun l => l.cause == 1)
  let ls := if st then { cause := 1, subject := 0, data := 0, time := timeWord d : Latch } :: ls else ls
  let d := { d with srcs := d.srcs.set [] s [] }
  each ls d fun d l =>
    let f := srcFn d s l.subject
    post (setActive d s f) f s l.cause l.subject l.data l.time l.merged false

/-- A completion written by function f (R465). -/
def complete (d : Dev) (f s : Nat) : Dev :=
  if d.activeFn.get 0 s = f + 1 then
    let d := clrActive d s
    if srcEn d s && srcSense d s == 0 then recheck d s else d
  else incErr d (rEq f oEqSpurious)

/-- A change of owner clears ACTIVE of the target's sources; conditions that still hold are reported at once (R459). -/
def ownerChanged (d : Dev) (ss : List Nat) : Dev :=
  each ss d fun d s =>
    let was := srcActive d s
    let d := clrActive d s
    if was && srcEn d s && srcSense d s == 0 then recheck d s else d

/-- A statistics counter in a register raised by n; a wrap raises cause 0xFF on its source, with the counter's offset
in DATA (R472, R473). -/
def incStat (d : Dev) (a n src subj off : Nat) : Dev :=
  if 2 ^ 64 ≤ (reg d a).toNat + n then raise (setReg d a (reg d a + word n)) src 0xFF subj (off / 8)
  else setReg d a (reg d a + word n)

/-- DATA of a wrapped counter that a command returns: family and result word (R473). -/
def wrapData (family w : Nat) : Nat := 0x8000 + family % 128 * 256 + w

/-- A statistics counter of a stream: `sel` reads its table, `put` writes it back; a wrap is raised on source 4n. -/
def streamStat (d : Dev) (n family w k : Nat) (sel : Stream → Tab Word) (put : Stream → Tab Word → Stream) : Dev :=
  let s := d.stream n
  let d' := d.setStream n (put s (cntStat (sel s) w k))
  if statWraps (sel s) w k then raise d' (4 * n) 0xFF n (wrapData family w) else d'

/-- RATE counter w of a stream (R162): statistics or error. -/
def rateStat (d : Dev) (n w k : Nat) : Dev :=
  streamStat d n 4 w k (fun s => s.rateCnt) fun s t => { s with rateCnt := t }

def rateErr (d : Dev) (n w k : Nat) : Dev := d.onStream n fun s => { s with rateCnt := cntErrBy s.rateCnt w k }

/-- REF counter w of a stream (R190). -/
def refStat (d : Dev) (n w k : Nat) : Dev :=
  streamStat d n 5 w k (fun s => s.refCnt) fun s t => { s with refCnt := t }

def refErr (d : Dev) (n w k : Nat) : Dev := d.onStream n fun s => { s with refCnt := cntErrBy s.refCnt w k }

/-- Availability counter w of a stream (R252). -/
def availStat (d : Dev) (n w k : Nat) : Dev :=
  streamStat d n 2 w k (fun s => s.availCnt) fun s t => { s with availCnt := t }

def availErr (d : Dev) (n w k : Nat) : Dev := d.onStream n fun s => { s with availCnt := cntErrBy s.availCnt w k }

/-- VEIN counter w of a stream (R576). -/
def veinStat (d : Dev) (n w k : Nat) : Dev :=
  streamStat d n 7 w k (fun s => s.veinCnt) fun s t => { s with veinCnt := t }

def veinErr (d : Dev) (n w k : Nat) : Dev := d.onStream n fun s => { s with veinCnt := cntErrBy s.veinCnt w k }

/-- DECODE counter w of a context (R223); a wrap is raised on source 1247. -/
def ctxStat (d : Dev) (c w k : Nat) : Dev :=
  let x := d.ctx c
  let d' := d.setCtx c { x with cnt := cntStat x.cnt w k }
  if statWraps x.cnt w k then raise d' 1247 0xFF c (wrapData 10 w) else d'

def ctxErr (d : Dev) (c w k : Nat) : Dev := d.onCtx c fun x => { x with cnt := cntErrBy x.cnt w k }

/-- A statistics counter of a recipient entry (words 16 to 18); a wrap is raised on source 4n of its stream. -/
def recipStat (d : Dev) (r w k : Nat) : Dev :=
  let x := d.recip r
  let d' := d.setRecip r { x with cnt := cntStat x.cnt w k }
  if statWraps x.cnt w k then raise d' (4 * x.stream) 0xFF r (wrapData 6 w) else d'

def recipErr (d : Dev) (r w k : Nat) : Dev := d.onRecip r fun x => { x with cnt := cntErrBy x.cnt w k }

end Sys2Proof.Machine
end

