-- ==== Sys2Proof/Machine/Operands.lean ====
section
/-! DEFINITION. The operands of an Ohmold packet: its header word (R382), its parameter words, and the refusals that
rest on them alone (R387, R577). -/

namespace Sys2Proof.Machine

/-- A packet of an opcode: the operand header word keeps its lower 48 bits (R382). -/
def mkPkt (opcode fn : Nat) (hdr : Word) (ps : List Word) (tag : Option Nat := none) (kek : Option Nat := none) : Pkt :=
  { fn := fn, hdr := setFld hdr 63 48 opcode, ps := ps, tag := tag, kek := kek }

def Pkt.opcode (p : Pkt) : Nat := fld p.hdr 63 48
def Pkt.count (p : Pkt) : Nat := fld p.hdr 47 43
def Pkt.tagField (p : Pkt) : Nat := fld p.hdr 42 32
def Pkt.target (p : Pkt) : Nat := fld p.hdr 31 16
def Pkt.fence (p : Pkt) : Bool := bit p.hdr 15
def Pkt.quiet (p : Pkt) : Bool := bit p.hdr 14

/-- Parameter word k, counted from 1 (R375). -/
def Pkt.w (p : Pkt) (k : Nat) : Word := p.ps.getD (k - 1) 0

/-- Field [hi:lo] of parameter word k. -/
def Pkt.f (p : Pkt) (k hi lo : Nat) : Nat := fld (p.w k) hi lo

/-- Bit i of parameter word k. -/
def Pkt.b (p : Pkt) (k i : Nat) : Bool := bit (p.w k) i

/-- The submission slots a packet occupies (R375). -/
def Pkt.slots (p : Pkt) : Nat := ceilDiv (1 + p.count) 8

/-- STATUS codes (R384). -/
def stOk : Nat := 0
def stBadOpcode : Nat := 1
def stBadParam : Nat := 2
def stDenied : Nat := 3
def stBusy : Nat := 4
def stNoContext : Nat := 5
def stNoCapacity : Nat := 6
def stNoRecipient : Nat := 7
def stStaleEpoch : Nat := 8
def stNotReady : Nat := 9
def stAborted : Nat := 10
def stBadState : Nat := 11

/-- What a command answers: at once with STATUS, result words and the target of the reply, or later, when its effect has
completed. -/
inductive Answer where
  | now (status : Nat) (results : List Word) (target : Nat)
  | later (target : Nat) (results : List Word)
deriving DecidableEq, Repr

/-- The first condition that holds in a list of refusals in the order of R577. -/
def firstRefusal (l : List (Bool × Nat)) : Option Nat :=
  match l with
  | [] => none
  | (c, st) :: r => if c then some st else firstRefusal r

/-- The header is refused: COUNT is not the command's, a bit that must be zero is set, or TARGET is outside 0 to
`limit` - 1 (R382, R387). -/
def hdrBad (p : Pkt) (count limit : Nat) : Bool :=
  p.count != count || fld p.hdr 13 0 != 0 || decide (limit ≤ p.target)

/-- As `hdrBad`, where TARGET 0xFFFF asks for an allocation (R32). -/
def hdrBadOpen (p : Pkt) (count limit : Nat) : Bool :=
  p.count != count || fld p.hdr 13 0 != 0 || (decide (limit ≤ p.target) && p.target != 0xFFFF)

/-- The issuer is neither the PF nor the owner (R19, R388). -/
def notOwner (p : Pkt) (owner : Nat) : Bool := p.fn != 0 && p.fn != owner

/-- As `notOwner`; the SMBus endpoint may query (R388). -/
def notReader (p : Pkt) (owner : Nat) : Bool := p.fn != 0 && p.fn != owner && p.fn != 0xFE

/-- A refusal without an effect. -/
def refuse (s : State) (p : Pkt) (st : Nat) : State × Answer := (s, .now st [] p.target)

/-- An acceptance with result words. -/
def accept (s : State) (p : Pkt) (rs : List Word := []) : State × Answer := (s, .now stOk rs p.target)

/-- A command whose refusals are decided by a list in the order of R577 and whose effect answers OK at once. -/
def simply (s : State) (p : Pkt) (refusals : List (Bool × Nat)) (effect : State → State × List Word) : State × Answer :=
  match firstRefusal refusals with
  | some st => refuse s p st
  | none => accept (effect s).1 p (effect s).2

end Sys2Proof.Machine
end

