-- ==== Sys2Proof/Machine/Rings.lean ====
section
/-! DEFINITION. The submission and completion rings: taking a packet, writing its reply, holding what cannot be taken
(R374 to R405). -/

namespace Sys2Proof.Machine

/-- Packets of a function taken without a reply. -/
def outstandingOf (d : Dev) (f : Nat) : Nat := (d.rings.filter fun o => o.fn == f).length

def ringEnabled (d : Dev) (f : Nat) : Bool := regBit d (rRing f oRingCtrl) 63

def ringHalted (d : Dev) (f : Nat) : Bool := regBit d (rRing f oRingStatus) 63

/-- Completion slots written and not yet consumed. -/
def cqUsed (d : Dev) (f : Nat) : Nat :=
  let n := regFld d (rRing f oCqSize) 16 0
  if n = 0 then 0 else (regFld d (rRing f oCqTail) 15 0 + n - regFld d (rRing f oCqHead) 15 0 % n) % n

/-- The completion ring has room for the four slots of every outstanding packet and of one more (R380); one slot stays
free, so that a full ring differs from an empty one. -/
def cqRoom (d : Dev) (f : Nat) : Bool :=
  decide (cqUsed d f + 4 * (outstandingOf d f + 1) < regFld d (rRing f oCqSize) 16 0)

/-- The header word of a reply (R383). -/
def replyHdr (hdr : Word) (count target status : Nat) (replayed phase : Bool) : Word :=
  word (fld hdr 63 48 * 2 ^ 48 + count % 32 * 2 ^ 43 + fld hdr 42 32 * 2 ^ 32 + target % 65536 * 2 ^ 16
    + status % 256 * 2 ^ 8 + replayed.toNat * 2 + phase.toNat)

/-- The host address of slot i of a ring (R374). -/
def slotAddr (base : Word) (i : Nat) : Nat := base.toNat + 64 * i

/-- The message of a reply over MCTP, from the message type on: the PF's Vendor ID, KIND 0x02, and the packet with its words most significant
byte first (R400). -/
def mctpReply (words : List Word) : List Byte := 0x7E :: natBytesBE 2 Config.vendorId ++ [2, 0, 0, 0] ++ words.flatMap bytesBE

/-- Writes a reply: to the completion ring of its function (R379), or over MCTP (R401). A reply that is not OK carries
no result words; QUIET suppresses an OK reply, but for DEVICE.RESET (R382, R395). -/
def reply (d : Dev) (fn : Nat) (hdr : Word) (tag : Option Nat) (status : Nat) (results : List Word) (target : Nat)
    (replayed : Bool := false) : Dev :=
  let rs := if status = 0 then results else []
  if status = 0 ∧ bit hdr 14 ∧ fld hdr 63 48 ≠ 0x0103 then d
  else if fn = 0xFE then emit d (.mctp (tag.getD 0) (mctpReply (replyHdr hdr rs.length target status replayed false :: rs)))
  else if !ringEnabled d fn then d
  else
    let n := regFld d (rRing fn oCqSize) 16 0
    let tail := regFld d (rRing fn oCqTail) 15 0
    let phase := regBit d (rRing fn oCqTail) 63
    let k := ceilDiv (1 + rs.length) 8
    let addrs := (List.range k).map fun i => slotAddr (reg d (rRing fn oCqBase)) ((tail + i) % n)
    let d := emit d (.reply fn tail addrs (replyHdr hdr rs.length target status replayed phase :: rs))
    let phase' := if n ≤ tail + k then !phase else phase
    let d := setReg d (rRing fn oCqTail) (word ((if n ≤ tail + k then tail + k - n else tail + k) + phase'.toNat * 2 ^ 63))
    if regBit d (rRing fn oRingCtrl) 62 then raise d 1136 1 fn 0 else d

/-- Completes outstanding packets that a condition picks: their replies are written in the order they were taken. -/
def completeOutstanding (d : Dev) (pick : Outstanding → Bool) (status : Outstanding → Nat) : Dev :=
  let done := d.rings.filter pick
  let d := { d with rings := d.rings.filter fun o => !pick o }
  each done d fun d o =>
    if o.dropped then d else reply d o.fn o.hdr o.tag (status o) o.results o.target o.replayed

/-- The Guide passes `RING_SQ_HEAD` past a packet and counts it (R376). -/
def takeFromRing (d : Dev) (p : Pkt) : Dev :=
  if p.fn = 0xFE then d
  else
    let n := regFld d (rRing p.fn oSqSize) 16 0
    let h := regFld d (rRing p.fn oSqHead) 15 0 + p.slots
    incStat (setRegFld d (rRing p.fn oSqHead) 15 0 (if n = 0 then h else h % n)) (rRing p.fn oRingTaken) 1 1136 p.fn oRingTaken

/-- A stream with a part on a retired Gallery whose failover is still to run (R403). -/
def streamMoving (d : Dev) (n : Nat) : Bool :=
  (d.stream n).parts.any fun q => d.guide.moves.contains q.gal

/-- Commands whose target is a stream, but for STREAM.OPEN (R386). -/
def targetsStream (op : Nat) : Bool :=
  (0x0202 ≤ op && op ≤ 0x0205) || op / 256 == 3 || op / 256 == 4 || op / 256 == 5 || op == 0x0622 || op == 0x0623 ||
    (0x0710 ≤ op && op ≤ 0x0712)

/-- The Guide may take this packet now: its ring is in service with room, the limits hold, its FENCE is met, no takeover
is in progress and no failover moves its stream (R254, R376, R380, R398, R401, R403). -/
def takeable (d : Dev) (p : Pkt) : Bool :=
  (if p.fn = 0xFE then decide (outstandingOf d 0xFE < 8)
   else ringEnabled d p.fn && !ringHalted d p.fn && decide (outstandingOf d p.fn < 64) && cqRoom d p.fn) &&
  (!p.fence || outstandingOf d p.fn == 0) && d.guide.takeoverAt.isNone && (d.guide.pairA || d.guide.pairB) &&
  !(targetsStream p.opcode && streamMoving d p.target)

/-- The device answers a command with NOT_READY (R401, R404): before READY all but DEVICE.QUERY over MCTP; after a class F
fault all but DEVICE.QUERY, DEVICE.RESET and DIAG.FAULTREC. -/
def notReady (d : Dev) (p : Pkt) : Bool :=
  if stopped d then p.opcode != 0x0101 && p.opcode != 0x0103 && p.opcode != 0x0903
  else !ready d && !(p.fn == 0xFE && p.opcode == 0x0101)

/-- Takes a packet and runs its command. -/
def takeRun (op : State → Pkt → State × Answer) (p : Pkt) (s : State) : State :=
  let s := s.onDev fun d => takeFromRing d p
  let r := if notReady s.dev p then refuse s p stNotReady else op s p
  match r.2 with
  | .now st rs tgt => r.1.onDev fun d => reply d p.fn p.hdr p.tag st rs tgt
  | .later tgt rs =>
    r.1.onDev fun d => { d with rings := d.rings ++ [{ fn := p.fn, hdr := p.hdr, target := tgt, tag := p.tag, results := rs }] }

/-- How far a function's turn is away: the functions and MCTP, which is 254, take turns (R397). -/
def turnsTo (d : Dev) (f : Nat) : Nat := (f + 255 - (d.turn + 1) % 255) % 255

/-- The held packet that is taken next: of the functions whose first held packet can be taken, that of the function whose turn comes first
(R397). -/
def nextHeld (d : Dev) (l : List Pkt) : Option Pkt :=
  let heads := (uniq (l.map fun p => p.fn)).filterMap fun f => l.find? fun p => p.fn == f
  (heads.filter (takeable d)).foldl (fun best p => match best with
    | none => some p
    | some q => if turnsTo d p.fn < turnsTo d q.fn then some p else some q) none

/-- Takes held packets as long as one can be taken. -/
def drainWith (run : Pkt → State → State) (fuel : Nat) (s : State) : State :=
  match fuel with
  | 0 => s
  | k + 1 =>
    match nextHeld s.dev s.dev.submitted with
    | none => s
    | some p => drainWith run k (run p (s.onDev fun d => { d with submitted := d.submitted.erase p, turn := p.fn }))

/-- The doorbell for a packet: `RING_SQ_TAIL` moves past its slots (R376). -/
def ringDoorbell (d : Dev) (p : Pkt) : Dev :=
  if p.fn = 0xFE then d
  else
    let n := regFld d (rRing p.fn oSqSize) 16 0
    let t := regFld d (rRing p.fn oSqTail) 15 0 + p.slots
    setRegFld d (rRing p.fn oSqTail) 15 0 (if n = 0 then t else t % n)

/-- Commands over MCTP without a reply (R401). -/
def mctpOutstanding (d : Dev) : Nat := outstandingOf d 0xFE + (d.submitted.filter fun p => p.fn == 0xFE).length

/-- A command over MCTP: dropped while eight are outstanding; answered by the Guide once the device is READY, before that
by Roost (R401). -/
def submitMctp (op : State → Pkt → State × Answer) (p : Pkt) (s : State) : State :=
  if !s.dev.roost.up || decide (8 ≤ mctpOutstanding s.dev) then s
  else if !ready s.dev && !stopped s.dev then takeRun op p s
  else if takeable s.dev p && !(s.dev.submitted.any fun q => q.fn == 0xFE) then takeRun op p s
  else s.onDev fun d => { d with submitted := d.submitted ++ [p] }

/-- A packet submitted to a ring in service runs now if the Guide may take it, and otherwise waits its turn. A packet on
a ring that is not in service goes nowhere: enabling the ring sets its indices to 0 (R378). A packet of the SMBus endpoint
comes over MCTP. -/
def submit (op : State → Pkt → State × Answer) (p : Pkt) (s : State) : State :=
  if p.fn = 0xFE then submitMctp op p s
  else if !alive s.dev || !ringEnabled s.dev p.fn then s
  else
    let s := s.onDev fun d => ringDoorbell d p
    if takeable s.dev p && !(s.dev.submitted.any fun q => q.fn == p.fn) then takeRun op p s
    else s.onDev fun d => { d with submitted := d.submitted ++ [p] }

end Sys2Proof.Machine
end

