-- ==== Sys2Proof/Machine/Faults.lean ====
section
/-! DEFINITION. The fault collector: class, capture, count, persistent entry, FAULT_N and ALERT_N (R476 to R489), the
device stop and the grave hold. -/

namespace Sys2Proof.Machine

/-- Where a fault arose: requester, kind of access (0 none, 1 read, 2 write, 3 command), address space and address, the
affected stream (R483). -/
structure Origin where
  master : Nat
  access : Nat := 0
  space : Nat := 0
  addr : Nat := 0
  stream : Option Nat := none
  injected : Bool := false
deriving DecidableEq, Repr

/-- The first core of the Guide pair in control. -/
def guideCore (d : Dev) : Nat := if regBit d rGuideStatus 63 then 0xF2 else 0xF0

/-- MASTER of a fault that arises in no access: the block's own ID, Roost's for a block without one (R483). -/
def blockMaster (d : Dev) (s cause : Nat) : Nat :=
  if s < 768 then guideCore d
  else if s < 976 then 0xD0 + (s - 768) / 8
  else if s = 1221 then 0xF9
  else if s = 1232 then guideCore d
  else if s = 1234 ∨ s = 1235 then (if cause ≤ 2 then 0xF9 else if cause = 3 then 0xF8 else if cause = 7 ∨ cause = 8 then guideCore d else 0xFC)
  else 0xFC

/-- The affected stream of a fault that arises in no access (R483). -/
def blockStream (d : Dev) (s : Nat) : Option Nat :=
  if s < 768 then some (s / 4)
  else if s < 976 then (d.gal ((s - 768) / 8)).cur.map fun c => c.1
  else none

/-- The origin of a fault that arises in no access. -/
def blockOrigin (d : Dev) (s cause : Nat) : Origin := { master := blockMaster d s cause, stream := blockStream d s }

/-- The classes of the rows of the fault table for a source and cause: 0 C, 1 D, 2 F, 3 G (R480). ECHO has two rows. -/
def faultRows (s cause : Nat) : List Nat :=
  if s < 768 then (if s % 4 = 1 ∧ cause = 0x05 then [1] else if s % 4 = 1 ∧ cause = 0x06 then [0] else [])
  else if s < 976 then
    (if (s - 768) % 8 = 2 ∧ cause = 1 then [0]
     else if (s - 768) % 8 = 4 ∧ cause = 1 then [0, 1]
     else if (s - 768) % 8 = 1 ∧ cause = 2 then [1]
     else if (s - 768) % 8 = 3 ∧ cause = 1 then [1]
     else if (s - 768) % 8 = 5 ∧ cause = 1 then [1]
     else if (s - 768) % 8 = 6 ∧ cause = 1 then [1]
     else [])
  else if s < 1104 then
    (if (s - 976) % 4 = 0 ∧ (cause = 1 ∨ cause = 2) then [0] else if (s - 976) % 4 = 1 ∧ cause = 1 then [0] else [])
  else if s = 1105 ∨ s = 1121 then (if cause = 1 then [0] else [])
  else if s = 1221 then (if cause = 2 then [0] else [])
  else if s = 1232 then (if cause = 1 then [1] else [])
  else if s = 1234 then (if 1 ≤ cause ∧ cause ≤ 8 then [2] else [])
  else if s = 1235 then (if 1 ≤ cause ∧ cause ≤ 6 then [0] else [])
  else if s = 1236 then (if 1 ≤ cause ∧ cause ≤ 3 then [3] else [])
  else if s = 1248 ∨ s = 1249 then (if cause = 1 then [0] else [])
  else if s = 1252 then (if cause = 1 then [2] else [])
  else if s = 1253 then (if cause = 1 then [0] else [])
  else if s = 1264 then (if cause = 1 then [0] else [])
  else if s = 1267 then (if cause = 1 then [0] else [])
  else if s = 1268 then (if cause = 1 then [0] else [])
  else []

/-- `FLT_CAP_HDR` of a fault, less VALID and MORE (R494). -/
def capHdr (s cause subj data : Nat) (o : Origin) : Word :=
  word (o.injected.toNat * 2 ^ 62 + s % 2048 * 2 ^ 50 + cause % 256 * 2 ^ 42 + o.master % 256 * 2 ^ 34 + o.access % 4 * 2 ^ 32
    + subj % 65536 * 2 ^ 16 + data % 65536)

/-- `FLT_CAP_ADDR` of a fault. -/
def capAddr (o : Origin) : Word := word (o.space % 4 * 2 ^ 62 + o.addr % 2 ^ 62)

/-- `FLT_CAP_RASTER` of a fault: the affected stream's position (R483). -/
def capRaster (d : Dev) (o : Origin) : Word :=
  match o.stream with
  | none => 0
  | some n =>
    let r := reg d (rLan n oLanRows)
    word (2 ^ 63 + n * 2 ^ 48 + fld r 63 32 * 2 ^ 16 + fld r 31 16)

/-- First-error capture of class k (R482, R484). -/
def capture (d : Dev) (k s cause subj data : Nat) (o : Origin) : Dev :=
  if regBit d (rCap k 0) 63 then setRegBit d (rCap k 0) 61 true
  else
    let d := setReg d (rCap k 0) (setBit (capHdr s cause subj data o) 63 true)
    let d := setReg d (rCap k 8) (capAddr o)
    let d := setReg d (rCap k 0x10) (timeWord d)
    setReg d (rCap k 0x18) (capRaster d o)

/-- Sets PEND of `FLT_ALERT` (R488). -/
def setPend (d : Dev) : Dev := setRegBit d rFltAlert 63 true

/-- An entry waits for Roost to write it (R489). -/
def addEntry (d : Dev) (e : RecEntry) : Dev := { d with roost := { d.roost with entries := d.roost.entries ++ [e] } }

/-- The persistent entry of a fault (R490). -/
def faultEntry (d : Dev) (k s cause subj data : Nat) (o : Origin) : RecEntry :=
  { kind := 1, cls := k, injected := o.injected, boot := d.roost.bootCount % 65536, hdr := setFld (capHdr s cause subj data o) 63 61 0,
    addr := capAddr o, time := if alive d then timeWord d else roostWord d, raster := capRaster d o, at_ := d.upTime }

/-- A pulse on the main path of FAULT_N; in LEVEL mode DRIVE_LOW is set in the clock that starts it (R485). -/
def faultPulse (d : Dev) : Dev :=
  let starts := match d.flt.pulseEnd with
    | some t => decide (t ≤ d.now)
    | none => true
  let d := { d with flt := { d.flt with pulseEnd := some (d.now + 10000) } }
  if !starts || regBit d rFltCtrl 62 then d else setRegBit d rFltCtrl 61 true

/-- The faults that ON_POWER of `FLT_ALERT` covers (R518). -/
def onPower (s : Nat) : Bool := s == 1248 || s == 1249 || s == 1252

/-- The collector's reaction to a fault of class k, less the device stop and the grave hold (R476). -/
def collect (d : Dev) (k s cause subj data : Nat) (o : Origin) : Dev :=
  let d := incErr d (rFltCount k)
  let d := setRegBit d rFltStatus (55 - k) true
  let d := capture d k s cause subj data o
  let d := if onPower s && regBit d rFltAlert 59 then setPend d else d
  if k = 0 then d
  else
    let d := setRegBit d rFltStatus (64 - k) true
    let d := addEntry d (faultEntry d k s cause subj data o)
    let d := if k = 3 ∨ regBit d rFltAlert (62 - k) then setPend d else d
    if 2 ≤ k ∨ regBit d rFltCtrl 63 then faultPulse d else d

/-- A class F fault stops the device: Galleries abandon their bands, Shaft its chains without a record, outstanding
packets reply ABORTED, STATE becomes FAILED (R404, R477). -/
def deviceStop (d : Dev) : Dev :=
  let d := setBootState d 8
  let d := { d with
    gals := d.gals.map (fun e => (e.1, { e.2 with cur := none, closing := [] })) |>.filter fun e => e.2 != ({} : Gal)
    chans := d.chans.map (fun e => (e.1, { e.2 with queue := [], chain := none, desc := none })) |>.filter fun e => e.2 != ({} : Chan) }
  completeOutstanding d (fun _ => true) fun _ => stAborted

/-- A fault: its event, the collector's reaction and, for class F, the device stop. -/
def raiseFault (d : Dev) (k s cause subj data : Nat) (o : Origin) : Dev :=
  let d := collect (raise d s cause subj data) k s cause subj data o
  if k = 2 then deviceStop d else d

/-- A fault that arises in no access. -/
def blockFault (d : Dev) (k s cause : Nat) (subj : Nat := 0) (data : Nat := 0) : Dev :=
  raiseFault d k s cause subj data (blockOrigin d s cause)

/-- A fault whose event is raised no more than once per interval; the collector counts each. -/
def limitedFault (d : Dev) (interval k s cause subj data : Nat) (o : Origin) : Dev :=
  collect (raiseLim d interval s cause subj data) k s cause subj data o

/-- Everything a reset of the main die leaves: what Roost keeps, the supplies and the outside, and the model's own
counters (R501). -/
def clearDie (d : Dev) : Dev :=
  { ({} : Dev) with
    upTime := d.upTime, freeCtr := d.freeCtr, out := d.out, roost := d.roost, pwr := d.pwr, tap := { d.tap with extest := false } }

/-- The header word of the KIND 0x04 entries: that of an event record with SOURCE, CAUSE and DATA (R460, R500, R502, R506). -/
def powerHdr (s cause data : Nat) : Word := word (s % 2048 * 2 ^ 53 + cause % 256 * 2 ^ 45 + data % 65536)

/-- A persistent entry of KIND 0x04. -/
def powerEntry (d : Dev) (hdr word2 : Word) : RecEntry :=
  { kind := 4, boot := d.roost.bootCount % 65536, hdr := hdr, addr := word2, time := if alive d then timeWord d else roostWord d,
    at_ := d.upTime }

/-- The entry that a reset leaves when it ends a supply warning (R500). -/
def cutWarning (d : Dev) : Dev :=
  if !supplyWarning d then d
  else if d.pwr.vinWarn then addEntry d (powerEntry d (powerHdr 1248 2 d.pwr.minVin) 0xFFFFFFFF)
  else addEntry d (powerEntry d (powerHdr 1249 2 d.pwr.minCore) 0xFFFFFFFF)

/-- The main die enters reset: every block stops, device memory is lost (R501, R502). -/
def enterReset (s : State) (kind : Nat) (die : DiePhase) : State :=
  let d := clearDie (cutWarning s.dev)
  { s with
    mem := [],
    memGen := 0,
    dev := { d with pwr := { d.pwr with die := die, resetKind := kind, resetAt := d.upTime, vinWarn := false, coreWarn := false,
                                        warnAt := none, moved := false, stableAt := none, resetDue := none, wakeDue := none, backAt := none,
                                        rePerst := false, linkUp := false, linkSeen := false, e0Seen := false, e1Seen := false } } }

/-- A class G fault enters the grave hold: Roost turns the die off, holds FAULT_N low and keeps ALERT_N in service
(R478, R488). -/
def graveHold (s : State) : State :=
  let s := enterReset s s.dev.pwr.resetKind .grave
  s.onDev fun d => { d with roost := { d.roost with grave := true, alert := true } }

end Sys2Proof.Machine
end

