-- ==== Sys2Proof/Machine/Access.lean ====
section
/-! DEFINITION. Access tables: the code of a master at a target, the check of an access, and its denial (R431 to R439). -/

namespace Sys2Proof.Machine

/-- The access code that the standard image gives master m at target t: 0 NONE, 1 READ, 2 READ_WRITE, 3 CONDITIONAL
(R437). -/
def stdCode (t m : Nat) : Nat :=
  let internal := inRange m 0xD0 0xFC
  let vf := inRange m 1 0xC0
  if t = 0 ∨ t = 33 ∨ t = 35 then (if m = 0 ∨ m = 0xFF ∨ internal then 2 else if m = 0xFE then 1 else 0)
  else if t = 27 ∨ t = 30 ∨ t = 32 ∨ t = 36 then (if m = 0 ∨ m = 0xFF ∨ internal then 2 else if vf then 3 else 0)
  else if t ≤ 34 then (if m = 0 ∨ m = 0xFF ∨ internal then 2 else 0)
  else if t < 64 then 0
  else if t < 64 + 136 then (if m = 0 ∨ m = 0xFF ∨ internal then 2 else if vf then 3 else 0)
  else if t < 64 + 240 then (if m = 0xFF ∨ internal then 2 else 0)
  else if t < 320 then 0
  else if t < 896 then (if m = 0 ∨ internal then 2 else if vf then 3 else 0)
  else 0

/-- An access table word as the standard image writes it (R433). -/
def stdAccWord (t w : Nat) : Word :=
  word ((List.range 32).foldl (fun n i => n + stdCode t (32 * w + i) * 4 ^ i) 0)

/-- Word w of the access table of target t. -/
def accWord (d : Dev) (t w : Nat) : Word :=
  match d.acc.get none (rAccWord t w) with
  | some v => v
  | none => if d.accStd then stdAccWord t w else 0

/-- The code of master m at target t. -/
def accCode (d : Dev) (t m : Nat) : Nat :=
  match d.acc.get none (rAccWord t (m / 32)) with
  | some v => fld v (2 * (m % 32) + 1) (2 * (m % 32))
  | none => if d.accStd then stdCode t m else 0

def accessLocked (d : Dev) : Bool := regBit d rSecLocks 62

def isGuide (m : Nat) : Bool := inRange m 0xF0 0xF3

/-- Master m is granted a read or write at target t; `inst` says that the instance is one R431 names for CONDITIONAL.
Before ACCESS_LOCK the PF and the Guide cores are granted everything and other external masters nothing (R432, R433). -/
def granted (d : Dev) (t m : Nat) (write inst : Bool) : Bool :=
  if !accessLocked d && (m == 0 || isGuide m) then true
  else if !accessLocked d && (m ≤ 0xC0 || m == 0xFE || m == 0xFF) then false
  else
    let c := accCode d t m
    c == 2 || (c == 1 && !write) || (c == 3 && inst)

/-- The instance of a BAR0 address is one that CONDITIONAL grants to master m (R431). -/
def barInst (d : Dev) (a m : Nat) : Bool :=
  if 0x400000 ≤ a ∧ a < 0x4C0000 then d.streamOwner ((a - 0x400000) / 0x1000) == m
  else if 0x650000 ≤ a ∧ a < 0x662000 then
    let c := (a - 0x650000) / 0x100
    if c < 192 then d.streamOwner c == m else d.ctxOwner (c - 192) == m
  else if 0x708000 ≤ a ∧ a < 0x738400 then (a - 0x708000) / 0x400 == m
  else if 0x800000 ≤ a ∧ a < 0x8C1000 then (a - 0x800000) / 0x1000 == m
  else false

/-- The stream that owns the target instance of a BAR0 access (R483). -/
def barStream (a : Nat) : Option Nat :=
  if 0x400000 ≤ a ∧ a < 0x4C0000 then some ((a - 0x400000) / 0x1000)
  else if 0x510000 ≤ a ∧ a < 0x51C000 then some ((a - 0x510000) / 0x100)
  else if 0x650000 ≤ a ∧ a < 0x65C000 then some ((a - 0x650000) / 0x100)
  else none

/-- A denied access: counted, recorded, and a class C fault of source 1268 (R439). `kind`: 0 read, 1 write, 2 command. -/
def deny (d : Dev) (m kind t space addr : Nat) (stream : Option Nat) : Dev :=
  let d := incErr d rAccDenied
  let d := setReg d rAccLastDeny (word (m % 256 * 2 ^ 56 + kind % 256 * 2 ^ 48 + t % 1024 * 2 ^ 28))
  let d := setReg d rAccLastAddr (word addr)
  raiseFault d 0 1268 1 0 0 { master := m, access := kind + 1, space := space, addr := addr, stream := stream }

/-- An access to BAR0 address a by master m is granted; an address in no target's range needs no grant (R434, R539). -/
def barGranted (d : Dev) (m a : Nat) (write : Bool) : Bool :=
  match (regAt a).1 with
  | none => true
  | some t => granted d t m write (barInst d a m)

/-- The denial of a BAR0 access. -/
def barDeny (d : Dev) (m a : Nat) (write : Bool) : Dev :=
  deny d m write.toNat ((regAt a).1.getD 0) 2 a (barStream a)

/-- A 64-bit write to BAR0: access check, then width (R541, R546), then the register's own effect. A narrower write is
discarded and counted. -/
def barGate (s : State) (m a : Nat) (wide : Bool) (effect : State → State) : State :=
  if !alive s.dev then s
  else if !barGranted s.dev m a true then s.onDev fun d => barDeny d m a true
  else if !wide || a % 8 != 0 then s.onDev fun d => incErr d rGlbNarrow
  else effect s

/-- Master m may read or write device memory window k (R431, R436). -/
def winGranted (d : Dev) (m k : Nat) (write : Bool) : Bool :=
  k < 256 && granted d (64 + k) m write (regBit d (rWinAssign k) 63 && regFld d (rWinAssign k) 7 0 == m)

/-- The windows an extent of device memory touches. -/
def windowsOf (a len : Nat) : List Nat :=
  if len = 0 then [] else
    (List.range ((a + len - 1) / Config.windowBytes - a / Config.windowBytes + 1)).map fun i => a / Config.windowBytes + i

/-- Master m may access the whole extent; addresses that are not backed are denied (R408, R434, R435). -/
def memGranted (d : Dev) (m a len : Nat) (write : Bool) : Bool :=
  decide (a + len ≤ Config.memBytes) && (windowsOf a len).all fun k => winGranted d m k write

/-- The first window of an extent that is denied: the target of the denial. -/
def deniedWindow (d : Dev) (m a len : Nat) (write : Bool) : Nat :=
  64 + (((windowsOf a len).find? fun k => !winGranted d m k write).getD (a / Config.windowBytes))

/-- A command refused with DENIED by an access table (R439). -/
def denyCommand (s : State) (p : Pkt) (t : Nat) (stream : Option Nat := none) : State × Answer :=
  refuse (s.onDev fun d => deny d p.fn 2 t 3 p.target stream) p stDenied

/-- Master m may act on key slot k: a loaded slot is one it loaded, or the slot is EMPTY (R431). -/
def keyGranted (d : Dev) (m k : Nat) (write : Bool) : Bool :=
  granted d (576 + k / 64) m write ((d.key k).kind == 0 || (d.key k).loader == m)

/-- Master m may act on recipient r, whose entry names `stream` (R431). -/
def recipGranted (d : Dev) (m r stream : Nat) (write : Bool) : Bool :=
  granted d (320 + r / 64) m write (d.streamOwner stream == m)

end Sys2Proof.Machine
end

