-- ==== Sys2Proof/Machine/Raster.lean ====
section
/-! DEFINITION. The geometry of a stream: superblocks, bands, parts, thresholds, times, loads, the bounds on header
bytes and superblocks (R22 to R26, R47, R52, R55, R108 to R111, R129, R134, R144, R575), and the limits of STREAM.OPEN
and RATE.SET. -/

namespace Sys2Proof.Machine

/-! ### Sizes -/

/-- Superblock columns and rows of a picture (R22). -/
def StreamCfg.wsb (c : StreamCfg) : Nat := ceilDiv c.width 64
def StreamCfg.hsb (c : StreamCfg) : Nat := ceilDiv c.height 64

/-- Bands per picture (R390). -/
def StreamCfg.bands (c : StreamCfg) : Nat := ceilDiv c.hsb c.bandRows

/-- First superblock row of band b, and its superblock rows. -/
def StreamCfg.firstRow (c : StreamCfg) (b : Nat) : Nat := b * c.bandRows
def StreamCfg.rowsOf (c : StreamCfg) (b : Nat) : Nat := min c.bandRows (c.hsb - b * c.bandRows)

/-- Superblocks of band b. -/
def StreamCfg.sbOf (c : StreamCfg) (b : Nat) : Nat := c.rowsOf b * c.wsb

/-- The threshold of band b under GUARD_ROWS (R47). -/
def StreamCfg.threshold (c : StreamCfg) (guard b : Nat) : Nat :=
  min (min (64 * (c.firstRow b + c.rowsOf b)) c.height + guard) c.height

/-- Superblock rows of a band as its band time counts them: BAND_ROWS, at most those of the picture. -/
def StreamCfg.rowsPerBand (c : StreamCfg) : Nat := min c.bandRows c.hsb

/-- One frame time in ns, truncated. -/
def StreamCfg.frameNs (c : StreamCfg) : Nat := 1000000000 * c.rateDen / c.rateNum

/-- Band time in ns, truncated (R37, R390). -/
def StreamCfg.bandNs (c : StreamCfg) : Nat := 1000000000 * c.rateDen * c.rowsPerBand / (c.rateNum * c.hsb)

/-- Tile columns of the picture: AV1 has two above a coded width of 4,096 (R111). -/
def StreamCfg.tileCols (c : StreamCfg) : Nat := if c.codec = 0 ∧ 4096 < 64 * c.wsb then 2 else 1

/-- The load of R22; `vn` over `vd` is the Vein fraction. -/
def StreamCfg.loadOf (c : StreamCfg) (vn vd : Nat) : Nat :=
  ceilDiv (c.wsb * c.hsb * c.rateNum * (100 * vd + 35 * vn)) (c.rateDen * 100 * vd)

/-- Bands of part p of k: they go round-robin in raster order (R25). -/
def bandsOfPart (bands k p : Nat) : Nat := (bands + k - 1 - p) / k

/-- Loads of the k parts of a load (R25). -/
def partLoads (load bands k : Nat) : List Nat := (List.range k).map fun p => ceilDiv (load * bandsOfPart bands k p) bands

/-- A split into k parts is possible: every part's load is within a Gallery and the picture has k bands (R25). -/
def splitFits (load bands k : Nat) : Bool :=
  decide (k ≤ bands) && (partLoads load bands k).all fun l => decide (l ≤ Config.galleryCapacity)

/-- The number of parts: the smallest of 1, 2 and 4 that fits (R25). -/
def splitOf (load bands : Nat) : Option Nat := [1, 2, 4].find? fun k => splitFits load bands k

/-! ### Bounds (R129, R144, R575) -/

/-- Bytes of an all-skip superblock at most (R129). -/
def skipBound (codec : Nat) : Nat := if codec = 0 then 4 else 2

/-- Bytes of an intra-floor superblock at most (R144). -/
def intraBound (codec : Nat) : Nat := if codec = 0 then 6 else if codec = 1 then 3 else 10

/-- The bound on the header bytes of a band (R575, R123, R125): band 0 of a key frame, band 0 of another picture, any
later band. -/
def StreamCfg.hdrBound (c : StreamCfg) (b : Nat) (key : Bool) : Nat :=
  let left := if c.tileCols = 2 then 4 else 0
  if c.codec = 0 then
    (if b = 0 then 2 + (if key then 48 else 0) + 125 else if c.redundantHdr then 125 else 0) + 7 + left
  else if c.codec = 1 then
    (if b = 0 then (if key then 7 + 48 + 160 + 32 + 32 + 24 else 7 + 24) else 0) + 80
  else (if b = 0 then (if key then 6 + 128 + 24 + 24 + 16 else 6 + 16) else 0) + 48

/-- Tiles of a band, or its one slice. -/
def StreamCfg.tiles (c : StreamCfg) : Nat := c.tileCols

/-- The floor cost of a band of n superblocks with given header bytes (R144). -/
def StreamCfg.floorBits (c : StreamCfg) (hdr n : Nat) (key : Bool) : Nat :=
  8 * (hdr + n * (if key then intraBound c.codec else skipBound c.codec) + 4 * c.tiles)

/-- The intra floor of the whole picture (R134). -/
def StreamCfg.intraFloor (c : StreamCfg) : Nat :=
  (List.range c.bands).foldl (fun n b => n + c.floorBits (c.hdrBound b true) (c.sbOf b) true) 0

/-! ### Rate parameters (R134, R165) -/

/-- Bits of one frame interval at HRD_RATE. -/
def StreamCfg.rt (c : StreamCfg) (hrdRate : Nat) : Nat := hrdRate * c.rateDen / c.rateNum

/-- The three rate words as parameters, zero fields read as R134 says. -/
def StreamCfg.rateOf (c : StreamCfg) (w1 w2 w3 : Word) : RateParams :=
  let hrd := fld w1 31 0
  let nz := fun v dflt => if v = 0 then dflt else v
  { mode := fld w1 63 62, aim := nz (fld w1 55 48) 192, keyMult := nz (fld w1 47 40) 4, dryMin := nz (fld w1 39 32) 16
    hrdRate := hrd, hrdBuf := nz (fld w2 63 32) (2 * c.rt hrd), targetRate := nz (fld w2 31 0) (3 * hrd / 4)
    cqQ := fld w3 63 56, qpMin := fld w3 55 48, qpMax := fld w3 47 40 }

/-- Reserved bits of the rate words are zero. -/
def rateWordsOk (w1 w2 w3 : Word) : Bool :=
  within w1 (ones 63 62 ||| ones 55 0) && within w2 allOnes && within w3 (ones 63 40)

/-- TARGET_RATE is within its limits (R134). -/
def StreamCfg.targetOk (c : StreamCfg) (target hrdRate : Nat) : Bool :=
  decide (2 * c.intraFloor * c.rateNum ≤ target * c.rateDen) && decide (target ≤ hrdRate)

/-- The level limits of the named standards at the highest level and tier of R108: HEVC 6.2 High tier, AVC 5.2. An AV1
stream past every level signals seq_level_idx 31 (PRESUMED: the numbers are the standards'; notes/assumptions/11.md). -/
def StreamCfg.levelOk (c : StreamCfg) (hrdRate hrdBuf : Nat) : Bool :=
  let pic := 64 * c.wsb * (64 * c.hsb)
  if c.codec = 0 then true
  else if c.codec = 1 then
    decide (pic ≤ 35651584) && decide (pic * c.rateNum ≤ 4278190080 * c.rateDen) && decide (hrdRate ≤ 880000000)
      && decide (hrdBuf ≤ 880000000)
  else
    decide (64 * c.wsb ≤ 4096) && decide (64 * c.hsb ≤ 2304) && decide (pic / 256 * c.rateNum ≤ 2073600 * c.rateDen)
      && decide (hrdRate ≤ 360000000) && decide (hrdBuf ≤ 360000000)

/-- Rate parameters meet every limit of R134 and R109. -/
def StreamCfg.rateOk (c : StreamCfg) (p : RateParams) : Bool :=
  decide (p.mode ≤ 2) && inRange p.hrdRate 100000 2000000000 && inRange p.hrdBuf (c.rt p.hrdRate) 2147483647
    && decide (p.cqQ ≤ 51) && decide (p.qpMin ≤ p.qpMax) && decide (p.qpMax ≤ 51) && inRange p.aim 64 255
    && inRange p.keyMult 1 16 && inRange p.dryMin 1 255 && decide (2 * c.intraFloor ≤ c.rt p.hrdRate)
    && c.targetOk p.targetRate p.hrdRate && c.levelOk p.hrdRate p.hrdBuf

/-! ### STREAM.OPEN (R390) -/

/-- Bytes of one luma or RGB row of a source format (R61). -/
def rowBytes (fmt w : Nat) : Nat :=
  if fmt = 1 then w else if fmt = 2 then ceilDiv w 4 * 5 else if fmt = 3 then 2 * w else 4 * w

/-- A source format with a chroma plane. -/
def planar (fmt : Nat) : Bool := fmt == 1 || fmt == 2 || fmt == 3

/-- The configuration that the words of STREAM.OPEN spell. -/
def cfgOf (p : Pkt) : StreamCfg :=
  { codec := p.f 1 63 60, profile := p.f 1 59 56, depth := p.f 1 55 52, srcFormat := p.f 1 51 44, matrix := p.b 1 43
    fullRange := p.b 1 42, hintNeg := p.b 1 41, palette := p.b 1 40, redundantHdr := p.b 1 39, bandRows := p.f 1 35 32 + 1
    rateNum := p.f 1 31 16, rateDen := p.f 1 15 0, width := p.f 2 63 48, height := p.f 2 47 32, refSlots := p.f 2 31 28
    slotCount := p.f 2 27 24, ringBase := (p.w 3).toNat, slotStride := p.f 4 63 32, lumaPitch := p.f 4 31 0
    chromaOffset := p.f 5 63 32, chromaPitch := p.f 5 31 0, hintOffset := p.f 6 63 32 }

/-- Hints are on. -/
def StreamCfg.hints (c : StreamCfg) : Bool := c.hintOffset != two32 - 1

/-- Hint words of a row and hint rows of the picture (R68). -/
def StreamCfg.hintCols (c : StreamCfg) : Nat := ceilDiv c.width 16
def StreamCfg.hintRows (c : StreamCfg) : Nat := ceilDiv c.height 16

/-- The bytes of a slot that its planes and hints take. -/
def StreamCfg.slotEnd (c : StreamCfg) : Nat :=
  max (c.lumaPitch * c.height)
    (max (if planar c.srcFormat then c.chromaOffset + c.chromaPitch * (c.height / 2) else 0)
      (if c.hints then c.hintOffset + 64 + 8 * c.hintCols * c.hintRows else 0))

/-- The source ring meets R64. -/
def StreamCfg.ringOk (c : StreamCfg) : Bool :=
  c.ringBase % 4096 == 0 && inRange c.slotCount 3 8 && c.slotStride % 4096 == 0 && decide (c.slotEnd ≤ c.slotStride)
    && c.lumaPitch % 256 == 0 && decide (rowBytes c.srcFormat c.width ≤ c.lumaPitch)
    && (!planar c.srcFormat || c.chromaOffset % 256 == 0) && c.chromaPitch % 256 == 0
    && (!c.hints || c.hintOffset % 64 == 0)

/-- Codec, profile and depth are a row of R108. -/
def StreamCfg.profileOk (c : StreamCfg) : Bool :=
  if c.codec = 0 then c.profile == 0 && (c.depth == 8 || c.depth == 10)
  else if c.codec = 1 then (c.profile == 0 && c.depth == 8) || (c.profile == 1 && (c.depth == 8 || c.depth == 10))
  else if c.codec = 2 then decide (c.profile ≤ 1) && c.depth == 8
  else false

/-- The declarations of STREAM.OPEN meet their limits, but for the rate words (R26, R61, R64, R87, R108, R111, R390). -/
def StreamCfg.ok (c : StreamCfg) : Bool :=
  c.profileOk && [1, 2, 3, 0x10, 0x11].contains c.srcFormat && decide (1 ≤ c.rateNum) && decide (1 ≤ c.rateDen)
    && inRange c.width 16 8192 && inRange c.height 16 8192 && c.width % 8 == 0 && c.height % 2 == 0
    && inRange c.refSlots 2 8 && c.ringOk && decide (c.rateNum ≤ 240 * c.rateDen)
    && decide (c.loadOf 0 1 ≤ 1000000) && (splitOf (c.loadOf 0 1) c.bands).isSome
    && (c.codec != 0 || decide (c.bands ≤ 64))

/-- Reserved bits of words 1, 2 and 6 are zero. -/
def openWordsOk (p : Pkt) : Bool :=
  within (p.w 1) (ones 63 39 ||| ones 35 0) && within (p.w 2) (ones 63 24) && within (p.w 6) (ones 63 32)
    && rateWordsOk (p.w 7) (p.w 8) (p.w 9)

/-! ### Store units (R86, R455) -/

/-- Bytes of one store unit for a picture size. -/
def storeUnit (w h : Nat) : Nat :=
  let cw := ceilDiv w 64 * 64
  let ch := ceilDiv h 64 * 64
  let samples := cw * ch * 3 / 2
  let n := samples / 128 * 160 + ceilDiv (samples / 128) 2 + cw / 8 * (ch / 8) * 4 + ceilDiv (cw / 64 * (ch / 64)) 8
  ceilDiv n 65536 * 65536

/-- The lowest address from `at_` at which `size` bytes fit before `lim`, past the allocations of a sorted list. -/
def firstFit (l : List (Nat × Nat × Nat)) (at_ size lim : Nat) : Option Nat :=
  match l with
  | [] => if at_ + size ≤ lim then some at_ else none
  | (b, n, _) :: r => if at_ + size ≤ b then some at_ else firstFit r (max at_ (b + n)) size lim

/-- Inserts an allocation in order of address. -/
def addAlloc (l : List (Nat × Nat × Nat)) (x : Nat × Nat × Nat) : List (Nat × Nat × Nat) :=
  match l with
  | [] => [x]
  | y :: r => if x.1 < y.1 then x :: y :: r else y :: addAlloc r x

/-- Allocates each size in turn from a memory region; none: no room, nothing allocated. -/
def allocate (d : Dev) (region owner : Nat) (sizes : List Nat) : Option Dev :=
  let r := reg d (rMemRegion region)
  let lo := fld r 55 48 * Config.windowBytes
  let hi := (fld r 39 32 + 1) * Config.windowBytes
  if !bit r 63 then none
  else
    sizes.foldl (fun d? n => d?.bind fun d =>
      (firstFit (d.allocs.filter fun a => decide (lo ≤ a.1)) lo n hi).map fun a =>
        { d with allocs := addAlloc d.allocs (a, n, owner) }) (some d)

/-- Returns an owner's allocations. -/
def deallocate (d : Dev) (owner : Nat) : Dev := { d with allocs := d.allocs.filter fun a => a.2.2 != owner }

/-! ### Placement (R23, R24, R27, R29) -/

/-- A Gallery that is neither retired nor kept out of service by its images (R234, R236, R94). -/
def healthy (d : Dev) (g : Nat) : Bool := decide (g < 26) && !retired d g && !(d.gal g).unwell

/-- Loads and slots placed on Gallery g. -/
def placedOn (d : Dev) (g : Nat) : List Nat :=
  (d.streams.map fun e => (e.2.parts.filter fun q => q.gal == g).map fun q => q.load).flatten

/-- Sum of a list of loads. -/
def total (l : List Nat) : Nat := l.foldl (· + ·) 0

/-- A reserve Gallery (R24); a held one becomes one once its ADMIT_HOLD clears (R498). -/
def isReserve (d : Dev) (g : Nat) : Bool := healthy d g && !admitHold d g && (placedOn d g).isEmpty

def reserves (d : Dev) : Nat := ((List.range 26).filter fun g => isReserve d g).length

/-- Room of a Gallery for a load, with a slot free (R23). -/
def roomFor (d : Dev) (g load : Nat) : Bool :=
  decide ((placedOn d g).length < Config.gallerySlots) && decide (total (placedOn d g) + load ≤ Config.galleryCapacity)

/-- The Gallery of a list with the least room left; ties: the lowest number. -/
def fullest (d : Dev) (l : List Nat) : Option Nat :=
  l.foldl (fun best g =>
    match best with
    | none => some g
    | some h => if total (placedOn d h) < total (placedOn d g) then some g else some h) none

/-- The Gallery that R27 gives a part of this load, a held one excluded while the supply warning lasts (R29); `spare` lets the last two reserve Galleries be taken (R238). -/
def choose (d : Dev) (n load : Nat) (spare : Bool) : Option Nat :=
  let mine := (d.stream n).parts.map fun q => q.gal
  let fits := (List.range 26).filter fun g => healthy d g && !(admitHold d g && supplyWarning d) && !mine.contains g && roomFor d g load
  match fullest d (fits.filter fun g => !(placedOn d g).isEmpty) with
  | some g => some g
  | none => if spare || decide (2 < reserves d) then fits.find? fun g => isReserve d g else none

/-- The number of the next admission. -/
def nextOrder (d : Dev) : Nat :=
  d.streams.foldl (fun n e => e.2.parts.foldl (fun n q => max n (q.order + 1)) n) 0

/-- The lowest context slot of Gallery g that holds no part (DESIGN CHOICE, notes/assumptions/21.md). -/
def freeSlot (d : Dev) (g : Nat) : Nat :=
  let used := (d.streams.map fun e => (e.2.parts.filter fun q => q.gal == g).map fun q => q.slot).flatten
  ((List.range 8).find? fun i => !used.contains i).getD 0

/-- Places the parts of stream n in turn, largest first; none: nothing is placed. -/
def placeParts (d : Dev) (n order : Nat) (loads : List Nat) : Option Dev :=
  loads.foldl (fun d? l => d?.bind fun d =>
    (choose d n l false).map fun g =>
      d.onStream n fun s => { s with parts := s.parts ++ [{ gal := g, load := l, order := order, slot := freeSlot d g }] }) (some d)

/-- The placement of R27. -/
def place (d : Dev) (n : Nat) (loads : List Nat) : Option Dev :=
  if reserves d < 2 then none else placeParts d n (nextOrder d) loads

/-! ### Phase advice (R55) -/

/-- Two streams have one frame rate and one band time. -/
def samePhase (a b : StreamCfg) : Bool :=
  a.rateNum * b.rateDen == b.rateNum * a.rateDen
    && a.rateDen * a.rowsPerBand * b.rateNum * b.hsb == b.rateDen * b.rowsPerBand * a.rateNum * a.hsb

/-- Orders of the slots of stream n's phase group on Gallery g. -/
def phaseGroup (d : Dev) (c : StreamCfg) (g : Nat) : List Nat :=
  ((d.streams.filter fun e => samePhase e.2.cfg c).map fun e =>
    (e.2.parts.filter fun q => q.gal == g).map fun q => q.order).flatten

/-- The advice that stream n shows: its `LANTERN_PHASE`. DESIGN CHOICE (notes/assumptions/82.md): an OFFSET_NS that lies half-way between
whole ns is rounded up. -/
def phaseWord (d : Dev) (s : Stream) : Word :=
  match s.parts with
  | [] => 0
  | q :: _ =>
    let os := phaseGroup d s.cfg q.gal
    let slot := (os.filter fun o => decide (o < q.order)).length
    let den := s.cfg.rateNum * s.cfg.hsb * os.length
    let off := (2 * slot * (1000000000 * s.cfg.rateDen * s.cfg.rowsPerBand) + den) / (2 * den)
    word (2 ^ 63 + slot % 8 * 2 ^ 32 + off % two32)

/-- Recomputes the advice; every stream whose shown advice changed raises PHASE (R55, R58). DESIGN CHOICE
(notes/assumptions/82.md): `LANTERN_PHASE` of a stream without parts, closed or not yet placed, shows no advice (0, VALID 0) and raises
no PHASE. -/
def rephase (d : Dev) : Dev :=
  each (List.range 192) d fun d n =>
    let w := phaseWord d (d.stream n)
    if reg d (rLan n oLanPhase) = w then d
    else
      let d := setReg d (rLan n oLanPhase) w
      if (d.stream n).parts.isEmpty then d else raise d (4 * n) 5

/-- `GAL_STATUS` LOAD and SLOTS come from the placement; the stored word keeps the rest. -/
def galSlots (d : Dev) (g : Nat) : Nat := (placedOn d g).length
def galLoad (d : Dev) (g : Nat) : Nat := total (placedOn d g)

end Sys2Proof.Machine
end

