-- ==== Sys2Proof/Machine/Levels.lean ====
section
/-! DEFINITION. The level and tier that a stream signals (R108 to R111). The limits are those of the named standards (PRESUMED,
notes/assumptions/11.md). -/

namespace Sys2Proof.Machine

/-- The limits of a level: what it signals; picture size, sample rate (AVC: in macroblocks); bit rate and buffer of the main and of the
high tier; tiles or slices in a picture; AV1: the largest width and height; AVC: SliceRate, 0 where the level has none. -/
structure Level where
  signal : Nat
  size : Nat
  width : Nat := 0
  height : Nat := 0
  sliceRate : Nat := 0
  rate : Nat
  mainRate : Nat
  highRate : Nat
  mainBuf : Nat
  highBuf : Nat
  pieces : Nat
deriving DecidableEq, Repr

/-- An AV1 level by seq_level_idx, its bit rates in kbit/s: its buffer is one second of them (R109). -/
def av1Level (idx width height size rate main high tiles : Nat) : Level :=
  { signal := idx, width := width, height := height, size := size, rate := rate, mainRate := main * 1000, highRate := high * 1000, mainBuf := main * 1000
    highBuf := high * 1000, pieces := tiles }

/-- An HEVC level by level_idc, bit rate and buffer in units of 1,100 bits, as its NAL HRD counts them. -/
def hevcLevel (idc size rate main high cpbMain cpbHigh slices : Nat) : Level :=
  { signal := idc, size := size, rate := rate, mainRate := main * 1100, highRate := high * 1100, mainBuf := cpbMain * 1100
    highBuf := cpbHigh * 1100, pieces := slices }

/-- An AVC level by level_idc, in units of 1,500 bits, as the NAL HRD of the High profiles counts them; AVC has one tier. -/
def avcLevel (idc size rate br cpb sliceRate : Nat) : Level :=
  { signal := idc, size := size, sliceRate := sliceRate, rate := rate, mainRate := br * 1500, highRate := 0, mainBuf := cpb * 1500, highBuf := 0, pieces := 65536 }

def av1Levels : List Level :=
  [ av1Level 0 2048 1152 147456 4423680 1500 0 8, av1Level 1 2816 1584 278784 8363520 3000 0 8
  , av1Level 4 4352 2448 665856 19975680 6000 0 16, av1Level 5 5504 3096 1065024 31950720 10000 0 16
  , av1Level 8 6144 3456 2359296 70778880 12000 30000 32, av1Level 9 6144 3456 2359296 141557760 20000 50000 32
  , av1Level 12 8192 4352 8912896 267386880 30000 100000 64, av1Level 13 8192 4352 8912896 534773760 40000 160000 64
  , av1Level 14 8192 4352 8912896 1069547520 60000 240000 64, av1Level 15 8192 4352 8912896 1069547520 60000 240000 64
  , av1Level 16 16384 8704 35651584 1069547520 60000 240000 128, av1Level 17 16384 8704 35651584 2139095040 100000 480000 128
  , av1Level 18 16384 8704 35651584 4278190080 160000 800000 128, av1Level 19 16384 8704 35651584 4278190080 160000 800000 128 ]

def hevcLevels : List Level :=
  [ hevcLevel 30 36864 552960 128 0 350 0 16, hevcLevel 60 122880 3686400 1500 0 1500 0 16
  , hevcLevel 63 245760 7372800 3000 0 3000 0 20, hevcLevel 90 552960 16588800 6000 0 6000 0 30
  , hevcLevel 93 983040 33177600 10000 0 10000 0 40, hevcLevel 120 2228224 66846720 12000 30000 12000 30000 75
  , hevcLevel 123 2228224 133693440 20000 50000 20000 50000 75, hevcLevel 150 8912896 267386880 25000 100000 25000 100000 200
  , hevcLevel 153 8912896 534773760 40000 160000 40000 160000 200, hevcLevel 156 8912896 1069547520 60000 240000 60000 240000 200
  , hevcLevel 180 35651584 1069547520 60000 240000 60000 240000 600, hevcLevel 183 35651584 2139095040 120000 480000 120000 480000 600
  , hevcLevel 186 35651584 4278190080 240000 800000 240000 800000 600 ]

def avcLevels : List Level :=
  [ avcLevel 10 99 1485 64 175 0, avcLevel 9 99 1485 128 350 0, avcLevel 11 396 3000 192 500 0, avcLevel 12 396 6000 384 1000 0
  , avcLevel 13 396 11880 768 2000 0, avcLevel 20 396 11880 2000 2000 0, avcLevel 21 792 19800 4000 4000 0
  , avcLevel 22 1620 20250 4000 4000 0, avcLevel 30 1620 40500 10000 10000 22, avcLevel 31 3600 108000 14000 14000 60
  , avcLevel 32 5120 216000 20000 20000 60, avcLevel 40 8192 245760 20000 25000 60, avcLevel 41 8192 245760 50000 62500 24
  , avcLevel 42 8704 522240 50000 62500 24, avcLevel 50 22080 589824 135000 135000 24, avcLevel 51 36864 983040 240000 240000 24
  , avcLevel 52 36864 2073600 240000 240000 24 ]

def levelsOf (codec : Nat) : List Level := if codec = 0 then av1Levels else if codec = 1 then hevcLevels else avcLevels

/-- The level holds a coded width and height: those of AV1; in HEVC and AVC the square of either is at most eight times the picture size. -/
def Level.sideHolds (l : Level) (c : StreamCfg) : Bool :=
  let u := if c.codec = 2 then 16 else 1
  let w := 64 * c.wsb / u
  let h := 64 * c.hsb / u
  if c.codec = 0 then decide (w ≤ l.width) && decide (h ≤ l.height) else decide (w * w ≤ 8 * l.size) && decide (h * h ≤ 8 * l.size)

/-- The level holds the slices of a picture: at most its macroblocks in a picture's time over its SliceRate. -/
def Level.slicesHold (l : Level) (c : StreamCfg) : Bool := decide (c.bands * l.sliceRate * c.rateNum ≤ l.rate * c.rateDen)

/-- The level holds the coded size, the coded sample rate and the tiles or slices of R111. -/
def Level.holds (l : Level) (c : StreamCfg) : Bool :=
  let unit := if c.codec = 2 then 256 else 1
  let size := 64 * c.wsb * (64 * c.hsb) / unit
  decide (size ≤ l.size) && decide (size * c.rateNum ≤ l.rate * c.rateDen) && decide (c.bands * c.tileCols ≤ l.pieces)
    && l.sideHolds c && l.slicesHold c

/-- The HRD rate and buffer of a stream are within the tier. -/
def Level.tierHolds (l : Level) (high : Bool) (p : RateParams) : Bool :=
  decide (p.hrdRate ≤ if high then l.highRate else l.mainRate) && decide (p.hrdBuf ≤ if high then l.highBuf else l.mainBuf)

/-- The level and tier that a stream signals: the lowest level, and in it the lower tier; an AV1 stream past every level signals
seq_level_idx 31 (R109). -/
def StreamCfg.levelOf (c : StreamCfg) (p : RateParams) : Nat × Bool :=
  match (levelsOf c.codec).find? fun l => l.holds c && (l.tierHolds false p || l.tierHolds true p) with
  | some l => (l.signal, !l.tierHolds false p)
  | none => (31, false)

end Sys2Proof.Machine
end

