-- ==== Sys2Proof/Machine/Standards.lean ====
section
/-! DEFINITION. The arithmetic of the AV1, HEVC and AVC standards that the spec names and does not restate, and what an implementation
of the Gallery chooses: free values without body (notes/assumptions/84.md). `codec` is 0 AV1, 1 HEVC, 2 AVC; a plane is 0 luma, 1 Cb,
2 Cr. -/

namespace Sys2Proof.Config

open Sys2Proof.Machine

/-! ### Prediction -/

/-- Bits of a motion vector beside the final vectors of its neighbours. -/
opaque vectorBits (codec : Nat) (v : Mv) (near : List Mv) : Nat

/-- The vectors that the codec derives for a block from the blocks coded before it in its band and tile: merge and predicted vectors,
NEAREST and NEAR. -/
opaque derivedVectors (codec : Nat) (before : List Blk) (x y w h : Nat) : List Mv

/-- A sample of a plane at a fractional position: whole sample x and y, eighths of a sample, and the plane's samples. -/
opaque fractional (codec depth : Nat) (sample : Int → Int → Nat) (x y : Int) (fx fy : Nat) : Nat

/-- A sample of an intra prediction: the block, its plane, the reconstructed neighbours (none: not available), the block's own
reconstructed luma samples, row by row, which a chroma plane predicted from luma takes, and the sample's place. -/
opaque intra (codec depth : Nat) (b : Blk) (plane : Nat) (near : Int → Int → Option Nat) (luma : List Nat) (dx dy : Nat) : Nat

/-- The colours of a palette of a size for a block's luma samples. -/
opaque palette (depth size : Nat) (samples : List Nat) : List Nat

/-! ### Transform and entropy coding -/

/-- Transform choices of a block of a size; the codec's own order. -/
opaque transforms (codec w h : Nat) (intra : Bool) : List Nat

/-- The coefficients of a residual. -/
opaque coefficients (codec tx w h : Nat) (residual : List Int) : List Int

/-- The residual that levels give at a quantiser. -/
opaque residual (codec depth q tx w h : Nat) (levels : List Int) : List Int

/-- The quantisation step of a coefficient at a quantiser. -/
opaque step (codec depth q i : Nat) : Nat

/-- Places of the levels of a block in scan order. -/
opaque scan (codec tx w h : Nat) : List Nat

/-- The place of the DC level among a luma transform block's levels, and the luma transform blocks of a block in raster order: x, y, w,
h in the picture and the place of the first level. -/
opaque lumaTransforms (codec : Nat) (b : Blk) : List (Nat × Nat × Nat × Nat × Nat)

/-- Coded bits of a block as the entropy model estimates them, after the blocks before it. -/
opaque blockBits (codec : Nat) (before : List Blk) (b : Blk) : Nat

/-- Bytes that the entropy coder has written for the units of one tile or slice, from the codec's initial state (R82, R113), which follows
the base quantiser and the type of the slice or frame, 0 I or key, 1 P or inter, 2 B; `ended`: with the bytes that end the tile or slice. Emulation
prevention is not in them. -/
opaque entropy (codec base slice : Nat) (units : List CodedUnit) (ended : Bool) : List Byte

/-! ### In-loop filters (R83) -/

/-- A sample after deblocking: the picture's superblocks, its samples before, and the luma rows reconstructed so far; an edge at the
last of them is not filtered. The strength follows the quantisers of the superblocks. -/
opaque deblock (codec depth : Nat) (coded : Tab (Option SbCode)) (raw : Planes) (rows plane x y : Nat) : Nat

/-- The levels of the AV1 deblocking filter for a quantiser index, and preset i of CDEF for a picture: luma and chroma strengths of 6
bits. -/
opaque loopFilterLevel (qindex : Nat) (i : Fin 4) : Fin 64
opaque cdefPreset (qindex i : Nat) : Fin 64 × Fin 64
opaque cdefDamping (qindex : Nat) : Fin 4

/-- A sample after CDEF with a preset's strengths. -/
opaque cdef (depth : Nat) (preset : Fin 64 × Fin 64) (damping : Fin 4) (p : Planes) (rows plane x y : Nat) : Nat

/-- The Wiener coefficients derived from a restoration unit of the previous coded picture: its filtered samples, plane and unit. -/
opaque wienerCoefficients (prev : Planes) (plane unit : Nat) : List Int

/-- A sample after Wiener restoration. -/
opaque wiener (depth : Nat) (coefficients : List Int) (p : Planes) (rows plane x y : Nat) : Nat

/-- The SAO choices of a CTB in the codec's order, their bits, and a sample under a choice. -/
opaque saoChoices (depth : Nat) : List Nat
opaque saoBits (choice : Nat) : Nat
opaque sao (depth choice : Nat) (p : Planes) (rows plane x y : Nat) : Nat

/-! ### Ingest input -/

/-- The place at which a second access unit begins in some input bytes of a format (R131, R209). -/
opaque nextUnit (codec inFormat : Nat) (bytes : List Byte) : Option Nat

/-! ### Store and microcode -/

/-- The losslessly compressed form of a compression unit's 128 samples (R86). -/
opaque compressed (samples : List Nat) : List Byte

/-- The control store's word of 128 bits at an address, and the address that follows a microword's execution; addresses from 16,384 on
are those of the patch RAM (R92, R93). -/
opaque microcode (address : Nat) : BitVec 128
opaque nextAddress (microword : BitVec 128) (address : Nat) : Nat

/-- What a microword does beside naming the next: 1 it waits for the stage that ends its routine, 2 it is the last one of its routine
(R92). -/
opaque microwordKind (microword : BitVec 128) : Fin 3

/-- Entry addresses of the routines: 0 SEQ, 1 PIC, 2 BAND (R95). -/
opaque routineEntry (routine : Nat) : Fin 16384

/-- The bytes that staged parameters take in a band checkpoint (R160, R189). -/
opaque stagedBytes (l : List Staged) : List Byte

end Sys2Proof.Config
end

