-- ==== Sys2Proof/Machine/Headers.lean ====
section
/-! DEFINITION. The headers that the header sequencer writes for a band: their items in order, their syntax, and their bytes (R109 to
R127, R179, R575). Syntax that the spec does not fix is that of the named standards (PRESUMED, notes/assumptions/86.md). -/

namespace Sys2Proof.Machine

/-! ### Syntax elements -/

/-- How a syntax element is written: unsigned in n bits, Exp-Golomb unsigned and signed, or AV1's ns(n). -/
inductive Coding where
  | u (n : Nat)
  | ue
  | se
  | ns (n : Nat)
deriving DecidableEq, Repr

/-- A syntax element: its name in the standard, how it is written, and its value. -/
structure Elem where
  name : String
  coding : Coding
  value : Int
deriving DecidableEq, Repr

/-- The n low bits of a number, most significant first. -/
def numBits (n v : Nat) : List Bool := (List.range n).map fun i => v / 2 ^ (n - 1 - i) % 2 == 1

/-- Exp-Golomb code of v. -/
def golomb (v : Nat) : List Bool :=
  let k := Nat.log2 (v + 1)
  List.replicate k false ++ numBits (k + 1) (v + 1)

/-- AV1's code of v below n. -/
def nonSymmetric (n v : Nat) : List Bool :=
  let w := Nat.log2 n + 1
  let m := 2 ^ w - n
  if v < m then numBits (w - 1) v else numBits w (v + m)

def Elem.bits (e : Elem) : List Bool :=
  match e.coding with
  | .u n => numBits n (e.value % (2 ^ n : Nat)).toNat
  | .ue => golomb e.value.toNat
  | .se => golomb (if 0 < e.value then (2 * e.value - 1).toNat else (-2 * e.value).toNat)
  | .ns n => nonSymmetric n e.value.toNat

/-- Elements of a name, a width and a value; of one bit; Exp-Golomb coded. -/
def eu (name : String) (n v : Nat) : Elem := { name := name, coding := .u n, value := v }
def e1 (name : String) (v : Nat) : Elem := eu name 1 v
def eg (name : String) (v : Nat) : Elem := { name := name, coding := .ue, value := v }
def es (name : String) (v : Int) : Elem := { name := name, coding := .se, value := v }

def syntaxBits (l : List Elem) : List Bool := l.flatMap Elem.bits

/-- Bits as bytes, most significant first, the last filled with zeros. -/
def packBits (l : List Bool) : List Byte :=
  (List.range (ceilDiv l.length 8)).map fun i =>
    BitVec.ofNat 8 ((List.range 8).foldl (fun v k => 2 * v + (l.getD (8 * i + k) false).toNat) 0)

/-- The trailing bits of an OBU, an RBSP or an HEVC slice header: a one, then zeros to the byte's end. -/
def closeBits (l : List Elem) : List Byte := packBits (syntaxBits l ++ [true])

/-- The 4-byte leb128 form of a number below 2 to the 28 (R124). -/
def leb4 (v : Nat) : List Byte :=
  (List.range 4).map fun i => BitVec.ofNat 8 (if i < 3 then v / 2 ^ (7 * i) % 128 + 128 else v / 2 ^ 21 % 128)

/-- An OBU with its size field (R123). -/
def obu (header : Nat) (payload : List Byte) : List Byte := BitVec.ofNat 8 header :: leb4 payload.length ++ payload

/-- Emulation prevention: a byte 3 before any byte of at most 3 that follows two zeros (R125); z zeros stand before. -/
def emulate (z : Nat) (bs : List Byte) : List Byte :=
  match bs with
  | [] => []
  | b :: r =>
    if 2 ≤ z ∧ b.toNat ≤ 3 then 3 :: b :: emulate (if b = 0 then 1 else 0) r
    else b :: emulate (if b = 0 then z + 1 else 0) r

/-- A NAL unit behind its start code, of which a slice is only its header (R125). -/
def nal (header rbsp : List Byte) : List Byte := [0, 0, 0, 1] ++ header ++ emulate 0 rbsp

/-! ### What the headers say -/

/-- The items of a band's bitstream before its tile or slice data. -/
inductive HdrKind where
  /-- AV1 temporal delimiter, sequence header, frame header, redundant frame header, tile group header. -/
  | temporalDelimiter
  | sequenceHeader
  | frameHeader
  | redundantHeader
  | tileGroup
  /-- HEVC and AVC access unit delimiter, parameter sets, buffering period and picture timing SEI, slice header. -/
  | accessUnitDelimiter
  | vps
  | sps
  | pps
  | bufferingPeriod
  | pictureTiming
  | slice
deriving DecidableEq, Repr

/-- The items of band b, in order (R123, R125). -/
def StreamCfg.itemKinds (c : StreamCfg) (b : Nat) (key : Bool) : List HdrKind :=
  if c.codec = 0 then
    (if b = 0 then .temporalDelimiter :: (if key then [.sequenceHeader] else []) ++ [.frameHeader]
      else if c.redundantHdr then [.redundantHeader] else []) ++ [.tileGroup]
  else if b = 0 then
    [.accessUnitDelimiter] ++ (if key then (if c.codec = 1 then [.vps] else []) ++ [.sps, .pps, .bufferingPeriod] else [])
      ++ [.pictureTiming, .slice]
  else [.slice]

/-- The routine of the header sequencer that writes an item (R119). -/
inductive Routine where
  | seq
  | pic
  | band
deriving DecidableEq, Repr

def HdrKind.routine (k : HdrKind) : Routine :=
  match k with
  | .sequenceHeader => .seq
  | .vps => .seq
  | .sps => .seq
  | .bufferingPeriod => .seq
  | .temporalDelimiter => .pic
  | .frameHeader => .pic
  | .accessUnitDelimiter => .pic
  | .pps => .pic
  | .pictureTiming => .pic
  | .redundantHeader => .band
  | .tileGroup => .band
  | .slice => .band

/-- What the headers of a picture take: the stream's declarations and the picture's decision. -/
structure HdrInfo where
  c : StreamCfg
  x : PicDecision
deriving DecidableEq, Repr

def HdrInfo.key (i : HdrInfo) : Bool := i.x.kind == .key

/-- Pictures referenced, the first reference first. -/
def HdrInfo.refs (i : HdrInfo) : List Nat := if i.key then [] else i.x.first.toList ++ i.x.second.toList

def HdrInfo.codedW (i : HdrInfo) : Nat := 64 * i.c.wsb
def HdrInfo.codedH (i : HdrInfo) : Nat := 64 * i.c.hsb

/-- Colour primaries, transfer characteristics and matrix coefficients that a MATRIX declares: BT.709 1, 1, 1; BT.2020 non-constant
luminance 9, 14, 9. -/
def HdrInfo.colour (i : HdrInfo) : List Nat := if i.c.matrix then [9, 14, 9] else [1, 1, 1]

/-- The quantiser index of AV1 for a quantiser, and back, rounded half up (R159). -/
def qindexOf (q : Nat) : Nat := if q = 0 then 1 else 5 * q
def qOfIndex (x : Nat) : Nat := (2 * x + 5) / 10

/-! ### AV1 (R110, R111, R115, R118 to R121) -/

/-- Least n with 2 to the n at least k. -/
def ceilLog2 (k : Nat) : Nat := if k ≤ 1 then 0 else Nat.log2 (k - 1) + 1

/-- The colour configuration of the sequence header. -/
def av1Color (i : HdrInfo) : List Elem :=
  [e1 "high_bitdepth" (decide (i.c.depth = 10)).toNat, e1 "mono_chrome" 0, e1 "color_description_present_flag" 1]
    ++ (i.colour.zip ["color_primaries", "transfer_characteristics", "matrix_coefficients"]).map (fun p => eu p.2 8 p.1)
    ++ [e1 "color_range" i.c.fullRange.toNat, eu "chroma_sample_position" 2 1, e1 "separate_uv_delta_q" 0]

def av1Sequence (i : HdrInfo) : List Elem :=
  let l := i.c.levelOf i.x.params
  let wBits := Nat.log2 (i.codedW - 1) + 1
  let hBits := Nat.log2 (i.codedH - 1) + 1
  [ eu "seq_profile" 3 0, e1 "still_picture" 0, e1 "reduced_still_picture_header" 0, e1 "timing_info_present_flag" 1
  , eu "num_units_in_display_tick" 32 i.c.rateDen, eu "time_scale" 32 i.c.rateNum, e1 "equal_picture_interval" 0
  , e1 "decoder_model_info_present_flag" 0, e1 "initial_display_delay_present_flag" 0, eu "operating_points_cnt_minus_1" 5 0
  , eu "operating_point_idc" 12 0, eu "seq_level_idx" 5 l.1 ]
  ++ (if 7 < l.1 then [e1 "seq_tier" l.2.toNat] else [])
  ++ [ eu "frame_width_bits_minus_1" 4 (wBits - 1), eu "frame_height_bits_minus_1" 4 (hBits - 1)
     , eu "max_frame_width_minus_1" wBits (i.codedW - 1), eu "max_frame_height_minus_1" hBits (i.codedH - 1)
     , e1 "frame_id_numbers_present_flag" 0, e1 "use_128x128_superblock" 0, e1 "enable_filter_intra" 0, e1 "enable_intra_edge_filter" 1
     , e1 "enable_interintra_compound" 0, e1 "enable_masked_compound" 0, e1 "enable_warped_motion" 0, e1 "enable_dual_filter" 0
     , e1 "enable_order_hint" 1, e1 "enable_jnt_comp" 0, e1 "enable_ref_frame_mvs" 0, e1 "seq_choose_screen_content_tools" 0
     , e1 "seq_force_screen_content_tools" i.c.palette.toNat ]
  ++ (if i.c.palette then [e1 "seq_choose_integer_mv" 0, e1 "seq_force_integer_mv" 0] else [])
  ++ [eu "order_hint_bits_minus_1" 3 6, e1 "enable_superres" 0, e1 "enable_cdef" 1, e1 "enable_restoration" 1]
  ++ av1Color i ++ [e1 "film_grain_params_present" 0]

/-- The slots 0 to 7 that the seven references read: the picture's references first, then the other pictures of the store that are not
barred, the first reference again for the rest (R118). -/
def av1RefSlots (i : HdrInfo) : List Nat :=
  let slotOf := fun f => ((i.x.store.find? fun y => y.frame == f).map fun y => y.slot).getD 0
  let others := (i.x.store.filter fun y => !y.barred && !i.refs.contains y.frame).map fun y => y.slot
  let l := i.refs.map slotOf ++ others
  (List.range 7).map fun k => l.getD k (l.getD 0 0)

/-- The slot that the picture takes when it completes: a free one, else that of the picture which R178 releases. -/
def takenSlot (store : List RefPic) (slots : Nat) : Nat :=
  if store.length < slots then ((List.range slots).find? fun k => store.all fun y => y.slot != k).getD 0
  else
    match store.find? fun y => y.barred && !y.anchor with
    | some y => y.slot
    | none => ((store.find? fun y => !y.anchor).map fun y => y.slot).getD 0

/-- Widths of the tile columns, in superblocks: the left one holds the larger half (R111). -/
def StreamCfg.colWidths (c : StreamCfg) : List Nat :=
  if c.tileCols = 2 then [ceilDiv c.wsb 2, c.wsb - ceilDiv c.wsb 2] else [c.wsb]

/-- Each tile of a division, by the superblocks left and the most that a tile may have. -/
def av1Cuts (name : String) (most : Nat) (sizes : List Nat) : List Elem :=
  (sizes.foldl (fun (a : List Elem × Nat) w =>
    (a.1 ++ [{ name := name, coding := .ns (min a.2 most), value := (w - 1 : Nat) }], a.2 - w)) (([] : List Elem), total' sizes)).1
where
  total' (l : List Nat) : Nat := l.foldl (· + ·) 0

/-- Tile columns as signalled, and tile rows: each row exactly one band (R111). DESIGN CHOICE (notes/assumptions/101.md): a band taller than the
tile height that AV1 allows its tile width, which no rule refuses, is signalled all the same, its height past the range of the element. -/
def av1TileInfo (i : HdrInfo) : List Elem :=
  let c := i.c
  let rows := (List.range c.bands).map c.rowsOf
  let widest := c.colWidths.foldl max 1
  let least := max (ceilLog2 (ceilDiv c.wsb 64)) (ceilLog2 (ceilDiv (c.hsb * c.wsb) 2304))
  let area := if 0 < least then c.hsb * c.wsb / 2 ^ (least + 1) else c.hsb * c.wsb
  let bits := ceilLog2 c.tileCols + ceilLog2 c.bands
  [e1 "uniform_tile_spacing_flag" 0] ++ av1Cuts "width_in_sbs_minus_1" 64 c.colWidths
    ++ av1Cuts "height_in_sbs_minus_1" (max 1 (area / widest)) rows
    ++ (if 0 < bits then [eu "context_update_tile_id" bits 0, eu "tile_size_bytes_minus_1" 2 3] else [])

/-- Deblocking levels: they follow the quantiser. A level of 0 is signalled as 1, so that the header's size does not depend on it. -/
def av1Level4 (qindex : Nat) (k : Fin 4) : Nat := max 1 (Config.loopFilterLevel qindex k).val

/-- Skip mode could be signalled: two references at different distances. -/
def av1SkipModeAllowed (i : HdrInfo) : Bool :=
  match i.refs with
  | a :: b :: _ => a % 128 != b % 128
  | _ => false

/-- The uncompressed header of a frame (R110, R113, R115, R119, R127). -/
def av1Frame (i : HdrInfo) : List Elem :=
  let qi := qindexOf i.x.q
  let inter := !i.key
  [e1 "show_existing_frame" 0, eu "frame_type" 2 inter.toNat, e1 "show_frame" 1]
  ++ (if inter then [e1 "error_resilient_mode" 0] else [])
  ++ [e1 "disable_cdf_update" 0, e1 "frame_size_override_flag" 0, eu "order_hint" 7 (i.x.frame % 128)]
  ++ (if inter then [eu "primary_ref_frame" 3 7, eu "refresh_frame_flags" 8 (2 ^ i.x.slot), e1 "frame_refs_short_signaling" 0]
        ++ (av1RefSlots i).map (fun k => eu "ref_frame_idx" 3 k)
      else [])
  ++ [ e1 "render_and_frame_size_different" 1, eu "render_width_minus_1" 16 (i.c.width - 1), eu "render_height_minus_1" 16 (i.c.height - 1) ]
  ++ (if inter then [e1 "allow_high_precision_mv" 0, e1 "is_filter_switchable" 0, eu "interpolation_filter" 2 0, e1 "is_motion_mode_switchable" 0]
      else if i.c.palette then [e1 "allow_intrabc" 0] else [])
  ++ [e1 "disable_frame_end_update_cdf" 1] ++ av1TileInfo i
  ++ [ eu "base_q_idx" 8 qi, e1 "delta_coded" 0, e1 "delta_coded" 0, e1 "delta_coded" 0, e1 "using_qmatrix" 0, e1 "segmentation_enabled" 0
     , e1 "delta_q_present" 1, eu "delta_q_res" 2 0, e1 "delta_lf_present" 0 ]
  ++ [0, 1, 2, 3].map (fun (k : Fin 4) => eu "loop_filter_level" 6 (av1Level4 qi k))
  ++ [eu "loop_filter_sharpness" 3 0, e1 "loop_filter_delta_enabled" 0]
  ++ [eu "cdef_damping_minus_3" 2 (Config.cdefDamping qi).val, eu "cdef_bits" 2 3]
  ++ (List.range 8).flatMap (fun k =>
      [eu "cdef_y_strength" 6 (Config.cdefPreset qi k).1.val, eu "cdef_uv_strength" 6 (Config.cdefPreset qi k).2.val])
  ++ (if i.x.firstPicture then List.replicate 3 (eu "lr_type" 2 0)
      else List.replicate 3 (eu "lr_type" 2 2) ++ [e1 "lr_unit_shift" 0, e1 "lr_uv_shift" 1])
  ++ [e1 "tx_mode_select" 1] ++ (if inter then [e1 "reference_select" (decide (2 ≤ i.refs.length)).toNat] else [])
  ++ (if inter && av1SkipModeAllowed i then [e1 "skip_mode_present" 0] else [])
  ++ [e1 "reduced_tx_set" 1] ++ (if inter then List.replicate 7 (e1 "is_global" 0) else [])

/-- tg_start and tg_end of band b, byte-aligned; a picture of one tile has none (R123). -/
def av1Group (c : StreamCfg) (b : Nat) : List Byte :=
  let tiles := c.bands * c.tileCols
  if tiles ≤ 1 then []
  else
    let n := ceilLog2 tiles
    packBits (syntaxBits [e1 "tile_start_and_end_present_flag" 1, eu "tg_start" n (b * c.tileCols), eu "tg_end" n (b * c.tileCols + c.tileCols - 1)])

/-! ### HEVC (R110, R113, R114, R116, R118 to R120) -/

/-- HRD values: rate and buffer in units of 64 and of 16 bits, rounded up. -/
def hrdValues (p : RateParams) : Nat × Nat := (ceilDiv p.hrdRate 64 - 1, ceilDiv p.hrdBuf 16 - 1)

/-- Bits of the delays in SEI messages. -/
def delayBits : Nat := 24

/-- profile_tier_level of VPS and SPS. -/
def hevcProfile (i : HdrInfo) : List Elem :=
  let l := i.c.levelOf i.x.params
  let main := i.c.profile = 0
  [ eu "general_profile_space" 2 0, e1 "general_tier_flag" l.2.toNat, eu "general_profile_idc" 5 (if main then 1 else 2)
  , eu "general_profile_compatibility_flags" 32 (if main then 0x60000000 else 0x20000000)
  , e1 "general_progressive_source_flag" 1, e1 "general_interlaced_source_flag" 0, e1 "general_non_packed_constraint_flag" 0
  , e1 "general_frame_only_constraint_flag" 1, eu "general_reserved_zero_44bits" 44 0, eu "general_level_idc" 8 l.1 ]

/-- The decoded picture buffer that VPS and SPS declare (R118). -/
def hevcDpb (i : HdrInfo) : List Elem :=
  [e1 "sub_layer_ordering_info_present_flag" 1, eg "max_dec_pic_buffering_minus1" i.c.refSlots, eg "max_num_reorder_pics" 0, eg "max_latency_increase_plus1" 0]

def hevcVps (i : HdrInfo) : List Elem :=
  [ eu "vps_video_parameter_set_id" 4 0, e1 "vps_base_layer_internal_flag" 1, e1 "vps_base_layer_available_flag" 1
  , eu "vps_max_layers_minus1" 6 0, eu "vps_max_sub_layers_minus1" 3 0, e1 "vps_temporal_id_nesting_flag" 1, eu "vps_reserved_0xffff_16bits" 16 65535 ]
  ++ hevcProfile i ++ hevcDpb i
  ++ [eu "vps_max_layer_id" 6 0, eg "vps_num_layer_sets_minus1" 0, e1 "vps_timing_info_present_flag" 0, e1 "vps_extension_flag" 0]

/-- The colour part of VUI, which HEVC and AVC share (R120). -/
def vuiColour (i : HdrInfo) : List Elem :=
  [ e1 "aspect_ratio_info_present_flag" 0, e1 "overscan_info_present_flag" 0, e1 "video_signal_type_present_flag" 1, eu "video_format" 3 5
  , e1 "video_full_range_flag" i.c.fullRange.toNat, e1 "colour_description_present_flag" 1 ]
  ++ (i.colour.zip ["colour_primaries", "transfer_characteristics", "matrix_coefficients"]).map (fun p => eu p.2 8 p.1)
  ++ [e1 "chroma_loc_info_present_flag" 1, eg "chroma_sample_loc_type_top_field" 0, eg "chroma_sample_loc_type_bottom_field" 0]

/-- cbr_flag: 1 in CBR mode (R120, R133). -/
def cbrFlag (p : RateParams) : Nat := (p.mode == 0).toNat

/-- VUI of the HEVC SPS: colour, timing, NAL HRD (R120). -/
def hevcVui (i : HdrInfo) : List Elem :=
  let h := hrdValues i.x.params
  vuiColour i
  ++ [ e1 "neutral_chroma_indication_flag" 0, e1 "field_seq_flag" 0, e1 "frame_field_info_present_flag" 0, e1 "default_display_window_flag" 0
     , e1 "vui_timing_info_present_flag" 1, eu "vui_num_units_in_tick" 32 i.c.rateDen, eu "vui_time_scale" 32 i.c.rateNum
     , e1 "vui_poc_proportional_to_timing_flag" 0, e1 "vui_hrd_parameters_present_flag" 1, e1 "nal_hrd_parameters_present_flag" 1
     , e1 "vcl_hrd_parameters_present_flag" 0, e1 "sub_pic_hrd_params_present_flag" 0, eu "bit_rate_scale" 4 0, eu "cpb_size_scale" 4 0
     , eu "initial_cpb_removal_delay_length_minus1" 5 (delayBits - 1), eu "au_cpb_removal_delay_length_minus1" 5 (delayBits - 1)
     , eu "dpb_output_delay_length_minus1" 5 (delayBits - 1), e1 "fixed_pic_rate_general_flag" 0, e1 "fixed_pic_rate_within_cvs_flag" 0
     , e1 "low_delay_hrd_flag" 1, eg "bit_rate_value_minus1" h.1, eg "cpb_size_value_minus1" h.2, e1 "cbr_flag" (cbrFlag i.x.params)
     , e1 "bitstream_restriction_flag" 0 ]

def hevcSps (i : HdrInfo) : List Elem :=
  [eu "sps_video_parameter_set_id" 4 0, eu "sps_max_sub_layers_minus1" 3 0, e1 "sps_temporal_id_nesting_flag" 1] ++ hevcProfile i
  ++ [ eg "sps_seq_parameter_set_id" 0, eg "chroma_format_idc" 1, eg "pic_width_in_luma_samples" i.codedW, eg "pic_height_in_luma_samples" i.codedH
     , e1 "conformance_window_flag" 1, eg "conf_win_left_offset" 0, eg "conf_win_right_offset" ((i.codedW - i.c.width) / 2)
     , eg "conf_win_top_offset" 0, eg "conf_win_bottom_offset" ((i.codedH - i.c.height) / 2), eg "bit_depth_luma_minus8" (i.c.depth - 8)
     , eg "bit_depth_chroma_minus8" (i.c.depth - 8), eg "log2_max_pic_order_cnt_lsb_minus4" 12 ]
  ++ hevcDpb i
  ++ [ eg "log2_min_luma_coding_block_size_minus3" 0, eg "log2_diff_max_min_luma_coding_block_size" 3
     , eg "log2_min_luma_transform_block_size_minus2" 0, eg "log2_diff_max_min_luma_transform_block_size" 3
     , eg "max_transform_hierarchy_depth_inter" 1, eg "max_transform_hierarchy_depth_intra" 1, e1 "scaling_list_enabled_flag" 0
     , e1 "amp_enabled_flag" 0, e1 "sample_adaptive_offset_enabled_flag" 1, e1 "pcm_enabled_flag" 0, eg "num_short_term_ref_pic_sets" 0
     , e1 "long_term_ref_pics_present_flag" 1, eg "num_long_term_ref_pics_sps" 0, e1 "sps_temporal_mvp_enabled_flag" 0
     , e1 "strong_intra_smoothing_enabled_flag" 1, e1 "vui_parameters_present_flag" 1 ]
  ++ hevcVui i ++ [e1 "sps_extension_present_flag" 0]

/-- The PPS, whose every field is constant (R114, R116, R122). -/
def hevcPps : List Elem :=
  [ eg "pps_pic_parameter_set_id" 0, eg "pps_seq_parameter_set_id" 0, e1 "dependent_slice_segments_enabled_flag" 0, e1 "output_flag_present_flag" 0
  , eu "num_extra_slice_header_bits" 3 0, e1 "sign_data_hiding_enabled_flag" 0, e1 "cabac_init_present_flag" 0
  , eg "num_ref_idx_l0_default_active_minus1" 0, eg "num_ref_idx_l1_default_active_minus1" 0, es "init_qp_minus26" 0
  , e1 "constrained_intra_pred_flag" 0, e1 "transform_skip_enabled_flag" 0, e1 "cu_qp_delta_enabled_flag" 1, eg "diff_cu_qp_delta_depth" 0
  , es "pps_cb_qp_offset" 0, es "pps_cr_qp_offset" 0, e1 "pps_slice_chroma_qp_offsets_present_flag" 0, e1 "weighted_pred_flag" 0
  , e1 "weighted_bipred_flag" 0, e1 "transquant_bypass_enabled_flag" 0, e1 "tiles_enabled_flag" 0, e1 "entropy_coding_sync_enabled_flag" 0
  , e1 "pps_loop_filter_across_slices_enabled_flag" 1, e1 "deblocking_filter_control_present_flag" 0, e1 "pps_scaling_list_data_present_flag" 0
  , e1 "lists_modification_present_flag" 0, eg "log2_parallel_merge_level_minus2" 0, e1 "slice_segment_header_extension_present_flag" 0
  , e1 "pps_extension_present_flag" 0 ]

/-- Picture order count of a frame (R118). -/
def HdrInfo.poc (i : HdrInfo) (f : Nat) : Nat := seqAhead i.x.keyFrame f

/-- Short-term pictures of the reference picture set, the newest first, and the long-term one: the anchor. Barred pictures are left out
(R179). -/
def HdrInfo.shortTerm (i : HdrInfo) : List RefPic := (i.x.store.filter fun y => !y.barred && !y.anchor).reverse
def HdrInfo.longTerm (i : HdrInfo) : List RefPic := i.x.store.filter fun y => y.anchor && !y.barred

/-- The explicit reference picture set of a slice header. -/
def hevcRps (i : HdrInfo) : List Elem :=
  let s := i.shortTerm
  let before := i.x.frame :: s.map fun y => y.frame
  [e1 "short_term_ref_pic_set_sps_flag" 0, eg "num_negative_pics" s.length, eg "num_positive_pics" 0]
  ++ ((s.zip before).flatMap fun p =>
      [eg "delta_poc_s0_minus1" (i.poc p.2 - i.poc p.1.frame - 1), e1 "used_by_curr_pic_s0_flag" (i.refs.contains p.1.frame).toNat])
  ++ [eg "num_long_term_pics" i.longTerm.length]
  ++ i.longTerm.flatMap fun y =>
      [eu "poc_lsb_lt" 16 (i.poc y.frame), e1 "used_by_curr_pic_lt_flag" (i.refs.contains y.frame).toNat, e1 "delta_poc_msb_present_flag" 0]

/-- The slice header of band b with base quantiser q (R111, R114, R116, R119, R127). -/
def hevcSlice (i : HdrInfo) (b q : Nat) : List Elem :=
  let two := decide (2 ≤ i.refs.length)
  [e1 "first_slice_segment_in_pic_flag" (decide (b = 0)).toNat]
  ++ (if i.key then [e1 "no_output_of_prior_pics_flag" 0] else []) ++ [eg "slice_pic_parameter_set_id" 0]
  ++ (if b = 0 then [] else [eu "slice_segment_address" (ceilLog2 (i.c.wsb * i.c.hsb)) (i.c.firstRow b * i.c.wsb)])
  ++ [eg "slice_type" (if i.key then 2 else if two then 0 else 1)]
  ++ (if i.key then [] else eu "slice_pic_order_cnt_lsb" 16 (i.poc i.x.frame) :: hevcRps i)
  ++ [e1 "slice_sao_luma_flag" 1, e1 "slice_sao_chroma_flag" 1]
  ++ (if i.key then []
      else [e1 "num_ref_idx_active_override_flag" two.toNat]
        ++ (if two then [eg "num_ref_idx_l0_active_minus1" 1, eg "num_ref_idx_l1_active_minus1" 1, e1 "mvd_l1_zero_flag" 0] else [])
        ++ [eg "five_minus_max_num_merge_cand" 0])
  ++ [es "slice_qp_delta" ((q : Int) - 26), e1 "slice_loop_filter_across_slices_enabled_flag" 1]

/-! ### AVC (R110, R111, R113, R117 to R120) -/

def avcSps (i : HdrInfo) : List Elem :=
  let h := hrdValues i.x.params
  [ eu "profile_idc" 8 100, eu "constraint_set_flags" 8 (if i.c.profile = 1 then 8 else 0), eu "level_idc" 8 (i.c.levelOf i.x.params).1
  , eg "seq_parameter_set_id" 0, eg "chroma_format_idc" 1, eg "bit_depth_luma_minus8" 0, eg "bit_depth_chroma_minus8" 0
  , e1 "qpprime_y_zero_transform_bypass_flag" 0, e1 "seq_scaling_matrix_present_flag" 0, eg "log2_max_frame_num_minus4" 12
  , eg "pic_order_cnt_type" 2, eg "max_num_ref_frames" i.c.refSlots, e1 "gaps_in_frame_num_value_allowed_flag" 0
  , eg "pic_width_in_mbs_minus1" (4 * i.c.wsb - 1), eg "pic_height_in_map_units_minus1" (4 * i.c.hsb - 1), e1 "frame_mbs_only_flag" 1
  , e1 "direct_8x8_inference_flag" 1, e1 "frame_cropping_flag" 1, eg "frame_crop_left_offset" 0
  , eg "frame_crop_right_offset" ((i.codedW - i.c.width) / 2), eg "frame_crop_top_offset" 0
  , eg "frame_crop_bottom_offset" ((i.codedH - i.c.height) / 2), e1 "vui_parameters_present_flag" 1 ]
  ++ vuiColour i
  ++ [ e1 "timing_info_present_flag" 1, eu "num_units_in_tick" 32 i.c.rateDen, eu "time_scale" 32 (2 * i.c.rateNum)
     , e1 "fixed_frame_rate_flag" 0, e1 "nal_hrd_parameters_present_flag" 1, eg "cpb_cnt_minus1" 0, eu "bit_rate_scale" 4 0
     , eu "cpb_size_scale" 4 0, eg "bit_rate_value_minus1" h.1, eg "cpb_size_value_minus1" h.2, e1 "cbr_flag" (cbrFlag i.x.params)
     , eu "initial_cpb_removal_delay_length_minus1" 5 (delayBits - 1), eu "cpb_removal_delay_length_minus1" 5 (delayBits - 1)
     , eu "dpb_output_delay_length_minus1" 5 (delayBits - 1), eu "time_offset_length" 5 0, e1 "vcl_hrd_parameters_present_flag" 0
     , e1 "low_delay_hrd_flag" 1, e1 "pic_struct_present_flag" 0, e1 "bitstream_restriction_flag" 0 ]

/-- The PPS, whose every field is constant (R117, R122). -/
def avcPps : List Elem :=
  [ eg "pic_parameter_set_id" 0, eg "seq_parameter_set_id" 0, e1 "entropy_coding_mode_flag" 1
  , e1 "bottom_field_pic_order_in_frame_present_flag" 0, eg "num_slice_groups_minus1" 0, eg "num_ref_idx_l0_default_active_minus1" 0
  , eg "num_ref_idx_l1_default_active_minus1" 0, e1 "weighted_pred_flag" 0, eu "weighted_bipred_idc" 2 0, es "pic_init_qp_minus26" 0
  , es "pic_init_qs_minus26" 0, es "chroma_qp_index_offset" 0, e1 "deblocking_filter_control_present_flag" 1
  , e1 "constrained_intra_pred_flag" 0, e1 "redundant_pic_cnt_present_flag" 0, e1 "transform_8x8_mode_flag" 1
  , e1 "pic_scaling_matrix_present_flag" 0, es "second_chroma_qp_index_offset" 0 ]

/-- Pictures back in decoding order from the picture to one of the store, less one. -/
def HdrInfo.numBack (i : HdrInfo) (y : RefPic) : Nat := (i.x.num + 65536 - y.num % 65536) % 65536 - 1

/-- The reference list modification: the picture's references in order, each by its distance or as the long-term picture. An anchor is one from
the picture after that whose marking makes it so (R179). -/
def avcLists (i : HdrInfo) : List Elem :=
  let ops := i.refs.flatMap fun f =>
    match i.x.store.find? fun y => y.frame == f with
    | none => []
    | some y => if y.anchor && y.told then [eg "modification_of_pic_nums_idc" 2, eg "long_term_pic_num" 0]
      else [eg "modification_of_pic_nums_idc" 0, eg "abs_diff_pic_num_minus1" (i.numBack y)]
  [e1 "ref_pic_list_modification_flag_l0" 1] ++ ops ++ [eg "modification_of_pic_nums_idc" 3]

/-- The marking of pictures whose standing has changed since the picture before: a new anchor becomes long-term, a barred picture is
unmarked (R179). -/
def avcMarking (i : HdrInfo) : List Elem :=
  if i.key then [e1 "no_output_of_prior_pics_flag" 0, e1 "long_term_reference_flag" 0]
  else
    let ops := (i.x.store.filter fun y => !y.told).flatMap fun y =>
      if y.barred then [eg "memory_management_control_operation" 1, eg "difference_of_pic_nums_minus1" (i.numBack y)]
      else if y.anchor then
        [ eg "memory_management_control_operation" 4, eg "max_long_term_frame_idx_plus1" 1, eg "memory_management_control_operation" 3
        , eg "difference_of_pic_nums_minus1" (i.numBack y), eg "long_term_frame_idx" 0 ]
      else []
    if ops.isEmpty then [e1 "adaptive_ref_pic_marking_mode_flag" 0]
    else [e1 "adaptive_ref_pic_marking_mode_flag" 1] ++ ops ++ [eg "memory_management_control_operation" 0]

/-- The slice header of band b with base quantiser q (R111, R113, R114, R117, R119). -/
def avcSlice (i : HdrInfo) (b q : Nat) : List Elem :=
  [ eg "first_mb_in_slice" (i.c.firstRow b * 4 * (4 * i.c.wsb)), eg "slice_type" (if i.key then 2 else 0), eg "pic_parameter_set_id" 0
  , eu "frame_num" 16 i.x.num ]
  ++ (if i.key then [eg "idr_pic_id" (i.x.keys % 2)]
      else [e1 "num_ref_idx_active_override_flag" (decide (2 ≤ i.refs.length)).toNat]
        ++ (if 2 ≤ i.refs.length then [eg "num_ref_idx_l0_active_minus1" 1] else []) ++ avcLists i)
  ++ avcMarking i ++ (if i.key then [] else [eg "cabac_init_idc" 0])
  ++ [es "slice_qp_delta" ((q : Int) - 26), eg "disable_deblocking_filter_idc" 0, es "slice_alpha_c0_offset_div2" 0, es "slice_beta_offset_div2" 0]

/-! ### SEI messages (R119, R120) -/

/-- Time in ticks of 90 kHz until the buffer holds what it holds now, and until it is full from there. -/
def HdrInfo.removalDelays (i : HdrInfo) : Nat × Nat :=
  let r := max 1 i.x.params.hrdRate
  (max 1 (90000 * i.x.start.d / r), 90000 * (i.x.params.hrdBuf - i.x.start.d) / r)

def bufferingPeriodSei (i : HdrInfo) : List Elem :=
  let t := i.removalDelays
  (if i.c.codec = 1 then [eg "bp_seq_parameter_set_id" 0, e1 "irap_cpb_params_present_flag" 0, e1 "concatenation_flag" 0
      , eu "au_cpb_removal_delay_delta_minus1" delayBits 0] else [eg "seq_parameter_set_id" 0])
  ++ [eu "initial_cpb_removal_delay" delayBits t.1, eu "initial_cpb_removal_delay_offset" delayBits t.2]

def pictureTimingSei (i : HdrInfo) : List Elem :=
  let t := i.poc i.x.frame
  if i.c.codec = 1 then [eu "au_cpb_removal_delay_minus1" delayBits (t - 1), eu "pic_dpb_output_delay" delayBits 0]
  else [eu "cpb_removal_delay" delayBits (2 * t), eu "dpb_output_delay" delayBits 0]

/-- An SEI payload: closed to a whole byte only where it does not end on one. -/
def seiPayload (l : List Elem) : List Byte :=
  let b := syntaxBits l
  packBits (if b.length % 8 = 0 then b else b ++ [true])

/-- The RBSP of an SEI message of a type. -/
def seiRbsp (type : Nat) (l : List Elem) : List Byte :=
  let p := seiPayload l
  [BitVec.ofNat 8 type, BitVec.ofNat 8 p.length] ++ p ++ [0x80]

/-! ### The bytes of an item (R123 to R126) -/

/-- The NAL unit header of an HEVC unit type, or of an AVC unit type with its nal_ref_idc. -/
def hevcNal (type : Nat) : List Byte := [BitVec.ofNat 8 (2 * type), 1]
def avcNal (ref type : Nat) : List Byte := [BitVec.ofNat 8 (32 * ref + type)]

/-- An AVC slice header ends with ones to the byte's end. -/
def cabacAligned (l : List Elem) : List Byte :=
  let b := syntaxBits l
  packBits (b ++ List.replicate ((8 - b.length % 8) % 8) true)

/-- The bytes of an item of band b, whose base quantiser is q. The sizes of a tile group and of a left tile stand as 0 until the
commit (R96). -/
def HdrInfo.item (i : HdrInfo) (b q : Nat) (k : HdrKind) : List Byte :=
  let h := i.c.codec = 1
  match k with
  | .temporalDelimiter => [0x12, 0]
  | .sequenceHeader => obu 0x0A (closeBits (av1Sequence i))
  | .frameHeader => obu 0x1A (closeBits (av1Frame i))
  | .redundantHeader => obu 0x3A (closeBits (av1Frame i))
  | .tileGroup => 0x22 :: leb4 0 ++ av1Group i.c b ++ (if i.c.tileCols = 2 then [0, 0, 0, 0] else [])
  | .accessUnitDelimiter =>
    let type := if i.key then 0 else if h ∧ 2 ≤ i.refs.length then 2 else 1
    nal (if h then hevcNal 35 else avcNal 0 9) (closeBits [eu "pic_type" 3 type])
  | .vps => nal (hevcNal 32) (closeBits (hevcVps i))
  | .sps => nal (if h then hevcNal 33 else avcNal 3 7) (closeBits (if h then hevcSps i else avcSps i))
  | .pps => nal (if h then hevcNal 34 else avcNal 3 8) (closeBits (if h then hevcPps else avcPps))
  | .bufferingPeriod => nal (if h then hevcNal 39 else avcNal 0 6) (seiRbsp 0 (bufferingPeriodSei i))
  | .pictureTiming => nal (if h then hevcNal 39 else avcNal 0 6) (seiRbsp 1 (pictureTimingSei i))
  | .slice =>
    if h then nal (hevcNal (if i.key then 20 else 1)) (closeBits (hevcSlice i b q))
    else nal (avcNal 3 (if i.key then 5 else 1)) (cabacAligned (avcSlice i b q))

/-- The header items of band b with base quantiser q, in order. -/
def HdrInfo.items (i : HdrInfo) (b q : Nat) : List (List Byte) := (i.c.itemKinds b i.key).map fun k => i.item b q k

/-- The bytes of each header item of band b with base quantiser q. -/
def HdrInfo.sizes (i : HdrInfo) (b q : Nat) : List Nat := (i.items b q).map List.length

/-- The most bytes that each header item takes with any quantiser. -/
def HdrInfo.counted (i : HdrInfo) (b : Nat) : List Nat :=
  (i.c.itemKinds b i.key).map fun k => ((List.range 52).map fun q => (i.item b q k).length).foldl max 0

/-- Writes the sizes that are known at the commit: obu_size of an AV1 tile group whose data take n bytes, and the size of its left tile
(R96, R112, R126). -/
def fillSizes (c : StreamCfg) (l : List (List Byte)) (n left : Nat) : List (List Byte) :=
  if c.codec ≠ 0 then l
  else
    match l.getLast? with
    | none => l
    | some t =>
      let rest := t.drop 5
      let rest := if c.tileCols = 2 then rest.take (rest.length - 4) ++ (List.range 4).map fun k => BitVec.ofNat 8 ((left - 1) / 256 ^ k)
        else rest
      l.dropLast ++ [t.take 1 ++ leb4 (rest.length + n) ++ rest]

end Sys2Proof.Machine
end

