-- ==== Sys2Proof/Machine/Refs.lean ====
section
/-! DEFINITION. Closed-loop references: marks, acknowledgements, requests, and the reference decision (R167 to R193). -/

namespace Sys2Proof.Machine

/-- Frame a lies after frame b; frame numbers compare modulo 2 to the 32. -/
def frameAfter (a b : Nat) : Bool := a % two32 != b % two32 && decide (seqAhead b a < 2 ^ 31)

/-- Frame a is b or lies after it. -/
def frameFrom (a b : Nat) : Bool := decide (seqAhead b a < 2 ^ 31)

/-- LAST_ACK of a recipient that has acknowledged nothing. -/
def noAck : Nat := two32 - 1

/-- The valid recipients of stream n. -/
def recipsOf (d : Dev) (n : Nat) : List Nat := (d.recips.filter fun e => e.2.valid && e.2.stream == n).map fun e => e.1

/-- Changes the reference state of a stream. -/
def onRef (d : Dev) (n : Nat) (f : RefState → RefState) : Dev := d.onStream n fun s => { s with ref := f s.ref }

/-- A list of eight group values. -/
def groups {α : Type} (l : List α) (dflt : α) : List α := (List.range 8).map fun g => l.getD g dflt

/-- The marked recipients of a group of stream n. -/
def markedIn (d : Dev) (n g : Nat) : Bool :=
  (recipsOf d n).any fun r => (d.recip r).marked && (d.recip r).group == g

/-! ### The table and the store -/

/-- The entry of the picture that holds a band's sequence number. -/
def entryOfSeq (r : RefState) (seq : Nat) : Option AckEntry :=
  r.table.find? fun e => decide (seqAhead e.firstSeq seq ≤ seqAhead e.firstSeq e.lastSeq)

/-- Bars the pictures whose frame satisfies a test, in the table and in the store (R176). -/
def barPics (r : RefState) (p : Nat → Bool) : RefState :=
  { r with
    table := r.table.map fun e => if p e.frame then { e with barred := true } else e
    store := r.store.map fun x => if p x.frame then { x with barred := true, told := x.told && x.barred } else x }

def confirmedFrame (r : RefState) (f : Nat) : Bool := r.table.any fun e => e.frame == f && e.confirmed

def anchorOf (r : RefState) : Option Nat := (r.store.find? fun x => x.anchor).map fun x => x.frame

/-- The newest frame of a list. -/
def newest (l : List Nat) : Option Nat :=
  l.foldl (fun best f => match best with | none => some f | some b => if frameAfter f b then some f else some b) none

/-- The newest confirmed picture of the store that is not barred and newer than the anchor becomes the anchor, and the
slot of the previous anchor is released (R177). DESIGN CHOICE (notes/assumptions/100.md): a picture whose slot the header of an AV1 picture in
progress already refreshes is on its way out and is not promoted any more. -/
def promote (r : RefState) : RefState :=
  let cand := r.store.filter fun x =>
    !x.barred && !(r.claims.any fun c => c.2 == x.slot) && confirmedFrame r x.frame && (match anchorOf r with | none => true | some a => frameAfter x.frame a)
  match newest (cand.map fun x => x.frame) with
  | none => r
  | some f => { r with store := (r.store.filter fun x => !x.anchor).map fun x => if x.frame = f then { x with anchor := true, told := false } else x }

/-- ACKED is at least REQUIRED in all eight groups (R174). -/
def entryConfirmed (e : AckEntry) : Bool := (List.range 8).all fun g => decide (e.required.getD g 0 ≤ e.acked.getD g 0)

/-- Confirms every entry that has become so, and renews the anchor. -/
def confirmAll (r : RefState) : RefState :=
  promote { r with table := r.table.map fun e => if entryConfirmed e then { e with confirmed := true } else e }

/-- The slot of a picture of the store. -/
def slotIn (r : RefState) (f : Option Nat) : Option Nat :=
  f.bind fun f => (r.store.find? fun y => y.frame == f).map fun y => y.slot

/-- The slot that an AV1 picture's header names for it at its decision: a free one that no other picture in progress has, else that of the
picture which R178 releases. -/
def claimSlot (r : RefState) (slots : Nat) : Nat :=
  let taken := r.claims.map fun c => c.2
  match (List.range slots).find? fun k => !taken.contains k && r.store.all fun y => y.slot != k with
  | some k => k
  | none => takenSlot (r.store.filter fun y => !taken.contains y.slot) 0

/-- A picture completes and enters the store (R177, R178): in the slot that its header named, whose picture leaves, or in the one that is free
or that R178 releases. -/
def enterStore (r : RefState) (slots frame : Nat) : RefState :=
  if (r.store.any fun x => x.frame == frame) || r.table.any fun e => e.frame == frame && e.complete then r
  else
    let e := r.table.find? fun e => e.frame == frame
    let claim := (r.claims.find? fun c => c.1 == frame).map fun c => c.2
    let x : RefPic := { frame := frame, barred := e.any fun e => e.barred, key := e.any fun e => e.key
                        slot := claim.getD (takenSlot r.store slots), num := (e.map fun e => e.num).getD 0 }
    let victim := match r.store.find? fun y => y.barred && !y.anchor with
      | some y => some y.frame
      | none => (r.store.find? fun y => !y.anchor).map fun y => y.frame
    let kept := match claim with
      | some k => r.store.filter fun y => y.slot != k
      | none => if slots ≤ r.store.length then r.store.filter fun y => some y.frame != victim else r.store
    promote { r with
      claims := r.claims.filter fun c => c.1 != frame
      store := kept ++ [x], table := r.table.map fun e => if e.frame = frame then { e with complete := true } else e }

/-! ### Marks (R180, R183) -/

/-- Marks recipient r with a lost frame; none: unknown. -/
def mark (d : Dev) (r : Nat) (lost : Option Nat) : Dev :=
  let x := d.recip r
  let n := x.stream
  let f := match lost with
    | some f => f % two32
    | none => if x.lastAck = noAck then (d.stream n).ref.lastKeyFrame else (x.lastAck + 1) % two32
  let f := if x.marked && !frameAfter x.lost f then x.lost else f
  let d := d.setRecip r { x with marked := true, lost := f, clearAt := none, clearSent := false }
  let d := onRef d n fun s =>
    let lf := (groups s.lostFrom none).getD x.group none
    { s with
      pending := (groups s.pending false).set x.group true
      lostFrom := (groups s.lostFrom none).set x.group (match lf with | none => some f | some g => if frameAfter g f then some f else some g) }
  refErr d n 9 1

/-- Clears the mark of recipient r; LOST_FROM of its group is cleared with the group's last mark. -/
def unmark (d : Dev) (r : Nat) : Dev :=
  let x := d.recip r
  let d := d.setRecip r { x with marked := false, lost := 0, clearAt := none, clearSent := false }
  if markedIn d x.stream x.group then d
  else onRef d x.stream fun s => { s with lostFrom := (groups s.lostFrom none).set x.group none }

/-- Marks recipient r for the loss of a band: unknown where no entry holds its number. -/
def markSeq (d : Dev) (r seq : Nat) : Dev :=
  mark d r ((entryOfSeq (d.stream (d.recip r).stream).ref seq).map fun e => e.frame)

/-- A gap marker: the frame's entry is flagged gap and barred, and every recipient of the stream is marked. -/
def markGap (d : Dev) (n frame : Nat) : Dev :=
  let d := onRef d n fun s =>
    barPics { s with table := s.table.map fun e => if e.frame = frame then { e with gap := true } else e } fun f => f == frame
  each (recipsOf d n) d fun d r => mark d r (some frame)

/-! ### Recipients that count (R171, R172) -/

/-- The recipient counts towards confirmation of a frame's entry. -/
def countsFor (x : Recip) (frame : Nat) : Bool := x.reports && !x.silent && !x.countNext && frameFrom frame x.countFrom

/-- REQUIRED of the recipient's group falls by one in every entry it still counted in (R172). -/
def uncount (d : Dev) (r : Nat) : Dev :=
  let x := d.recip r
  if !x.reports || x.silent then d
  else
    onRef d x.stream fun s =>
      confirmAll { s with
        table := s.table.map fun e =>
          if countsFor x e.frame && (x.lastAck == noAck || frameAfter e.frame x.lastAck) then
            { e with required := (groups e.required 0).set x.group ((groups e.required 0).getD x.group 0 - 1) }
          else e }

/-- A recipient becomes SILENT; a mark whose clearing picture has already left the port towards it clears (R172, R183). -/
def silence (d : Dev) (r : Nat) : Dev :=
  let n := (d.recip r).stream
  let d := raise ((uncount d r).onRecip r fun x => { x with silent := true }) (4 * n + 3) 4
  if (d.recip r).marked && (d.recip r).clearSent then unmark d r else d

/-- The device time at which a recipient becomes SILENT under the timeout in force. -/
def silentAt (d : Dev) (r : Nat) : Nat := (d.recip r).lastAckTime + (d.stream (d.recip r).stream).ref.cfg.ackTmoMs * 1000000

/-! ### Feedback (R168, R174, R184, R186) -/

/-- An ACK of recipient r naming the last band of a picture. -/
def applyAck (d : Dev) (r seq : Nat) : Dev :=
  let x := d.recip r
  let n := x.stream
  let e := (d.stream n).ref.table.find? fun e => e.lastSeq == seq % two32
  let d := if x.marked && x.reports && !x.silent && (e.any fun e => frameAfter e.frame x.lost) then unmark d r else d
  let d := d.onRecip r fun x => { x with lastAckTime := d.now }
  if x.silent then
    refErr (d.onRecip r fun x => { x with silent := false, countNext := true }) n 5 1
  else
    match e with
    | none => refErr d n 5 1
    | some e =>
      if countsFor x e.frame && (x.lastAck == noAck || frameAfter e.frame x.lastAck) then
        let d := d.onRecip r fun x => { x with lastAck := e.frame }
        let d := onRef d n fun s =>
          confirmAll { s with
            table := s.table.map fun y =>
              if y.frame = e.frame then { y with acked := (groups y.acked 0).set x.group ((groups y.acked 0).getD x.group 0 + 1) } else y }
        refStat d n 4 1
      else refErr d n 5 1

/-- A LOSS of recipient r: unknown where COUNT is 0. -/
def applyLoss (d : Dev) (r count seq : Nat) : Dev := if count = 0 then mark d r none else markSeq d r seq

/-- The interval since the last key frame is over. -/
def keyOpen (d : Dev) (r : RefState) (ms : Nat) : Bool :=
  match r.lastKeyAt with | none => true | some t => decide (t + ms * 1000000 ≤ d.now)

/-- A key request (R184): counted as held, and reported once per interval, while KEY_MIN_MS has not passed. -/
def keyRequest (d : Dev) (n : Nat) (force : Bool) : Dev :=
  let r := (d.stream n).ref
  if force then onRef d n fun r => { r with keyForced := true }
  else if keyOpen d r r.cfg.keyMinMs then onRef d n fun r => { r with keyReq := true }
  else
    let d := refErr (onRef d n fun r => { r with keyReq := true, keyHeldRaised := true }) n 8 1
    if r.keyHeldRaised then d else raise d (4 * n + 3) 3

/-- A refresh request (R186): one that arrives during a wave merges into it. DESIGN CHOICE (notes/assumptions/70.md): a wave is over
at the reference decision after that of its last picture, so a request between the two merges into the wave. -/
def refreshRequest (d : Dev) (n : Nat) : Dev :=
  onRef d n fun r => if r.wave.isSome then r else { r with refreshReq := true }

/-! ### The reference decision (R181, R182) -/

/-- REF.CONFIG parameters that are staged land at the decision (R192); the recipients' test follows the new timeout
(R172). -/
def landRefConfig (d : Dev) (n : Nat) : Dev :=
  let s := d.stream n
  let cfgs := s.staged.filterMap fun x => match x with | .refConfig c => some c | _ => none
  match cfgs.getLast? with
  | none => d
  | some c =>
    let d := d.setStream n { s with
      staged := s.staged.filter fun x => match x with | .refConfig _ => false | _ => true
      ref := { s.ref with cfg := c } }
    if c.ackTmoMs = s.ref.cfg.ackTmoMs then d
    else
      each (recipsOf d n) d fun d r =>
        let x := d.recip r
        if x.reports && !x.silent && decide (silentAt d r ≤ d.now) then silence d r else d

/-- The entry of a picture at its decision (R173). -/
def newEntry (d : Dev) (n frame first last : Nat) (kind : RefKind) : AckEntry :=
  let rs := recipsOf d n
  { frame := frame, firstSeq := first, lastSeq := last, key := kind == .key, recovery := kind == .recovery
    required := (List.range 8).map fun g => (rs.filter fun r => countsFor (d.recip r) frame && (d.recip r).group == g).length
    acked := groups [] 0 }

/-- The newest picture that may serve a recovery: confirmed, not barred, older than LOST_FROM of every marked group. -/
def recoveryRef (r : RefState) : Option Nat :=
  newest ((r.store.filter fun x =>
    !x.barred && confirmedFrame r x.frame && r.lostFrom.all fun l => match l with | none => true | some f => frameAfter f x.frame).map
      fun x => x.frame)

/-- What R182 chooses: kind, first and second reference, and whether NO_ANCHOR is counted. -/
def chooseRefs (d : Dev) (r : RefState) : RefKind × Option Nat × Option Nat × Bool :=
  let unbarred := (r.store.filter fun x => !x.barred).map fun x => x.frame
  let normal : RefKind × Option Nat × Option Nat :=
    (.normal, newest unbarred, match anchorOf r with
      | none => none
      | some a => if unbarred.contains a && newest unbarred != some a then some a else none)
  if r.keyForced || (r.keyReq && keyOpen d r r.cfg.keyMinMs) then (.key, none, none, false)
  else if unbarred.isEmpty then (.key, none, none, false)
  else if (r.pending.any fun b => b) || r.cfg.policy == 1 then
    match recoveryRef r with
    | some c => (.recovery, some c, none, false)
    | none => if keyOpen d r r.cfg.recovKeyMinMs then (.key, none, none, true) else (normal.1, normal.2.1, normal.2.2, true)
  else (normal.1, normal.2.1, normal.2.2, false)

/-- A key frame bars and releases every earlier picture, clears the anchor, PENDING and the wave, and restarts the
intervals (R182, R184). -/
def keyEffect (r : RefState) (frame now : Nat) : RefState :=
  { barPics r (fun _ => true) with
    store := [], pending := groups [] false, keyReq := false, keyForced := false, keyHeldRaised := false, refreshReq := false
    restart := false, wave := none, lastKeyAt := some now, lastKeyFrame := frame }

/-- The wave moves on by one picture, or starts (R186, R187). The second result says that a wave started. -/
def waveNext (r : RefState) (now : Nat) : RefState × Bool :=
  let wave := match r.wave with | none => none | some (i, k) => if i + 1 < k then some (i + 1, k) else none
  let open_ := r.restart || (match r.lastWaveAt with | none => true | some t => decide (t + r.cfg.refreshMinMs * 1000000 ≤ now))
  if wave.isNone && r.refreshReq && open_ then
    ({ r with wave := some (0, r.cfg.refreshPics), refreshReq := false, restart := false, lastWaveAt := some now }, true)
  else ({ r with wave := wave }, false)

/-- A wave that a pending recovery picture cuts short: its request stands again (R182). -/
def waveCut (r : RefState) : RefState :=
  match r.wave with
  | some (i, k) => if i + 1 < k then { r with wave := none, refreshReq := true, restart := true } else { r with wave := none }
  | none => r

/-- The wave still has pictures to code at the next decision. -/
def waveRuns (r : RefState) : Bool := match r.wave with | some (i, k) => decide (i + 1 < k) | none => false

/-- An AV1 anchor more than 63 frames behind the picture being decided is released (R177). -/
def dropFarAnchor (r : RefState) (codec frame : Nat) : RefState :=
  if codec ≠ 0 then r
  else { r with store := r.store.filter fun x => !(x.anchor && decide (63 < seqAhead x.frame frame)) }

/-- The reference decision of a picture, taken at the dispatch of its first band. -/
def decideRefs (d : Dev) (n frame first last : Nat) : Dev :=
  let d := landRefConfig d n
  let d := each (recipsOf d n) d fun d r =>
    d.onRecip r fun x => if x.countNext then { x with countNext := false, countFrom := frame } else x
  let d := onRef d n fun r => dropFarAnchor r (d.stream n).cfg.codec frame
  let r := (d.stream n).ref
  let c := chooseRefs d r
  let was := r.pending.any fun b => b
  let d := if c.2.2.2 then raise (refErr d n 7 1) (4 * n + 3) 2 else d
  let d := match c.1 with
    | .key => refStat (onRef d n fun r => keyEffect r frame d.now) n 2 1
    | .recovery =>
      let d := onRef d n fun r =>
        let inStore := r.store.map fun x => x.frame
        let open_ := r.table.filter fun e => !e.complete
        { barPics r (fun f => (inStore.contains f && !confirmedFrame r f) || open_.any fun e => e.frame == f) with pending := groups [] false }
      let d := refStat d n 1 1
      if was then
        let d := raise d (4 * n + 3) 1
        let d := if waveRuns r then raise d (4 * n + 3) 5 else d
        onRef d n waveCut
      else
        let w := waveNext (d.stream n).ref d.now
        let d := onRef d n fun _ => w.1
        if w.2 then refStat d n 3 1 else d
    | .normal =>
      let w := waveNext (d.stream n).ref d.now
      let d := onRef d n fun _ => w.1
      if w.2 then refStat d n 3 1 else d
  let d := if c.1 == .normal then d
    else each (recipsOf d n) d fun d k =>
      d.onRecip k fun x => if x.marked && x.clearAt.isNone then { x with clearAt := some last, clearSent := false } else x
  let cfg := (d.stream n).cfg
  onRef d n fun r =>
    confirmAll { r with
      firstSlot := slotIn r c.2.1, secondSlot := slotIn r c.2.2.1
      claims := if cfg.codec = 0 then (frame, claimSlot r cfg.refSlots) :: r.claims else r.claims
      table := ({ newEntry d n frame first last c.1 with num := if c.1 = .key then 0 else (r.num + 1) % 65536 } :: r.table).take 32
      num := if c.1 = .key then 0 else (r.num + 1) % 65536, keys := if c.1 = .key then r.keys + 1 else r.keys
      decided := some frame, kind := c.1, first := c.2.1, second := c.2.2.1 }

/-- The last band of a picture has left the port towards recipient r: a mark that waited for it clears, that of a reporting recipient
once it is SILENT (R183). -/
def sentLast (d : Dev) (r seq : Nat) : Dev :=
  let x := d.recip r
  if x.marked && x.clearAt == some seq then
    if !x.reports || x.silent then unmark d r else d.onRecip r fun x => { x with clearSent := true }
  else d

/-- A recipient is removed: it no longer counts, and its mark clears (R172, R183). -/
def refRemove (d : Dev) (r : Nat) : Dev :=
  let d := uncount d r
  if (d.recip r).marked then unmark d r else d

end Sys2Proof.Machine
end

