-- ==== Sys2Proof/Machine/Fleet.lean ====
section
/-! DEFINITION. The fleet profile, its digest, and the landing of an armed activation (R519, R522, R526 to R528). -/

namespace Sys2Proof.Machine

/-! ### The profile (R519) -/

/-- PTP time, which goes on from the last offset while PTP is not locked (R528). -/
def fleetTime (d : Dev) : Nat := ((d.now : Int) + d.ptp.offset).toNat

/-- The pacing class registers in the order of R519. -/
def pacingAddrs : List Nat := (List.range 4).flatMap fun c => [rClassQmax c, rRed c 0, rRed c 1, rRed c 2]

def pacingNow (d : Dev) : List Word := pacingAddrs.map (reg d)

/-- The ASCII bytes "EWYFLEET". -/
def profileMagic : List Byte := [0x45, 0x57, 0x59, 0x46, 0x4C, 0x45, 0x45, 0x54]

/-- TABLE_ID of a table set of the running image (R520). -/
def tableId (d : Dev) (k : Nat) : Word := (d.boot.img.map fun i => i.tableIds.getD k 0).getD 0

/-- KEY_ID of slots 20448 to 20479. -/
def veinIds (d : Dev) : List Word :=
  (List.range 32).map fun i => if (d.key (20448 + i)).kind = 3 then (d.key (20448 + i)).keyId else 0

/-- The 432 bytes of the profile with an epoch, a table set and pacing words. -/
def profile (d : Dev) (epoch set : Nat) (pacing : List Word) : List Byte :=
  profileMagic ++ natBytesBE 2 epoch ++ [0, 0] ++ natBytesBE 4 1
    ++ bytesBE ((d.boot.img.map fun i => i.firmwareId).getD 0) ++ natBytesBE 8 (regFld d rBootStatus 31 16)
    ++ bytesBE ((d.boot.img.map fun i => i.patchId).getD 0) ++ bytesBE (tableId d set)
    ++ (veinIds d ++ pacing).flatMap bytesBE

/-- The digest as four words, most significant first. -/
def digestWords (n : Nat) : List Word := (List.range 4).map fun k => word (n / 2 ^ (64 * (3 - k)) % 2 ^ 64)

/-- The digest of the profile in force. -/
def digestNow (d : Dev) : List Word :=
  digestWords (sha256 (profile d (regFld d rFleetStatus 63 48) (regFld d rFleetStatus 2 0) (pacingNow d)))

/-- Publishes the digest in `FLEET_DIGEST0` to `FLEET_DIGEST3` (R522). -/
def publish (d : Dev) : Dev :=
  let ws := digestNow d
  each (List.range 4) { d with fleet := { d.fleet with digestDue := false } } fun d k => setReg d (rFleetDigest k) (ws.getD k 0)

/-! ### Activation (R525 to R530) -/

/-- The set before the previous one is still needed by a band without a verdict (R527). -/
def setNeeded (d : Dev) (new : Nat) : Bool :=
  let cur := regFld d rFleetStatus 2 0
  let old := d.fleet.prevSet
  new != cur && old != cur && old != new &&
    d.streams.any fun e => e.2.bands.any fun b => b.stage != .waiting && !b.verified && b.tableSet == old

/-- The lowest sequence number of a stream not yet dispatched on any of its parts. -/
def lowestWaiting (st : Stream) : Nat :=
  ((st.bands.find? fun b => b.stage == .waiting).map fun b => b.seq).getD st.nextSeq

/-- The activation lands (R526): table set, pacing words and EPOCH, then the switch SEQ of each stream. -/
def land (d : Dev) (q : Profile) : Dev :=
  let cur := regFld d rFleetStatus 2 0
  let t := word (fleetTime d % 2 ^ 63 + (!d.ptp.locked).toNat * 2 ^ 63)
  let d := { d with fleet := { d.fleet with staged := none, armed := none, waiting := false, prevSet := if q.tableSet = cur then d.fleet.prevSet else cur } }
  let d := if q.pacingEn then each (pacingAddrs.zip q.pacing) d fun d x => setReg d x.1 x.2 else d
  let d := setReg d rFleetStatus (word (q.epoch * 2 ^ 48 + q.tableSet))
  let d := setReg d rFleetActTime t
  let d := each d.streams d fun d e =>
    if e.2.phase == .free then d else d.onStream e.1 fun st => { st with switchSeq := lowestWaiting st }
  raise (publish d) 1238 1 0 q.epoch

/-- The armed activation lands if its time has come; it waits while an older table set is needed (R526, R527). -/
def landIfDue (d : Dev) : Dev :=
  match d.fleet.armed, d.fleet.staged with
  | some t, some q =>
    if fleetTime d < t then d
    else if setNeeded d q.tableSet then setRegBit { d with fleet := { d.fleet with waiting := true } } rFleetStatus 13 true
    else land d q
  | _, _ => d

end Sys2Proof.Machine
end

