-- ==== Sys2Proof/Machine/Packets.lean ====
section
/-! DEFINITION. Packetisation: the packets a band makes, their payloads and their frames (R267 to R276), and the analysis ring
(R298, R299). -/

namespace Sys2Proof.Machine

/-- The payload limit of a packet whose MTU less IP header is `room` (R270). -/
def payloadLimit (room : Nat) (first : Bool) : Nat := room - 8 - 12 - (if first then 20 else 12) - 16

/-- Bytes of a leb128 length. -/
def lebBytes (n : Nat) : Nat := if n < 128 then 1 else if n < 16384 then 2 else if n < 2097152 then 3 else 4

/-- The most bytes of an element of r bytes that fit in `space` behind their leb128 length; 0: none. -/
def elemFit (r space : Nat) : Nat :=
  if r + lebBytes r ≤ space then r
  else
    let t := space - 1
    if t + lebBytes t ≤ space then t else if space - 2 + lebBytes (space - 2) ≤ space then space - 2 else space - 3

/-- The aggregation header (R272). -/
def aggHeader (z y n : Bool) : Byte := BitVec.ofNat 8 (128 * z.toNat + 64 * y.toNat + 8 * n.toNat)

/-- A number as minimal leb128. -/
def lebMin (n : Nat) : List Byte :=
  (List.range (lebBytes n)).map fun i => BitVec.ofNat 8 (n / 2 ^ (7 * i) % 128 + if i + 1 < lebBytes n then 128 else 0)

/-- AV1 payloads: greedy, an OBU split where it does not fit (R272). `cur` is what the packet being filled holds behind its aggregation
header, `z` that it begins with a continuation; `fuel` bounds the packets. -/
def av1Packets (fuel c0 c1 : Nat) (new : Bool) (out : List (List Byte)) (z : Bool) (cur : List Byte) (l : List (List Byte)) :
    List (List Byte) :=
  let head := fun y => aggHeader z y (new && out.isEmpty)
  match fuel with
  | 0 => out.reverse
  | k + 1 =>
    match l with
    | [] => (if cur.isEmpty && !out.isEmpty then out else (head false :: cur) :: out).reverse
    | r :: rest =>
      let space := (if out.isEmpty then c0 else c1) - (cur.length + 1)
      if r.isEmpty then av1Packets k c0 c1 new out z cur rest
      else if space < 2 then av1Packets k c0 c1 new ((head false :: cur) :: out) false [] l
      else
        let f := elemFit r.length space
        let cur := cur ++ lebMin f ++ r.take f
        if f = r.length then av1Packets k c0 c1 new out z cur rest
        else av1Packets k c0 c1 new ((head true :: cur) :: out) true [] (r.drop f :: rest)

/-- The fragments of a NAL unit's bytes behind its header: `hdr` gives a fragment's own header for its start and its end (R273, R274);
`size` bytes long. -/
def fragments (fuel size c0 c1 : Nat) (hdr : Bool → Bool → List Byte) (first start : Bool) (bs : List Byte) : List (List Byte) :=
  match fuel with
  | 0 => []
  | k + 1 =>
    let c := (if first then c0 else c1) - size
    if bs.length ≤ c then [hdr start true ++ bs] else (hdr start false ++ bs.take c) :: fragments k size c0 c1 hdr false false (bs.drop c)

/-- The header of a fragmentation unit of a NAL unit: HEVC type 49 with the unit's layer, AVC type 28 with its NRI. -/
def fuHeader (hevc : Bool) (u : List Byte) (start last : Bool) : List Byte :=
  let h := (u.headD 0).toNat
  let se := 128 * start.toNat + 64 * last.toNat
  if hevc then [BitVec.ofNat 8 (h / 128 * 128 + 49 * 2 + h % 2), u.getD 1 0, BitVec.ofNat 8 (se + h / 2 % 64)]
  else [BitVec.ofNat 8 (h / 32 * 32 + 28), BitVec.ofNat 8 (se + h % 32)]

/-- The packets of one NAL unit: a single NAL unit packet, or fragments. -/
def nalPackets (hevc : Bool) (c0 c1 : Nat) (first : Bool) (u : List Byte) : List (List Byte) :=
  if u.length ≤ (if first then c0 else c1) then [u]
  else fragments (u.length + 1) (if hevc then 3 else 2) c0 c1 (fuHeader hevc u) first true (u.drop (if hevc then 2 else 1))

/-- The aggregation packet of NAL units: HEVC type 48 of the base layer, AVC STAP-A with the highest NRI. -/
def aggregate (hevc : Bool) (l : List (List Byte)) : List Byte :=
  (if hevc then [BitVec.ofNat 8 (48 * 2), 1] else [BitVec.ofNat 8 (l.foldl (fun m u => max m ((u.headD 0).toNat / 32 % 4)) 0 * 32 + 24)])
    ++ l.flatMap fun u => natBytesBE 2 u.length ++ u

/-- HEVC and AVC packets: the NAL units before the slice in one aggregation packet where they fit, then the slice. -/
def nalBandPackets (hevc : Bool) (c0 c1 : Nat) (pre : List (List Byte)) (slice : List Byte) : List (List Byte) :=
  let agg := aggregate hevc pre
  let head :=
    if pre = [] then []
    else if agg.length ≤ c0 then [agg]
    else pre.foldl (fun out u => out ++ nalPackets hevc c0 c1 out.isEmpty u) []
  head ++ nalPackets hevc c0 c1 head.isEmpty slice

/-- Bytes in parts of these sizes, the rest last. -/
def partsOf (sizes : List Nat) (bs : List Byte) : List (List Byte) :=
  match sizes with
  | [] => [bs]
  | n :: r => bs.take n :: partsOf r (bs.drop n)

/-- The payloads of a band's packets (R271 to R275): `pre` are the sizes of its header items before the last; band 0 of an AV1 picture
loses its temporal delimiter, HEVC and AVC units their start codes. -/
def bandPayloads (codec b : Nat) (key : Bool) (room : Nat) (pre : List Nat) (data : List Byte) : List (List Byte) :=
  let c0 := payloadLimit room true
  let c1 := payloadLimit room false
  let items := partsOf pre data
  if codec = 0 then
    av1Packets (data.length + 2 * pre.length + 4) c0 c1 (b == 0 && key) [] false [] (if b = 0 ∧ pre ≠ [] then items.drop 1 else items)
  else
    let units := items.map fun u => u.drop 4
    nalBandPackets (codec == 1) c0 c1 units.dropLast (units.getLast?.getD [])

/-- MTU of port p less the IP header of a family. -/
def portRoom (d : Dev) (p : Nat) (ipv6 : Bool) : Nat := regFld d (rPort p 0) 63 50 - (if ipv6 then 40 else 20)

/-- The port a recipient prefers (R328). -/
def preferredPort (x : Recip) : Nat := x.ports % 2

/-- The Ethernet frame bytes of a packet of payload n, from destination MAC to FCS (R276, R284). -/
def frameBytes (d : Dev) (p : Nat) (ipv6 : Bool) (idx n : Nat) : Nat :=
  14 + (if regBit d (rPort p 0) 49 then 4 else 0) + (if ipv6 then 40 else 20) + 8 + 12 + (if idx = 0 then 20 else 12) + n + 16 + 4

/-! ### RTP, UDP, IP and Ethernet (R267 to R269, R276, R306, R307) -/

/-- The RTP time stamp of a band (R268). -/
def rtpTime (d : Dev) (n : Nat) (b : Stored) : Nat :=
  (regFld d (rMs n oMsRtp) 31 0 + fld b.framePtp 62 0 * 9 / 100000) % two32

/-- SSRC of a stream. -/
def ssrcOf (d : Dev) (n : Nat) : Nat := regFld d (rMs n oMsRtp) 63 32

/-- The RTP header of packet i of `count` of a stored band, with its number, and the header extension (R267, R269). -/
def rtpHeader (d : Dev) (b : Stored) (i count rtp : Nat) : List Byte :=
  let cfg := reg d (rMs b.stream oMsCfg)
  let marker := b.last && i + 1 == count
  let flags := 128 * (i == 0).toNat + 64 * (i + 1 == count).toNat + 32 * b.resend.toNat + 16 * b.rep.toNat + 8 * b.key.toNat
  let band := BitVec.ofNat 8 (fld cfg 61 58 * 16 + 6) :: natBytesBE 4 b.seq ++ natBytesBE 2 i ++ [BitVec.ofNat 8 flags]
  let config := if i = 0 then BitVec.ofNat 8 (fld cfg 57 54 * 16 + 5) :: natBytesBE 4 b.digest4 ++ natBytesBE 2 b.epoch ++ [0] else []
  [0x90, BitVec.ofNat 8 (128 * marker.toNat + fld cfg 51 45)] ++ natBytesBE 2 rtp ++ natBytesBE 4 (rtpTime d b.stream b)
    ++ natBytesBE 4 (ssrcOf d b.stream) ++ natBytesBE 2 0xBEDE ++ natBytesBE 2 (if i = 0 then 4 else 2) ++ band ++ config

/-- The bytes of an IP address. -/
def addrBytes (ipv6 : Bool) (hi lo : Nat) : List Byte := if ipv6 then natBytesBE 8 hi ++ natBytesBE 8 lo else natBytesBE 4 hi

/-- The address of port p of a family (R276). -/
def portAddr (d : Dev) (p : Nat) (ipv6 : Bool) : List Byte :=
  if ipv6 then addrBytes true (reg d (rPort p 0x18)).toNat (reg d (rPort p 0x20)).toNat else addrBytes false (regFld d (rPort p 0x10) 31 0) 0

/-- A UDP datagram between two addresses, its checksum computed. -/
def udpBytes (src dst : List Byte) (srcPort dstPort : Nat) (payload : List Byte) : List Byte :=
  let head := fun (sum : Nat) => natBytesBE 2 srcPort ++ natBytesBE 2 dstPort ++ natBytesBE 2 (8 + payload.length) ++ natBytesBE 2 sum
  let sum := checksum (src ++ dst ++ natBytesBE 4 17 ++ natBytesBE 4 (8 + payload.length) ++ head 0 ++ payload)
  head (if sum = 0 then 65535 else sum) ++ payload

/-- DSCP of a colour on port p. -/
def dscpOf (d : Dev) (p : Nat) (c : Colour) : Nat :=
  match c with
  | .green => regFld d (rPort p 0) 31 26
  | .yellow => regFld d (rPort p 0) 25 20
  | .red => regFld d (rPort p 0) 19 14

/-- The IP packet of a UDP datagram. -/
def ipBytes (d : Dev) (p : Nat) (c : Colour) (src dst : List Byte) (ipv6 : Bool) (udp : List Byte) : List Byte :=
  let hop := regFld d (rPort p 0) 13 6
  if ipv6 then natBytesBE 4 (6 * 2 ^ 28 + dscpOf d p c * 2 ^ 22) ++ natBytesBE 2 udp.length ++ natBytesBE 1 17 ++ natBytesBE 1 hop ++ src ++ dst ++ udp
  else
    let head := fun (sum : Nat) => natBytesBE 1 0x45 ++ natBytesBE 1 (dscpOf d p c * 4) ++ natBytesBE 2 (20 + udp.length) ++ natBytesBE 2 0
      ++ natBytesBE 2 0x4000 ++ natBytesBE 1 hop ++ natBytesBE 1 17 ++ natBytesBE 2 sum ++ src ++ dst
    head (checksum (head 0)) ++ udp

/-- A frame with a UDP datagram to a destination on port p, from destination MAC to FCS (R276). -/
def streamFrame (d : Dev) (p : Nat) (c : Colour) (dst : Source) (srcPort : Nat) (payload : List Byte) : List Byte :=
  let from_ := portAddr d p dst.ipv6
  let to_ := addrBytes dst.ipv6 (if dst.ipv6 then dst.addrHi else dst.addrHi % two32) dst.addrLo
  let tag := if regBit d (rPort p 0) 49 then natBytesBE 2 0x8100 ++ natBytesBE 2 (regFld d (rPort p 0) 48 46 * 2 ^ 13 + regFld d (rPort p 0) 45 34) else []
  let frame := natBytesBE 6 dst.mac ++ natBytesBE 6 (regFld d (rPort p 8) 47 0) ++ tag ++ natBytesBE 2 (if dst.ipv6 then 0x86DD else 0x0800)
    ++ ipBytes d p c from_ to_ dst.ipv6 (udpBytes from_ to_ srcPort dst.udp payload)
  frame ++ fcs frame

/-- SRC_UDP of a stream. -/
def srcUdp (d : Dev) (n : Nat) : Nat := regFld d (rMs n oMsCfg) 31 16

/-- The master key and salt that a packet of recipient r is sealed under when it is dequeued: that of its band's release, or, once a MODIFY
has named another slot, the one in force there (R323, R363). -/
def sealMaster (d : Dev) (r : Nat) (e : QEntry) : Nat :=
  if (d.recip r).keySlot = e.slot then e.master else (d.key (d.recip r).keySlot).material

/-- The frame of a queued packet (R267 to R276, R360). -/
def packetFrame (d : Dev) (p r : Nat) (e : QEntry) (dst : Source) : List Byte :=
  streamFrame d p e.colour dst e.srcPort (srtpSeal (sealMaster d r e) e.ssrc e.index e.header e.payload)

/-- Recipients of stream n that name a slot: one transmit context (R317). -/
def contextOf (d : Dev) (n slot : Nat) : List Nat := (recipsOf d n).filter fun r => (d.recip r).keySlot == slot

/-- The room of a context's packets: the least of its recipients' preferred ports and families, so that every packet
fits every recipient (DESIGN CHOICE, notes/assumptions/14.md). -/
def contextRoom (d : Dev) (n slot : Nat) : Nat :=
  (contextOf d n slot).foldl (fun m r => let x := d.recip r; min m (portRoom d (preferredPort x) x.ipv6)) 9000

/-- The slots that the valid recipients of stream n name, rising. -/
def slotsOf (d : Dev) (n : Nat) : List Nat :=
  ((recipsOf d n).map fun r => (d.recip r).keySlot).foldl (fun l k => if l.contains k then l else l ++ [k]) []

/-! ### Rings of Mouth -/

/-- Bytes of a record with `len` data bytes. -/
def recordBytes (len : Nat) : Nat := 64 + ceilDiv len 64 * 64

/-- Where a record of n bytes goes in ring k: the offset it starts at, and the pad before it; none: no room (R299). One
byte of the ring stays free, so that a full ring differs from an empty one. -/
def ringPlace (d : Dev) (k n : Nat) : Option (Nat × Nat) :=
  let size := regFld d (rMouthRing k 8) 31 0
  if size = 0 then none
  else
    let prod := regFld d (rMouthRing k 0x10) 31 0 % size
    let used := (prod + size - regFld d (rMouthRing k 0x18) 31 0 % size) % size
    let pad := if prod + n ≤ size then 0 else size - prod
    if used + pad + n < size then some (if pad = 0 then prod else 0, pad) else none

/-- The header word 0 of a record. -/
def recHdr0 (len kind flags recip stream : Nat) : Word :=
  word (len % 65536 * 2 ^ 48 + kind * 2 ^ 40 + flags % 256 * 2 ^ 32 + recip % 65536 * 2 ^ 16 + stream % 256 * 2 ^ 8)

/-- Writes a record to ring k; none: it does not fit. -/
def ringPut (d : Dev) (k : Nat) (w0 w1 w2 : Word) (bytes : List Byte) : Option Dev :=
  let len := bytes.length
  (ringPlace d k (recordBytes len)).map fun x =>
    let base := (reg d (rMouthRing k 0)).toNat
    let size := regFld d (rMouthRing k 8) 31 0
    let prod := regFld d (rMouthRing k 0x10) 31 0 % size
    let d := if x.2 = 0 then d else emit d (.host (base + prod) [recHdr0 (x.2 - 64) 0 0 0xFFFF 0xFF, 0, 0, 0, 0, 0, 0, 0])
    let d := emit d (.host (base + x.1) [w0, w1, w2, 0, 0, 0, 0, 0])
    let d := if bytes.isEmpty then d else emit d (.data (base + x.1 + 64) bytes false)
    setRegFld d (rMouthRing k 0x10) 31 0 ((x.1 + recordBytes len) % size)

/-- Writes a mirror record; where it finds no room it is dropped, counted and raised (R299, R311). -/
def aqPut (d : Dev) (w0 w1 w2 : Word) (bytes : List Byte) : Dev :=
  let before := srcState d 1169
  match ringPut d 0 w0 w1 w2 bytes with
  | some d => edge d 1169 before
  | none => raise (incErr d rAqDrops) 1169 2

/-- Word 1 of a mirror record. -/
def recHdr1 (seq idx rtp : Nat) : Word := word (seq % two32 * 2 ^ 32 + idx % 65536 * 2 ^ 16 + rtp % 65536)

/-- The flags of a mirror record (R299). -/
def mirrorFlags (idx count : Nat) (resend dropped killed variant1 e1 : Bool) : Nat :=
  (idx == 0).toNat + 2 * (idx + 1 == count).toNat + 4 * resend.toNat + 8 * dropped.toNat + 16 * killed.toNat
    + 32 * variant1.toNat + 64 * e1.toNat

end Sys2Proof.Machine
end

