-- ==== Sys2Proof/Machine/Sump.lean ====
section
/-! DEFINITION. Sump: pools, reservations, allocation and release of buffers (R277 to R283). -/

namespace Sys2Proof.Machine

/-- The owner numbers of buffers: a stream, a recipient class, the device. -/
def classOwner (c : Nat) : Nat := 1000 + c
def deviceOwner : Nat := 2000

/-- Buffers of pool q that an owner uses. -/
def usedBy (d : Dev) (q owner : Nat) : Nat := d.mouth.used.get 0 (q * 4096 + owner)

/-- Buffers of pool q that an owner holds in reserve (R279). -/
def reserveOf (d : Dev) (q owner : Nat) : Nat :=
  if owner < 192 then regFld d (rPoolCfg q) 47 32
  else if q = 0 ∧ 1000 ≤ owner ∧ owner < 1004 then regFld d (rClassRsv (owner - 1000)) 31 0
  else 0

/-- Every reservation of pool q. -/
def reservedIn (d : Dev) (q : Nat) : Nat :=
  192 * regFld d (rPoolCfg q) 47 32 + (if q = 0 then total ((List.range 4).map fun c => regFld d (rClassRsv c) 31 0) else 0)

/-- Free buffers of pool q. -/
def freeIn (d : Dev) (q : Nat) : Nat := regFld d (rPoolStatus q) 63 32

/-- Free buffers of pool q that no reservation holds. -/
def sharedFree (d : Dev) (q : Nat) : Nat :=
  let held := total ((d.mouth.used.filter fun e => e.1 / 4096 == q).map fun e => min e.2 (reserveOf d q (e.1 % 4096)))
  freeIn d q - (reservedIn d q - held)

/-- Sets the free count of pool q, its low mark and its LOW state. -/
def setFree (d : Dev) (q n : Nat) : Dev :=
  let before := srcState d (1216 + q)
  let d := setRegFld d (rPoolStatus q) 63 32 n
  let d := setRegFld d (rPoolStatus q) 31 0 (min n (regFld d (rPoolStatus q) 31 0))
  edge d (1216 + q) before

def setUsed (d : Dev) (q owner n : Nat) : Dev :=
  d.onMouth fun m => { m with used := m.used.set 0 (q * 4096 + owner) n }

/-! ### The free lists (R277, R280, R283) -/

/-- Buffers of pool p for a size of the region and a share (R277). -/
def poolCount (sizeMib share p : Nat) : Nat := sizeMib * 1048576 * share / 64 / poolBytes p

/-- Buffers of pool q. -/
def poolSize (d : Dev) (q : Nat) : Nat := poolCount (regFld d rSumpCtrl 63 51) (regFld d (rPoolCfg q) 63 56) q

/-- The device address of a buffer. -/
def bufferAddr (d : Dev) (q i : Nat) : Nat :=
  let start := total ((List.range q).map fun k => regFld d (rPoolCfg k) 63 56 * (regFld d rSumpCtrl 63 51 * 1048576) / 64)
  regFld d (rMemRegion 3) 55 48 * Config.windowBytes + start + i * poolBytes q

def freeList (d : Dev) (q : Nat) : FreeList := d.mouth.free.get {} q

def setFreeList (d : Dev) (q : Nat) (f : FreeList) : Dev := d.onMouth fun m => { m with free := m.free.set {} q f }

/-- The buffer behind a free one; after the reset of a pool each is linked to the next (DESIGN CHOICE, notes/assumptions/108.md). -/
def FreeList.next (f : FreeList) (i : Nat) : Option Nat := (f.links.get none i).getD (some (i + 1))

/-- The runs of the n buffers of a free list from buffer h on: first and last of each. -/
def FreeList.runs (f : FreeList) (fuel h n : Nat) : List (Nat × Nat) :=
  match fuel with
  | 0 => []
  | k + 1 =>
    if n = 0 then []
    else
      let e := match f.links.find? fun l => decide (h ≤ l.1) with | some l => min l.1 (h + n - 1) | none => h + n - 1
      (h, e) :: (match f.next e with | some j => f.runs k j (n - (e + 1 - h)) | none => [])

/-- The runs of the whole free list of pool q. -/
def freeRuns (d : Dev) (q : Nat) : List (Nat × Nat) :=
  (freeList d q).runs ((freeList d q).links.length + 1) (freeList d q).head (freeIn d q)

/-- The address that the first 8 bytes of a free buffer hold; DESIGN CHOICE (notes/assumptions/108.md): 0 in the last one. -/
def linkWord (d : Dev) (q i : Nat) : Word :=
  match (freeRuns d q).getLast?.map (fun r => r.2 == i), (freeList d q).next i with
  | some false, some j => word (bufferAddr d q j)
  | _, _ => 0

/-- What stands over the link of a free buffer is not its link: it lies outside the pool, is not aligned, or names a buffer that is
referenced otherwise (R283). DESIGN CHOICE (notes/assumptions/108.md): one that names an unreferenced buffer is broken too. -/
def linkBroken (d : Dev) (q i : Nat) : Bool :=
  match (freeList d q).spoilt.get none i with
  | none => false
  | some w => w != linkWord d q i

/-- The free list of pool q ends after its first k buffers: the others are unreferenced from now on (R283). -/
def endList (d : Dev) (q k : Nat) : Dev :=
  let f := freeList d q
  let cut := (freeRuns d q).foldl (fun (a : List (Nat × Nat) × Nat) r =>
    let size := r.2 + 1 - r.1
    (if size ≤ a.2 then a.1 else a.1 ++ [(r.1 + a.2, r.2)], a.2 - size)) ([], k)
  let d := d.onMouth fun m => { m with lost := m.lost ++ cut.1.map fun r => (q, r) }
  blockFault (setFree (setFreeList d q { f with spoilt := f.spoilt.filter fun o => !cut.1.any fun r => inRange o.1 r.1 r.2 }) q (min k (freeIn d q)))
    0 1221 2

/-- The buffer at the head of the free list of pool q leaves it. Where its link is broken the list ends with it. -/
def popFree (d : Dev) (q : Nat) : Nat × Dev :=
  let i := (freeList d q).head
  let d := if linkBroken d q i then endList d q 1 else d
  let f := freeList d q
  (i, setFree (setFreeList d q { head := (f.next i).getD 0, links := f.links.set none i none, spoilt := f.spoilt.set none i none }) q (freeIn d q - 1))

/-- Buffer i of pool q goes back to the head of its free list. -/
def pushFree (d : Dev) (q i : Nat) : Dev :=
  let f := freeList d q
  let n := freeIn d q
  setFree (setFreeList d q { head := i, links := f.links.set none i (some (if n = 0 then none else some f.head)), spoilt := f.spoilt.set none i none })
    q (n + 1)

/-! ### Allocation (R280, R281) -/

/-- Takes one buffer for an owner from pool p or the next larger one that gives it (R280): its pool and number. -/
def takeBuf (d : Dev) (owner p : Nat) : Option ((Nat × Nat) × Dev) :=
  match ((List.range 5).filter fun q => decide (p ≤ q)).find? fun q =>
      (decide (usedBy d q owner < reserveOf d q owner) && decide (0 < freeIn d q)) || decide (0 < sharedFree d q) with
  | none => none
  | some q =>
    let x := popFree d q
    let d := setUsed x.2 q owner (usedBy x.2 q owner + 1)
    let d := if q = p then d
      else raiseLim (incStat d (rPoolFallbacks p) 1 (1216 + p) p (rPoolFallbacks p - 0x600000)) 1000000 (1216 + p) 2
    some ((q, x.1), d)

/-- Returns one buffer. -/
def giveBuf (d : Dev) (owner : Nat) (b : Nat × Nat) : Dev :=
  setUsed (pushFree d b.1 b.2) b.1 owner (usedBy d b.1 owner - 1)

/-- A failed allocation is counted and raised (R281). -/
def exhausted (d : Dev) (p : Nat) : Dev := raiseLim (incErr d rExhausted) 1000000 (1216 + p) 3

/-- The smallest pool whose buffers hold n bytes; 5: none. -/
def poolFor (n : Nat) : Nat := ((List.range 5).find? fun p => decide (n ≤ poolBytes p)).getD 5

/-- Takes a buffer for each size in turn; where one cannot be had, what was taken is given back (R281). -/
def takeBufs (d : Dev) (owner : Nat) (got : List (Nat × Nat)) (sizes : List Nat) : Except Dev (List (Nat × Nat) × Dev) :=
  match sizes with
  | [] => .ok (got, d)
  | n :: r =>
    match takeBuf d owner (poolFor n) with
    | some (q, d) => takeBufs d owner (q :: got) r
    | none => .error (exhausted (each got d fun d q => giveBuf d owner q) (min 4 (poolFor n)))

/-- Returns buffers. -/
def giveBufs (d : Dev) (owner : Nat) (l : List (Nat × Nat)) : Dev := each l d fun d b => giveBuf d owner b

/-- Bytes of a data piece of stream n (R278). -/
def chunkOf (d : Dev) (n : Nat) : Nat := 4096 * 4 ^ min 2 (regFld d (rMs n oMsCfg) 53 52)

/-- The sizes of a band's pieces. -/
def pieces (fuel chunk len : Nat) : List Nat :=
  match fuel with
  | 0 => []
  | k + 1 => if len = 0 then [] else if len ≤ chunk then [len] else chunk :: pieces k chunk (len - chunk)

end Sys2Proof.Machine
end

