-- ==== Sys2Proof/Machine/Queues.lean ====
section
/-! DEFINITION. Recipient queues: shaper, calendar, ready lists, congestion decisions, admission, voiding (R284 to R297,
R334 to R340). -/

namespace Sys2Proof.Machine

/-! ### Stored bands -/

/-- The stored band of a sequence number that no kill has reached. -/
def storedAt (d : Dev) (n seq : Nat) : Option Stored :=
  d.mouth.stored.find? fun b => b.stream == n && b.seq == seq && !b.killed

/-- Changes the stored bands that a test picks. -/
def onStored (d : Dev) (p : Stored → Bool) (f : Stored → Stored) : Dev :=
  d.onMouth fun m => { m with stored := m.stored.map fun b => if p b then f b else b }

/-- A stored band is this one. -/
def isBand (n seq : Nat) (killed : Bool) (b : Stored) : Bool := b.stream == n && b.seq == seq && b.killed == killed

/-- Stored bands whose reference count is zero after release return their buffers (R286). -/
def freeStored (d : Dev) (n seq : Nat) : Dev :=
  let dead := d.mouth.stored.filter fun b => b.stream == n && b.seq == seq && (b.released || b.killed) && b.refs == 0
  let d := each dead d fun d b => giveBufs d n b.bufs
  d.onMouth fun m => { m with
    stored := m.stored.filter fun b => !(b.stream == n && b.seq == seq && (b.released || b.killed) && b.refs == 0) }

/-- A copy of a band has gone: its reference count falls by k. -/
def deref (d : Dev) (n seq k : Nat) (killed : Bool) : Dev :=
  freeStored (onStored d (isBand n seq killed) fun b => { b with refs := b.refs - k }) n seq

/-- Discards an unreleased stored band (R262, R263). -/
def discardStored (d : Dev) (n seq : Nat) : Dev :=
  freeStored (onStored d (isBand n seq false) fun b => { b with killed := true, refs := 0 }) n seq

/-! ### Shaper (R336) -/

/-- The slot boundary that device time has reached. -/
def slotNow (d : Dev) : Nat := d.now / 250

/-- Bucket limit. -/
def bucket (x : Recip) : Int := 32000 * x.burst

/-- TOKENS brought up to a slot boundary. -/
def refill (x : Recip) (slot : Nat) : Recip :=
  if x.rate = 0 ∨ slot ≤ x.tokenSlot then { x with tokenSlot := max slot x.tokenSlot }
  else { x with tokens := min (bucket x) (x.tokens + x.rate * (slot - x.tokenSlot : Nat)), tokenSlot := slot }

/-- The head of a queue that is not void. -/
def liveHead (x : Recip) : Option QEntry := x.queue.find? fun e => !e.void

/-- A held last packet waits for its band's PASS (R295). -/
def heldEntry (d : Dev) (e : QEntry) : Bool :=
  e.idx + 1 == e.count && !(match storedAt d e.stream e.seq with | some b => b.passed | none => false)

/-- Tokens that a packet of `len` bytes needs, and the slot it is eligible at: device time counts in slots begun, as the worked example
of `10_recipients_and_pacing.md` counts it. -/
def needTokens (x : Recip) (len : Nat) : Int := 32000 * (min len x.burst : Nat)

def eligibleSlot (d : Dev) (x : Recip) (len : Nat) : Nat :=
  if x.rate = 0 ∨ needTokens x len ≤ x.tokens then slotNow d
  else slotNow d + ceilDiv (needTokens x len - x.tokens).toNat x.rate

/-! ### Calendar and ready lists (R334, R335, R338) -/

/-- The calendar has passed over empty slots up to device time. -/
def syncCal (d : Dev) : Dev :=
  d.onMouth fun m =>
    let first := m.calendar.foldl (fun b e => min b e.1) (max m.calV (d.now / 250))
    { m with calV := max m.calV (min first (max m.calV (d.now / 250))) }

/-- Takes a queue out of the calendar and the ready lists. -/
def unplace (d : Dev) (r : Nat) : Dev :=
  let d := d.onMouth fun m => { m with
    calendar := m.calendar.filter fun e => e.2 != r
    port0 := { m.port0 with ready := m.port0.ready.filter fun k => k != r }
    port1 := { m.port1 with ready := m.port1.ready.filter fun k => k != r } }
  d.onRecip r fun x => { x with place := .idle }

/-- Enters a queue under R335 by its head; a queue whose head is held waits outside, an empty one is idle. -/
def enterCalendar (d : Dev) (r : Nat) : Dev :=
  let d := syncCal (unplace d r)
  let d := d.onRecip r fun x => refill x (slotNow d)
  let x := d.recip r
  match liveHead x with
  | none => d
  | some e =>
    if heldEntry d e then d.onRecip r fun x => { x with place := .held }
    else
      let v := d.mouth.calV
      let s := min (max (eligibleSlot d x e.len) v) (v + 65535)
      (d.onMouth fun m => { m with calendar := m.calendar ++ [(s, r)] }).onRecip r fun x => { x with place := .calendar s }

/-- The port of a recipient's packet at this moment (R328). -/
def portOf (d : Dev) (x : Recip) : Nat :=
  if x.ports = 2 then (if (d.port 0).up then 0 else if (d.port 1).up then 1 else 0)
  else if x.ports = 3 then (if (d.port 1).up then 1 else if (d.port 0).up then 0 else 1)
  else x.ports

/-- A queue joins the tail of a port's ready list. -/
def joinReady (d : Dev) (p r : Nat) : Dev :=
  let d := d.setPort p { d.port p with ready := (d.port p).ready ++ [r] }
  d.onRecip r fun x => { x with place := .ready p }

/-- The calendar moves a queue to a ready list, or evaluates it again where it is not yet eligible. -/
def calendarMove (d : Dev) (r : Nat) : Dev :=
  let d := (unplace d r).onRecip r fun x => refill x (slotNow d)
  let x := d.recip r
  match liveHead x with
  | none => d
  | some e =>
    if heldEntry d e then d.onRecip r fun x => { x with place := .held }
    else if x.rate = 0 ∨ needTokens x e.len ≤ x.tokens then joinReady d (portOf d x) r
    else enterCalendar d r

/-- After a packet has left: an eligible queue goes to the tail of the ready list, any other enters the calendar. -/
def requeue (d : Dev) (r : Nat) : Dev :=
  let d := d.onRecip r fun x => refill x (slotNow d)
  calendarMove d r

/-! ### Congestion (R291, R292) -/

/-- One step of the LFSR. -/
def lfsrStep (s : Nat) : Nat := if s % 2 = 1 then s / 2 ^^^ 0xB400 else s / 2

/-- The colour's number in the registers. -/
def Colour.num (c : Colour) : Nat := match c with | .green => 0 | .yellow => 1 | .red => 2

/-- A decision of R291 for a queue of counted length q: admitted or not, the LFSR, and r once it has been drawn. -/
def decide1 (d : Dev) (cls len : Nat) (c : Colour) (q lfsr : Nat) (r : Option Nat) : Bool × Nat × Option Nat :=
  let prof := reg d (rRed cls c.num)
  let qmax := regFld d (rClassQmax cls) 31 0
  let lo := 64 * fld prof 23 0
  let hi := 64 * fld prof 47 24
  if qmax < q + len then (false, lfsr, r)
  else if q < lo then (true, lfsr, r)
  else if hi ≤ q then (false, lfsr, r)
  else
    let p := fld prof 63 56 * (q - lo) / (hi - lo)
    match r with
    | some v => (decide (p ≤ v), lfsr, r)
    | none => (decide (p ≤ lfsrStep lfsr % 256), lfsrStep lfsr, some (lfsrStep lfsr % 256))

/-- The queued copies that push-out may evict, in the order it would: red newest first, then yellow newest first. -/
def evictable (d : Dev) (x : Recip) : List QEntry :=
  let l := (x.queue.filter fun e => !e.void && !heldEntry d e).reverse
  (l.filter fun e => e.colour == .red) ++ (l.filter fun e => e.colour == .yellow)

/-- The evictions after which a green copy is admitted; none: no set suffices. -/
def pushOut (d : Dev) (cls len q lfsr : Nat) (r : Option Nat) (out : List QEntry) (l : List QEntry) :
    Option (List QEntry) × Nat :=
  match l with
  | [] => (none, lfsr)
  | e :: rest =>
    let x := decide1 d cls len .green (q - e.len) lfsr r
    if x.1 then (some (e :: out), x.2.1) else pushOut d cls len (q - e.len) x.2.1 x.2.2 (e :: out) rest

/-! ### Admission (R281, R285 to R288) -/

/-- The first of a queue's entries that equals one is taken out. -/
def dropEntry (l : List QEntry) (e : QEntry) : List QEntry := l.erase e

/-- Gives back the entry blocks that a shorter queue no longer needs. -/
def trimBlocks (d : Dev) (r : Nat) : Dev :=
  let x := d.recip r
  let need := ceilDiv x.queue.length 15
  let spare := x.blocks.take (x.blocks.length - need)
  (each spare d fun d q => giveBuf d (classOwner x.cls) q).onRecip r fun x => { x with blocks := x.blocks.drop spare.length }

/-- Takes an entry out of a queue, its bytes with it. -/
def removeEntry (d : Dev) (r : Nat) (e : QEntry) : Dev :=
  trimBlocks (d.onRecip r fun x => { x with queue := dropEntry x.queue e, qlen := x.qlen - e.len }) r

/-- A recipient mirror's record of a copy, with the time of its event (R298, R299). -/
def mirrorCopy (d : Dev) (r : Nat) (e : QEntry) (dropped killed : Bool) (port : Nat) (time : Word) : Dev :=
  if d.mouth.mirrors.any fun m => m.recip == some r then
    let band := d.mouth.stored.find? fun b => b.stream == e.stream && b.seq == e.seq && b.killed == killed
    let bytes := if dropped then [] else e.header ++ e.payload
    aqPut d (recHdr0 bytes.length 2 (mirrorFlags e.idx e.count (band.any fun b => b.resend) dropped killed (e.variant == 1) (port == 1)) r e.stream)
      (recHdr1 e.seq e.idx e.rtp) time bytes
  else d

/-- What a copy counts in its band's reference count: itself, and a mirror copy of it (R285). -/
def QEntry.refs (e : QEntry) : Nat := if e.mirrored then 2 else 1

/-- The loss of a green or yellow copy marks its recipient, once per band (R287); bands that are no longer in hand are forgotten. -/
def markLoss (d : Dev) (r : Nat) (e : QEntry) (frame : Option Nat) : Dev :=
  if e.colour == .red || (d.recip r).dropBands.contains e.seq then d
  else
    let inHand := fun (seq : Nat) => (d.mouth.stored.any fun b => b.stream == e.stream && b.seq == seq)
      || (d.stream e.stream).bands.any fun b => b.seq == seq
    (mark d r frame).onRecip r fun x => { x with dropBands := e.seq :: x.dropBands.filter inHand }

/-- A dropped copy is counted against its recipient and leaves the reference count (R286, R287). -/
def dropCopy (d : Dev) (r : Nat) (e : QEntry) (w frame : Nat) : Dev :=
  let d := mirrorCopy (recipErr d r w 1) r e true false (portOf d (d.recip r)) (timeWord d)
  deref (markLoss d r e (some frame)) e.stream e.seq e.refs false

/-- The slot of a recipient holds a loaded key, and the index of a packet is not past the last one (R288, R360). -/
def keyUsable (d : Dev) (k index : Nat) : Bool := (d.key k).kind == 1 && decide (index < 2 ^ 48)

/-- Offers a copy to a recipient's queue: admits or drops it. `frame`: the band's frame. -/
def offer (d : Dev) (r : Nat) (e : QEntry) (frame : Nat) : Dev :=
  let x := d.recip r
  if !keyUsable d x.keySlot e.index then dropCopy d r e 21 frame
  else
    let c := decide1 d x.cls e.len e.colour x.qlen d.mouth.lfsr none
    let po := if c.1 then (some [], c.2.1)
      else if e.colour == .green then pushOut d x.cls e.len x.qlen c.2.1 c.2.2 [] (evictable d x)
      else (none, c.2.1)
    let d := d.onMouth fun m => { m with lfsr := po.2 }
    match po.1 with
    | none => dropCopy d r e 18 frame
    | some out =>
      let d := each out.reverse d fun d v =>
        let d := recipErr (removeEntry d r v) r 19 1
        deref (markLoss d r v ((entryOfSeq (d.stream v.stream).ref v.seq).map fun e => e.frame)) v.stream v.seq v.refs false
      let full := (d.recip r).queue.length % 15 == 0
      let got := if full then takeBuf d (classOwner x.cls) 0 else some ((0, 0), d)
      match got with
      | none => dropCopy (exhausted d 0) r e 18 frame
      | some (b, d) =>
        let d := d.onRecip r fun x =>
          { x with queue := x.queue ++ [e], qlen := x.qlen + e.len, depthHwm := max x.depthHwm (x.qlen + e.len),
                   blocks := if full then b :: x.blocks else x.blocks }
        if (d.recip r).place == .idle then enterCalendar d r else d

/-! ### Voiding (R296, R326, R33) -/

/-- Voids the queued copies of a recipient that a test picks: their bytes leave the counted length and their copies the
reference counts. -/
def voidCopies (d : Dev) (r : Nat) (p : QEntry → Bool) : Dev :=
  let hit := (d.recip r).queue.filter fun e => !e.void && p e
  if hit.isEmpty then d
  else
    let d := d.onRecip r fun x =>
      { x with queue := x.queue.map fun e => if !e.void && p e then { e with void := true } else e
               qlen := x.qlen - total (hit.map fun e => e.len) }
    let d := recipErr d r 20 hit.length
    each hit d fun d e => deref (deref d e.stream e.seq e.refs true) e.stream e.seq 0 false

/-- Unlinks void entries at the head of a queue. -/
def unlinkVoid (d : Dev) (r : Nat) : Dev :=
  trimBlocks (d.onRecip r fun x => { x with queue := x.queue.dropWhile fun e => e.void }) r

/-- Empties a queue of its copies: every copy is voided and unlinked. -/
def withdraw (d : Dev) (r : Nat) : Dev :=
  let hit := (d.recip r).queue.filter fun e => !e.void
  let d := recipErr d r 20 hit.length
  let d := each hit d fun d e => deref d e.stream e.seq e.refs false
  trimBlocks (unplace (d.onRecip r fun x => { x with queue := [], qlen := 0 }) r) r

end Sys2Proof.Machine
end

