-- ==== Sys2Proof/Machine/Egress.lean ====
section
/-! DEFINITION. Mouth from the output FIFOs to the recipient queues: storing, resequencing, release, kill, PASS, gaps and
the accounting of bands (R251, R259 to R266, R285, R356, R358, R576). -/

namespace Sys2Proof.Machine

/-! ### Bands of a stream -/

def bandAt (s : Stream) (seq : Nat) : Option Band := s.bands.find? fun b => b.seq == seq

def onBand (d : Dev) (n seq : Nat) (f : Band → Band) : Dev :=
  d.onStream n fun s => { s with bands := s.bands.map fun b => if b.seq = seq then f b else b }

/-- The stream's bands count for availability: it has reached RUNNING, and no ABORT closes it (R251). -/
def counted (s : Stream) : Bool := s.phase == .running || (s.phase == .closing && s.ran && !s.abort)

/-- Accounts a band once: host-caused, on time, or missed (R251, R252). -/
def account (d : Dev) (n seq : Nat) (host delivered : Bool) : Dev :=
  match bandAt (d.stream n) seq with
  | none => d
  | some b =>
    if b.accounted then d
    else
      let s := d.stream n
      let d := onBand d n seq fun b => { b with accounted := true }
      if !counted s then d
      else if host || b.host then availStat d n 6 1
      else
        let d := availStat d n 4 1
        if delivered && decide (d.now ≤ b.deadline + s.cfg.bandNs) then availStat d n 5 1
        else raise (availErr d n 7 1) (4 * n + 1) 7

/-- VERIFIED moves forward over every band that is verified (R230). -/
def moveVerified (d : Dev) (n : Nat) : Dev :=
  d.onStream n fun s =>
    { s with verA := true, verB := true, verified := (s.bands.foldl (fun (st : Option Nat × Bool) b =>
        if st.2 && b.verified then (some b.seq, true) else (st.1, false)) (s.verified, true)).1 }

/-- Bands that nothing waits for any more leave the list, with the images before VERIFIED. -/
def prune (d : Dev) (n : Nat) : Dev :=
  d.onStream n fun s =>
    let keep := s.bands.dropWhile fun b => b.verified && (b.released || b.lost || b.dropped) && b.accounted
    { s with
      bands := keep
      images := s.images.filter fun i => match s.verified with | none => true | some v => decide (seqAhead v i.seq < 2 ^ 31) }

/-! ### Vein values (R345, R356) -/

/-- The Vein parameters that govern a sequence number (R347). -/
def veinAt (s : Stream) (seq : Nat) : VeinCfg := if seqAhead s.veinFrom seq < 2 ^ 31 then s.vein else s.veinPrev

/-- The 16 bytes O of period j (R345). -/
def veinO (d : Dev) (v : VeinCfg) (j : Nat) : Nat :=
  aesEncrypt ((d.key v.slot).material / 2 ^ 96) (0x5645494E * 2 ^ 96 + v.salt % two32 * 2 ^ 64 + j % two32 * 2 ^ 32)

/-- Byte k of O. -/
def byteO (o k : Nat) : Nat := o / 2 ^ (8 * (15 - k)) % 256

/-- The variant of a Vein band that a transmit context is given. -/
def variantOf (d : Dev) (v : VeinCfg) (seq slot : Nat) : Nat :=
  let o := veinO d v (seq / 2 ^ v.f)
  ((bit (d.key slot).w (byteO o 1 % 64)).toNat + byteO o 2 % 2) % 2

/-- A band lies in a Vein period that has not ended: it follows the last one at which a period ended. -/
def inOpenPeriod (s : Stream) (seq : Nat) : Bool :=
  match s.veinEnded with
  | none => true
  | some e => seq != e && decide (seqAhead e seq < 2 ^ 31)

/-- The last band of a Vein period has been released or lost: a period without a released Vein band is an erasure, counted once
(R576). -/
def periodEnd (d : Dev) (n seq : Nat) : Dev :=
  let s := d.stream n
  let v := veinAt s seq
  if inOpenPeriod s seq && (seq + 1) % 2 ^ v.f == 0 then
    let d := if s.veinReleased || !v.en then d else veinStat d n 1 1
    d.onStream n fun s => { s with veinReleased := false, veinEnded := some seq }
  else d

/-! ### Landing of a stream's Mouth registers (R308, R533) -/

/-- The Mouth registers of a stream land. DESIGN CHOICE (notes/assumptions/109.md): since a stream without SRC_UDP sends nothing (R313), a
landing that takes it away voids the copies still queued. -/
def landMouth (d : Dev) (n : Nat) : Dev :=
  let mine := fun (c : Capture) => c.stream == n && decide (rMs n 0 ≤ c.addr) && decide (c.addr < rMs n 0x100)
  let l := d.captured.filter mine
  let had := srcUdp d n
  let d := each l { d with captured := d.captured.filter fun c => !mine c } fun d c =>
    setReg d c.addr (if c.addr = rMs n oMsCfg then setFld c.value 44 32 0 else c.value)
  if had ≠ 0 ∧ srcUdp d n = 0 then each (recipsOf d n) d fun d r => unlinkVoid (voidCopies d r fun e => e.stream == n) r else d

/-! ### Release (R262, R285) -/

/-- A slot switches to a new key: the key before it, and earlier ones still in their grace, stay accepted (R363). -/
def switchKey (d : Dev) (x : Key) (m : Nat) (id : Word) (graceMs : Nat) : Key :=
  { x with
    material := m, keyId := id, pending := none, old := x.material, graceUntil := some (d.now + graceMs * 1000000)
    older := (x.graceUntil.toList.map fun t => (x.old, t)) ++ x.older }

/-- The pending key of a TX slot takes effect at the first band released to its context (R363). -/
def rollTx (d : Dev) (k : Nat) : Dev :=
  let x := d.key k
  match x.pending with
  | none => d
  | some (m, id) =>
    let d := d.setKey k (switchKey d x m id x.pendingGraceMs)
    raise d 1265 2 k

/-- A band joins the history of a transmit context: at most 256, newest first (R302). -/
def addHistory (x : Key) (seq first count : Nat) (resend : Bool) : Key :=
  let old := x.history.map fun h => if h.1 = seq then (h.1, h.2.1, h.2.2.1, h.2.2.2.1, resend || h.2.2.2.2) else h
  { x with history := ((seq, first, count, false, false) :: old).take 256 }

/-- The transmit context of a slot takes `count` packet numbers (R267, R360). -/
def takeIndex (d : Dev) (k seq count : Nat) (resend : Bool) : Dev :=
  let x := d.key k
  if x.kind ≠ 1 then d
  else
    let d := rollTx d k
    let x := d.key k
    let next := x.index + count
    let d := d.setKey k { addHistory x seq x.index count resend with index := next, wearRaised := x.wearRaised || decide (2 ^ 48 - 2 ^ 24 ≤ next) }
    if !x.wearRaised && decide (2 ^ 48 - 2 ^ 24 ≤ next) then raise d 1265 1 k else d

/-- What a transmit context sends of a band: slot, variant, first index, payloads. -/
structure CtxSend where
  slot : Nat
  variant : Nat
  first : Nat
  master : Nat
  pays : List (List Byte)
deriving DecidableEq, Repr

/-- The sends of the contexts of a band, and the device with their numbers taken. -/
def ctxSends (d : Dev) (b : Stored) : List CtxSend × Dev :=
  (slotsOf d b.stream).foldl (fun st k =>
    let d := st.2
    let v := if b.vein then variantOf d (veinAt (d.stream b.stream) b.seq) b.seq k else 0
    let pays := bandPayloads (d.stream b.stream).cfg.codec b.b b.key (contextRoom d b.stream k) b.pre (if v = 1 then b.data1 else b.data0)
    let t := takeIndex d k b.seq pays.length b.resend
    (st.1 ++ [{ slot := k, variant := v, first := (d.key k).index, master := (t.key k).material, pays := pays }], t))
    ([], d)

/-- The colour of a band's copies (R290). -/
def bandColour (d : Dev) (b : Stored) : Colour :=
  if b.rep || ((d.stream b.stream).ref.table.any fun e => e.frame == b.frame && e.barred) then .yellow else .green

/-- The copy of packet i that a recipient is offered. -/
def copyOf (d : Dev) (b : Stored) (c : CtxSend) (r i : Nat) (col : Colour) (dup : Bool) : QEntry :=
  let x := d.recip r
  let rtp := (c.first + i) % 65536
  { stream := b.stream, seq := b.seq, idx := i, count := c.pays.length, payload := c.pays.getD i [], index := c.first + i
    master := c.master, len := frameBytes d (preferredPort x) x.ipv6 i (c.pays.getD i []).length, colour := col, dup := dup
    variant := c.variant, rtp := rtp, admitAt := d.now, slot := c.slot, header := rtpHeader d b i c.pays.length rtp
    ssrc := ssrcOf d b.stream, srcPort := srcUdp d b.stream, mirrored := d.mouth.mirrors.any fun m => m.recip == some r }

/-- Recipient r is given duplicates of a band's packets (R289). -/
def duplicated (d : Dev) (b : Stored) (r : Nat) : Bool := (d.recip r).dup == 2 || ((d.recip r).dup == 1 && b.key)

/-- The copies that a band's release will offer: those of each recipient with its duplicates, and the mirror copies of both (R285). -/
def copiesOf (d : Dev) (b : Stored) (sends : List CtxSend) : Nat :=
  total ((recipsOf d b.stream).map fun r =>
    match sends.find? fun c => c.slot == (d.recip r).keySlot with
    | none => 0
    | some c =>
      (if duplicated d b r then 2 else 1) * (if d.mouth.mirrors.any fun m => m.recip == some r then 2 else 1) * c.pays.length)

/-- Packet i of a band is offered to a recipient, its duplicate right after it (R289). -/
def offerPacket (d : Dev) (b : Stored) (sends : List CtxSend) (col : Colour) (i r : Nat) : Dev :=
  match sends.find? fun c => c.slot == (d.recip r).keySlot with
  | none => d
  | some c =>
    if c.pays.length ≤ i then d
    else
      let d := offer d r (copyOf d b c r i col false) b.frame
      if duplicated d b r then offer d r (copyOf d b c r i .red true) b.frame else d

/-- The records of a stream mirror: every packet of variant 0, numbered from the mirror's own context (R298). -/
def streamMirror (d : Dev) (b : Stored) : Dev :=
  if !(d.mouth.mirrors.any fun m => m.stream == b.stream && m.recip.isNone) then d
  else
    let next := ((d.mouth.mirrors.find? fun m => m.stream == b.stream && m.recip.isNone).map fun m => m.next).getD 0
    let pays := bandPayloads (d.stream b.stream).cfg.codec b.b b.key (portRoom d 0 false) b.pre b.data0
    let d := (List.range pays.length).foldl (fun d i =>
      let bytes := rtpHeader d b i pays.length (next + i) ++ pays.getD i []
      aqPut d (recHdr0 bytes.length 1 (mirrorFlags i pays.length b.resend false false false false) 0xFFFF b.stream)
        (recHdr1 b.seq i (next + i)) (timeWord d) bytes) d
    d.onMouth fun m => { m with mirrors := m.mirrors.map fun x =>
      if x.stream = b.stream ∧ x.recip.isNone then { x with next := x.next + pays.length } else x }

/-- The release and the PASS of a band have both come: it is accounted, and a Vein band counted (R251, R576). -/
def settle (d : Dev) (n seq : Nat) : Dev :=
  match bandAt (d.stream n) seq with
  | none => d
  | some b =>
    if b.released && b.verdict == some 0 then
      let d := if b.veinCounted || !b.vein then d else veinStat (onBand d n seq fun b => { b with veinCounted := true }) n 0 1
      prune (account d n seq b.host true) n
    else d

/-- Releases a stored band: its copies are queued (R262, R285). A band of a stream without a recipient or without SRC_UDP
is discarded and counted (R266, R313). -/
def release (d : Dev) (n seq : Nat) : Dev :=
  match storedAt d n seq with
  | none => d
  | some b =>
    let d := landMouth d n
    let d := d.onStream n fun s => { s with
      phase := if s.phase == .admitted then .running else s.phase, veinReleased := s.veinReleased || (b.vein && inOpenPeriod s seq) }
    let d := onBand d n seq fun b => { b with released := true }
    let d := onStored d (isBand n seq false) fun b => { b with released := true, releasedAt := d.now }
    let d := streamMirror (incStat d (rMs n oMsBands) 1 (4 * n) n oMsBands) b
    let rs := recipsOf d n
    let d :=
      if rs.isEmpty || regFld d (rMs n oMsCfg) 31 16 == 0 then incErr d (rMs n oMsNorec)
      else
        let col := bandColour d b
        let cs := ctxSends d b
        let most := cs.1.foldl (fun m c => max m c.pays.length) 0
        let d := onStored cs.2 (isBand n seq false) fun x => { x with refs := copiesOf d b cs.1 }
        (List.range most).foldl (fun d i => each rs d fun d r => offerPacket d b cs.1 col i r) d
    settle (freeStored d n seq) n seq

/-! ### The resequencer (R261 to R265) -/

def reseqNext (d : Dev) (n : Nat) : Nat := regFld d (rMs n oMsReseq) 63 32

def setNext (d : Dev) (n v : Nat) : Dev := setRegFld d (rMs n oMsReseq) 63 32 v

def setHeld (d : Dev) (n : Nat) (l : List HeldItem) : Dev :=
  setRegFld (d.onStream n fun s => { s with held := l, heldSince := d.now }) (rMs n oMsReseq) 31 24 l.length

/-- A band leaves the held items. -/
def dropHeld (d : Dev) (n seq : Nat) : Dev :=
  if (d.stream n).held.any fun h => h.seq == seq && h.count == 0 then
    let since := (d.stream n).heldSince
    (setHeld d n ((d.stream n).held.filter fun h => h.seq != seq || h.count != 0)).onStream n fun s => { s with heldSince := since }
  else d

/-- The bands a gap covers are lost for good: they are accounted, and each ends its Vein period where it stands last
(R251, R265). A flush and an ABORT are host-caused. -/
def loseBands (d : Dev) (n first count cause : Nat) : Dev :=
  let d := (List.range (min count 4096)).foldl (fun d i =>
    let seq := seqAdd first i
    let d := onBand d n seq fun b => { b with lost := true }
    periodEnd (account d n seq (cause == 2) false) n seq) d
  prune d n

/-- A gap marker at NEXT: NEXT rises by COUNT and the recipients are marked (R261, R265). -/
def applyGap (d : Dev) (n count cause : Nat) (frame : Option Nat) : Dev :=
  let first := reseqNext d n
  let d := incErr (setNext d n (seqAdd first count)) (rMs n oMsGaps)
  let d := match frame with
    | some f => markGap d n f
    | none => each (recipsOf d n) d fun d r => mark d r none
  loseBands d n first count cause

/-- The frame of a band by its number: from the stream's bands, else from the acknowledgement table. -/
def frameOfSeq (d : Dev) (n seq : Nat) : Option Nat :=
  match bandAt (d.stream n) seq with
  | some b => some b.frame
  | none => (entryOfSeq (d.stream n).ref seq).map fun e => e.frame

/-- The band at NEXT may be released: cut-through is on, or it has passed (R262). A pending value of CUT_THROUGH governs
the next release (R294). -/
def mayRelease (d : Dev) (n seq : Nat) : Bool :=
  match storedAt d n seq with
  | none => false
  | some b =>
    b.passed || (match d.captured.find? fun c => c.addr == rMs n oMsCfg with
      | some c => bit c.value 63
      | none => regBit d (rMs n oMsCfg) 63)

/-- Handles what stands at NEXT for as long as something does. -/
def advanceNext (fuel : Nat) (d : Dev) (n : Nat) : Dev :=
  match fuel with
  | 0 => d
  | k + 1 =>
    let next := reseqNext d n
    match (d.stream n).held.find? fun h => h.seq == next with
    | none => d
    | some h =>
      if h.count ≠ 0 then
        let d := setHeld d n ((d.stream n).held.filter fun x => x.seq != next)
        advanceNext k (applyGap d n h.count h.cause (frameOfSeq d n next)) n
      else if mayRelease d n next then
        let d := setHeld d n ((d.stream n).held.filter fun x => x.seq != next)
        let d := release (setNext d n (seqAdd next 1)) n next
        advanceNext k (periodEnd d n next) n
      else d

/-- The resequencer of stream n discards an item: it is behind NEXT, or 16 items are held and it is not at NEXT (R261). -/
def discards (d : Dev) (n seq : Nat) : Bool :=
  let next := reseqNext d n
  seq != next && (decide (2 ^ 31 ≤ seqAhead next seq) || decide (16 ≤ (d.stream n).held.length))

/-- An item has been read, or made by Mouth, for stream n (R261): handled at NEXT, held ahead of it, discarded behind
it. -/
def reseqItem (d : Dev) (n seq count cause : Nat) : Dev :=
  let next := reseqNext d n
  if discards d n seq then incErr d (rMs n oMsStale)
  else
    let s := d.stream n
    -- the time of R264 runs from the first item held behind NEXT; one that stands at NEXT and waits for its PASS is none
    let since := if s.held.all fun h => h.seq == next then d.now else s.heldSince
    let d := setHeld d n (s.held ++ [{ seq := seq, count := count, cause := cause }])
    let d := d.onStream n fun s => { s with heldSince := since }
    advanceNext 64 d n

/-- Stores a band read from a FIFO, with its bitstreams (R259, R278, R281); where Sump has no room it becomes a gap (R265). A band that the
resequencer discards takes no buffer. -/
def storeBand (d : Dev) (it : FifoItem) (data0 data1 : List Byte) : Dev :=
  let n := it.stream
  if discards d n it.seq then reseqItem d n it.seq 0 0 else
  let vein := it.variant != 0
  let len := data0.length + data1.length
  let ps := pieces (len + 1) (chunkOf d n) len
  let packets := fun data => (bandPayloads (d.stream n).cfg.codec it.b it.key (portRoom d 0 false) it.pre data).length
  let pk := packets data0 + (if vein then packets data1 else 0)
  match takeBufs d n [] ((64 + 8 * ps.length + 8 * pk) :: ps) with
  | .error d => reseqItem (raise d (4 * n + 1) 9) n it.seq 1 4
  | .ok (bufs, d) =>
    let passed := it.passed || (bandAt (d.stream n) it.seq).any fun b => b.verdict == some 0
    let d := d.onMouth fun m => { m with stored := m.stored ++ [{
      stream := n, seq := it.seq, frame := it.frame, b := it.b, last := it.last, vein := vein, key := it.key
      rep := it.rep, resend := it.resend, len0 := data0.length, len1 := data1.length, data0 := data0, data1 := data1, digest4 := it.digest4, epoch := it.epoch
      bufs := bufs, passed := passed, framePtp := it.framePtp, pre := it.pre }] }
    reseqItem d n it.seq 0 0

/-! ### Verdicts reach Mouth (R262, R263, R295, R296) -/

/-- The PASS of a band: its held copies are free to leave, and a band that waited for it at NEXT is released. -/
def passBand (d : Dev) (n seq : Nat) : Dev :=
  let d := onStored d (isBand n seq false) fun b => { b with passed := true }
  let waiting := (recipsOf d n).filter fun r =>
    (d.recip r).place == .held && (match liveHead (d.recip r) with | some e => e.seq == seq && e.stream == n | none => false)
  let d := each waiting d fun d r => enterCalendar d r
  advanceNext 64 (settle d n seq) n

/-- Kills a released band: the packet on each wire is FCS-killed, the queued copies are voided (R296). -/
def killBand (d : Dev) (n seq : Nat) : Dev :=
  let d := each [0, 1] d fun d p =>
    match (d.port p).wire with
    | some (_, e, _) =>
      if e.stream = n ∧ e.seq = seq ∧ !(d.port p).wireKilled then
        emit (d.setPort p { d.port p with wireKilled := true }) (.fcsKill p)
      else d
    | none => d
  let d := onStored d (isBand n seq false) fun b => { b with killed := true }
  let d := each ((d.recips.filter fun x => x.2.stream == n).map fun x => x.1) d fun d r =>
    let d := voidCopies d r fun e => e.stream == n && e.seq == seq
    if (d.recip r).place == .held then enterCalendar d r else d
  let d := each (slotsOf d n) d fun d k => d.onKey k fun x =>
    { x with history := x.history.map fun h => if h.1 = seq then (h.1, h.2.1, h.2.2.1, true, h.2.2.2.2) else h }
  let d := onBand d n seq fun b => { b with released := false }
  freeStored (incErr d (rMs n oMsKills)) n seq

/-- A band is behind NEXT: Mouth has released it, or lost it to a gap. -/
def behindNext (d : Dev) (n seq : Nat) : Bool := decide (2 ^ 31 ≤ seqAhead (reseqNext d n) seq)

/-- NEXT goes back to a band; the time limit on it runs from now (R264). -/
def nextBack (d : Dev) (n seq : Nat) : Dev :=
  if behindNext d n seq then (setNext d n seq).onStream n fun s => { s with heldSince := d.now } else d

/-- Mouth has released the band, and no kill has reached it. -/
def wasReleased (d : Dev) (n seq : Nat) : Bool := (bandAt (d.stream n) seq).any fun b => b.released

/-- A gap marker has covered the band: it will not be sent again (R264, R265). -/
def wasLost (d : Dev) (n seq : Nat) : Bool := (bandAt (d.stream n) seq).any fun b => b.lost

/-- A FAIL withdraws a band from Mouth (R262, R263): released, it is killed and NEXT returns to it; otherwise it is
discarded. -/
def failBand (d : Dev) (n seq : Nat) : Dev :=
  if wasReleased d n seq then nextBack (killBand d n seq) n seq
  else
    discardStored (dropHeld d n seq) n seq

/-- The band that follows a failed one: killed where it has been released, discarded where it is held; NEXT stays at the
failed band (R263). -/
def followBand (d : Dev) (n failed seq : Nat) : Dev :=
  let d := if wasReleased d n seq then killBand d n seq else discardStored (dropHeld d n seq) n seq
  if wasLost d n failed then d else nextBack d n failed

/-! ### A stream leaves Mouth (R33, R34) -/

/-- ABORT: every queued packet is withdrawn and its buffers released; a packet on the wire completes. -/
def withdrawStream (d : Dev) (n : Nat) : Dev :=
  let d := setHeld d n []
  let d := each (recipsOf d n) d fun d r => withdraw d r
  let mine := d.mouth.stored.filter fun b => b.stream == n
  each mine d fun d b =>
    let onWire := ([0, 1].filter fun p => match (d.port p).wire with | some (_, e, _) => e.stream == n && e.seq == b.seq | none => false).length
    if onWire = 0 then discardStored d n b.seq
    else onStored d (isBand n b.seq false) fun b => { b with released := true, passed := true, refs := onWire }

/-- Everything a recipient holds goes, and the entry becomes free (R326, R315). -/
def freeRecip (d : Dev) (r : Nat) : Dev :=
  let d := withdraw d r
  let d := refRemove d r
  let d := d.onMouth fun m => { m with mirrors := m.mirrors.filter fun x => x.recip != some r }
  d.setRecip r ({} : Recip)

end Sys2Proof.Machine
end

