-- ==== Sys2Proof/Machine/Shaft.lean ====
section
/-! DEFINITION. Shaft: chains, descriptors, row accounting and abandonment (R415 to R429). -/

namespace Sys2Proof.Machine

/-! ### Rows (R422, R423, R424) -/

/-- The first row from r that no interval covers. -/
def coverFrom (fuel : Nat) (l : List (Nat × Nat)) (r : Nat) : Nat :=
  match fuel with
  | 0 => r
  | k + 1 =>
    match l.find? fun x => decide (x.1 ≤ r) && decide (r < x.2) with
    | none => r
    | some x => coverFrom k l x.2

/-- The intervals from r to h that no interval covers. -/
def gapsFrom (fuel : Nat) (l : List (Nat × Nat)) (r h : Nat) : List (Nat × Nat) :=
  match fuel with
  | 0 => []
  | k + 1 =>
    let a := coverFrom (l.length + 1) l r
    if h ≤ a then []
    else
      let b := l.foldl (fun m x => if a < x.1 then min m x.1 else m) h
      (a, b) :: gapsFrom k l b h

/-- Rows of 0 to h - 1 that intervals cover. -/
def covered (l : List (Nat × Nat)) (h : Nat) : Nat := h - total ((gapsFrom (l.length + 1) l 0 h).map fun x => x.2 - x.1)

/-- The accounted rows of a frame on a channel. -/
def frameRows (c : Chan) (f : Nat) : FrameRows := (c.frames.find? fun x => x.frame == f).getD { frame := f }

def setFrameRows (c : Chan) (x : FrameRows) : Chan :=
  { c with frames := if c.frames.any fun y => y.frame == x.frame then c.frames.map fun y => if y.frame = x.frame then x else y
                     else c.frames ++ [x] }

/-- The delivered-row count of a frame (R422). -/
def deliveredRows (cfg : StreamCfg) (x : FrameRows) : Nat :=
  if x.ended then cfg.height
  else
    let l := coverFrom (x.luma.length + x.missing.length + 1) (x.luma ++ x.missing) 0
    if planar cfg.srcFormat then min (min l (2 * coverFrom (x.chroma.length + 1) x.chroma 0)) cfg.height else min l cfg.height

/-- A band of a frame holds rows declared missing (R154). -/
def bandMissing (d : Dev) (n frame b : Nat) : Bool :=
  let cfg := (d.stream n).cfg
  let lo := 64 * cfg.firstRow b
  let hi := min cfg.height (lo + 64 * cfg.rowsOf b)
  (frameRows (d.chan n) frame).missing.any fun x => decide (x.1 < hi) && decide (lo < x.2)

/-- A frame of a stream is released: the Lantern has passed it, or every band of it is eligible, and no band of it
waits for a verdict (R423). -/
def frameReleased (d : Dev) (n frame : Nat) : Bool :=
  let s := d.stream n
  let cur := regFld d (rLan n oLanRows) 63 32
  let synced := regBit d (rLan n oLanRows) 0
  let busy := s.bands.any fun b => b.frame == frame && !b.verified
  synced && !busy && (frameAfter cur frame || (cur == frame && !s.skipFrame && decide (s.cfg.bands ≤ s.nextBand)))

/-- Frames that are released no longer take part in fill and guard. -/
def dropReleased (d : Dev) (n : Nat) : Dev :=
  d.onChan n fun c => { c with frames := c.frames.filter fun x => !frameReleased d n x.frame || x.frame == (c.chain.map fun h => h.frame).getD two32 }

/-- The fill of a channel (R424): luma rows, or bytes of the input buffer. -/
def fillOf (d : Dev) (c : Nat) : Nat :=
  if c < 192 then
    total (((d.chan c).frames.filter fun x => !frameReleased d c x.frame).map fun x => covered x.luma (d.stream c).cfg.height)
  else (d.ctx (c - 192)).fill

/-- `SHAFT_CH_CTRL` in force: that of the chain in progress (R429). -/
def chCtrl (d : Dev) (c : Nat) : Word := ((d.chan c).chain.map fun h => h.ctrl).getD (reg d (rCh c oChCtrl))

/-- HIGH and LOW that a value of `SHAFT_CH_CTRL` gives channel c, as its fill counts. -/
def marksOf (d : Dev) (c : Nat) (w : Word) : Nat × Nat :=
  if c < 192 then
    let h := (d.stream c).cfg.height
    (if fld w 47 24 = 0 then 2 * h else fld w 47 24, if fld w 23 0 = 0 then h else fld w 23 0)
  else
    let n := (d.ctx (c - 192)).inSize
    (if fld w 47 24 = 0 then 3 * n / 4 else 4096 * fld w 47 24, if fld w 23 0 = 0 then n / 2 else 4096 * fld w 23 0)

/-- PAUSED follows the fill: set from HIGH, cleared from LOW (R424). -/
def pauseUpdate (d : Dev) (c : Nat) : Dev :=
  let f := fillOf d c
  let m := marksOf d c (chCtrl d c)
  if m.1 ≤ f then setRegBit d (rCh c oChStatus) 12 true
  else if f ≤ m.2 then setRegBit d (rCh c oChStatus) 12 false
  else d

/-- A slot that a frame would overwrite still holds an earlier frame that is not released (R423). -/
def guarded (d : Dev) (n frame : Nat) : Bool :=
  let k := max 1 (d.stream n).cfg.slotCount
  let early := fun f => frameAfter frame f && f % k == frame % k
  ((d.chan n).frames.any fun x => early x.frame && !frameReleased d n x.frame)
    || (d.stream n).bands.any fun b => early b.frame && !b.verified

/-! ### The end of a chain (R421, R422, R426) -/

/-- Sum of the lengths of intervals cut to a height, counted once each. -/
def rowCount (l : List (Nat × Nat)) (h : Nat) : Nat := covered (l.map fun x => (x.1, min x.2 h)) h

/-- A chain of channel c ends with a STATUS: the rows not accounted are declared missing, the record is written, and the
channel is free for its next chain. -/
def endChain (d : Dev) (c status : Nat) : Dev :=
  match (d.chan c).chain with
  | none => d
  | some h =>
    let cfg := (d.stream c).cfg
    let x := frameRows (d.chan c) h.frame
    let gaps := gapsFrom (x.luma.length + x.missing.length + 1) (x.luma ++ x.missing) 0 cfg.height
    let holes := if planar cfg.srcFormat then (gapsFrom (x.chroma.length + 1) x.chroma 0 (cfg.height / 2)).map fun g => (2 * g.1, 2 * g.2) else []
    let x' := { x with missing := x.missing ++ gaps ++ (if x.ended then [] else holes), ended := true }
    let d := if c < 192 ∧ h.headDone then d.setChan c (setFrameRows (d.chan c) x') else d
    let d := d.onChan c fun y => { y with chain := none, desc := none }
    if h.record = 0 then d
    else
      let w0 := word (h.frame % two32 * 2 ^ 32 + status * 2 ^ 24 + h.tail.toNat * 2 ^ 23 + h.descs % 65536)
      let w1 := if c < 192 then word (rowCount x'.luma cfg.height % 65536 * 2 ^ 48 + rowCount x'.missing cfg.height % 65536 * 2 ^ 32) else 0
      emit d (.host h.record [w0, w1])

/-- Counts error k of a channel and raises its Shaft cause; 0: none (R426, R440). -/
def chErr (d : Dev) (c k cause : Nat) : Dev :=
  let d := incErr d (rCh c (oChErr k))
  if cause = 0 then d else raise d 1137 cause c

/-- The Lantern closes a frame: a chain of it that still runs is abandoned STALE (R426). -/
def staleChain (d : Dev) (n frame : Nat) : Dev :=
  match (d.chan n).chain with
  | some h => if h.headDone && h.frame == frame then endChain (chErr d n 5 0) n 5 else d
  | none => d

/-- The target of a channel closes: the chain in progress is abandoned CLOSED, the queued chains are discarded. -/
def closeChannel (d : Dev) (c : Nat) : Dev := (endChain d c 6).onChan c fun y => { y with queue := [] }

/-- A channel returns to the state of one whose target is FREE. -/
def clearChannel (d : Dev) (c : Nat) : Dev :=
  setReg (setReg (setReg (d.setChan c ({} : Chan)) (rCh c oChStatus) 0) (rCh c oChBytes) 0) (rCh c oChDescs) 0

end Sys2Proof.Machine
end

