-- ==== Sys2Proof/Machine/Lantern.lean ====
section
/-! DEFINITION. The Lantern: tokens, RASTER_SYNC pulses, thresholds, eligibility, closes and stalls (R38, R43 to R50,
R57). -/

namespace Sys2Proof.Machine

/-! ### Position -/

def lanFrame (d : Dev) (n : Nat) : Nat := regFld d (rLan n oLanRows) 63 32
def lanRows (d : Dev) (n : Nat) : Nat := regFld d (rLan n oLanRows) 31 16
def lanClosed (d : Dev) (n : Nat) : Bool := regBit d (rLan n oLanRows) 1
def lanSynced (d : Dev) (n : Nat) : Bool := regBit d (rLan n oLanRows) 0

def setRows (d : Dev) (n r : Nat) : Dev := setRegFld d (rLan n oLanRows) 31 16 r
def setClosed (d : Dev) (n : Nat) : Dev := setRegBit d (rLan n oLanRows) 1 true

/-- `LANTERN_CTRL` as it governs the frame: the landed value while no frame has begun (R42). DESIGN CHOICE
(notes/assumptions/67.md): on a SYNCED Lantern a landed SRC applies with the next frame, and it is the source in force until then
whose advance begins that frame; tokens and pulses of the newly selected source are ignored until then. -/
def lanCtrl (d : Dev) (n : Nat) : Word := if lanSynced d n then (d.stream n).ctrl else reg d (rLan n oLanCtrl)

/-- The Lantern accepts raster: its stream is ADMITTED, RUNNING or arming (R15, R33, R38, R44). -/
def lanOpen (s : Stream) : Bool := s.arming || s.phase == .admitted || s.phase == .running

def guardRows (d : Dev) (n : Nat) : Nat := fld (lanCtrl d n) 15 0
def lanSrc (d : Dev) (n : Nat) : Nat := fld (lanCtrl d n) 47 45

/-- The threshold of band b. -/
def thresholdOf (d : Dev) (n b : Nat) : Nat := (d.stream n).cfg.threshold (guardRows d n) b

/-- An ignored token is counted. -/
def ignoreToken (d : Dev) (n : Nat) : Dev := incErr d (rLan n oLanIgnored)

/-! ### Eligibility (R47 to R50) -/

/-- The rows of the Lantern's frame that count for eligibility: its row count, and Shaft's where Shaft serves it. -/
def readyRows (d : Dev) (n : Nat) : Nat :=
  let c := d.chan n
  if c.served then min (lanRows d n) (deliveredRows (d.stream n).cfg (frameRows c (lanFrame d n))) else lanRows d n

/-- Band b of the Lantern's frame becomes eligible now; `rep`: as a repeat band that a close forces. -/
def bornBand (d : Dev) (n b : Nat) (rep : Bool) : Dev :=
  let s := d.stream n
  let band : Band :=
    { seq := s.nextSeq, frame := lanFrame d n, b := b, part := b % max 1 s.parts.length, n := s.cfg.sbOf b
      last := b + 1 == s.cfg.bands, eligibleAt := d.now
      deadline := d.now + regFld d (rLan n oLanCtrl) 31 16 * 1000, rep := rep, host := rep
      framePtp := reg d (rLan n oLanFramePtp) }
  let d := d.setStream n { s with bands := s.bands ++ [band], nextSeq := seqAdd s.nextSeq 1, nextBand := b + 1 }
  if b + 1 = s.cfg.bands then setClosed d n else d

/-- Every band of the frame whose threshold has been reached becomes eligible, in band order. -/
def eligible (fuel : Nat) (d : Dev) (n : Nat) : Dev :=
  match fuel with
  | 0 => d
  | k + 1 =>
    let s := d.stream n
    if lanSynced d n && !s.skipFrame && decide (s.nextBand < s.cfg.bands) && decide (thresholdOf d n s.nextBand ≤ readyRows d n) then
      eligible k (bornBand d n s.nextBand false) n
    else d

/-- At most 513 bands make a picture. -/
def makeEligible (d : Dev) (n : Nat) : Dev := eligible 513 d n

/-- The bands not yet eligible become repeat bands; each is counted. -/
def forceBands (fuel : Nat) (d : Dev) (n : Nat) : Dev :=
  match fuel with
  | 0 => d
  | k + 1 =>
    let s := d.stream n
    if s.nextBand < s.cfg.bands then forceBands k (incErr (bornBand d n s.nextBand true) (rLan n oLanRepeat)) n else d

/-- Closing the Lantern's frame (R50): bands whose rows are there become eligible as they are, the rest as repeat bands,
and FILL is raised once where there are any. A chain of the frame that still runs becomes STALE. -/
def closeFrame (d : Dev) (n : Nat) : Dev :=
  let d := makeEligible d n
  let s := d.stream n
  let d :=
    if s.skipFrame || decide (s.cfg.bands ≤ s.nextBand) then d
    else raise (forceBands 513 d n) (4 * n) 3
  staleChain (setClosed d n) n (lanFrame d n)

/-! ### Advances -/

/-- An accepted advance is counted and stamped (R44, R46); one accepted while arming is remembered (R38). -/
def accepted (d : Dev) (n : Nat) : Dev :=
  let d := incStat d (rLan n oLanTokens) 1 (4 * n) n oLanTokens
  let d := setReg d (rLan n oLanLastPtp) (timeWord d)
  d.onStream n fun s => { s with
    lastAdvance := d.now, stallRaised := false, armAdvances := if s.arming then s.armAdvances + 1 else s.armAdvances }

/-- The Lantern takes up a frame at a row count. -/
def startFrame (d : Dev) (n frame rows : Nat) : Dev :=
  let d := setReg d (rLan n oLanRows) (word (frame % two32 * 2 ^ 32 + rows % 65536 * 2 ^ 16 + 1))
  let d := setReg d (rLan n oLanFramePtp) (timeWord d)
  d.onStream n fun s =>
    { s with ctrl := reg d (rLan n oLanCtrl), nextBand := 0, skipFrame := false, stallClosed := false, rowTimer := none }

/-- The first accepted advance after STREAM.OPEN (R38, R47): a frame whose band 1 is already reached is not coded. -/
def firstFrame (d : Dev) (n frame rows : Nat) : Dev :=
  let d := startFrame d n frame rows
  let s := d.stream n
  if 1 < s.cfg.bands ∧ thresholdOf d n 1 ≤ rows then d.setStream n { s with skipFrame := true } else d

/-- A raster token evaluated in one step (R44). -/
def token (d : Dev) (n : Nat) (v : Word) : Dev :=
  let s := d.stream n
  if !lanOpen s || lanSrc d n != 0 then ignoreToken d n
  else if fld v 63 56 ≠ n ∨ fld v 6 0 ≠ 0 then raise (ignoreToken d n) (4 * n) 1
  else
    let frame := fld v 55 24
    let r := min (fld v 23 8) s.cfg.height
    let abandon := bit v 7
    if !lanSynced d n then accepted (firstFrame d n frame r) n
    else
      let k := seqAhead (lanFrame d n) frame
      if k = 0 then
        if s.stallClosed then ignoreToken d n
        else if lanRows d n < r then
          let d := accepted (setRows d n r) n
          if abandon then closeFrame d n else d
        else if abandon then closeFrame (accepted d n) n
        else ignoreToken d n
      else if k < 2 ^ 31 then
        let d := if lanClosed d n then d else closeFrame d n
        let d := if 1 < k then raise (incErrBy d (rLan n oLanSkipped) (k - 1)) (4 * n) 2 else d
        let d := accepted (startFrame d n frame r) n
        if abandon then closeFrame d n else d
      else ignoreToken d n

/-- The row count has reached H by RASTER_SYNC: every band becomes eligible and CLOSED is set (R46). A band of a stream served by
Shaft waits for its delivered rows beside (R47), and CLOSED for that band (DEDUCED, notes/assumptions/68.md). -/
def completeRows (d : Dev) (n : Nat) : Dev :=
  let d := makeEligible d n
  if (d.chan n).served then d else setClosed d n

/-- SYNC_MODE of a value of `LANTERN_CTRL`. -/
def syncMode (w : Word) : Nat := fld w 49 48

/-- A pulse begins a frame: the first one, every pulse of SYNC_MODE 1, and in SYNC_MODE 0 the pulse after a complete frame
(R46). The frame in progress is under the mode that governs it. -/
def pulseBegins (d : Dev) (n : Nat) : Bool :=
  !lanSynced d n || syncMode (lanCtrl d n) != 0 || lanRows d n == (d.stream n).cfg.height

/-- A pulse that begins a frame closes one that is not CLOSED (R50), and starts the next under the landed SYNC_MODE (R42, R46). DESIGN
CHOICE (notes/assumptions/67.md): the tests of R47 on the first advance after STREAM.OPEN, which speak of a token, hold for a first pulse
too: where its rows reach the threshold of band 1 its frame is not coded. -/
def pulseStart (d : Dev) (n : Nat) : Dev :=
  let h := (d.stream n).cfg.height
  let line := regFld d (rLan n oLanSync) 63 32
  let mode := syncMode (reg d (rLan n oLanCtrl))
  let rows := if mode = 0 then min (regFld d (rLan n oLanSync) 15 0) h else if line = 0 then h else 0
  let d :=
    if !lanSynced d n then firstFrame d n 0 rows
    else
      let d := if lanClosed d n then d else closeFrame d n
      startFrame d n (seqAdd (lanFrame d n) 1) rows
  let d := accepted d n
  if rows = h then completeRows d n
  else if mode = 0 then d
  else d.onStream n fun s => { s with rowTimer := some (d.now + line) }

/-- A pulse of SYNC_MODE 0 inside a frame adds SYNC_ROWS to the row count. -/
def pulseRows (d : Dev) (n : Nat) : Dev :=
  let h := (d.stream n).cfg.height
  let d := accepted (setRows d n (min (lanRows d n + regFld d (rLan n oLanSync) 15 0) h)) n
  if lanRows d n = h then completeRows d n else d

/-- A pulse reaches the Lantern of a stream. -/
def pulse (d : Dev) (n : Nat) : Dev := if pulseBegins d n then pulseStart d n else pulseRows d n

/-! ### An orphaned stream (R240) -/

/-- What an advance `f` of the Lantern of an orphaned stream would have made eligible counts as missed. DESIGN CHOICE
(notes/assumptions/107.md): its Lantern goes on, unseen, from the retirement to the close completion; a stream that Shaft served is taken to
have its rows delivered as its Lantern counts them. -/
def wouldBe (d : Dev) (n : Nat) (f : Dev → Dev) : Dev :=
  let s := d.stream n
  match s.ghost with
  | none => d
  | some (rows, band, skip, seq) =>
    let c := d.setStream n { s with phase := .running, bands := [], nextBand := band, skipFrame := skip, nextSeq := seq }
    let c := setReg (c.onChan n fun y => { y with served := false }) (rLan n oLanRows) rows
    let c := makeEligible (f c) n
    let t := c.stream n
    let k := (t.bands.filter fun b => !b.host).length
    let d := (advance d c.now).onStream n fun s => { s with
      ghost := some (reg c (rLan n oLanRows), t.nextBand, t.skipFrame, t.nextSeq), ctrl := t.ctrl, lastAdvance := t.lastAdvance
      stallRaised := t.stallRaised, stallClosed := t.stallClosed, rowTimer := t.rowTimer }
    each (List.range k) d fun d _ => raise (availErr (availStat d n 4 1) n 7 1) (4 * n + 1) 7

/-- A rising edge on input i (R46): ignored where the pulse is shorter than 100 ns, merged into the last edge that acted where that
was less than 500 ns before it. DESIGN CHOICE (notes/assumptions/69.md): in a run of edges each less than 500 ns after the one before,
the interval is measured from the last edge that acted, not from the last merged one. -/
def syncEdge (d : Dev) (i highNs : Nat) : Dev :=
  let last := d.syncAt.get 0 i
  if highNs < 100 ∨ (last ≠ 0 ∧ d.now + 1 < last + 500) then d
  else
    let d := { d with syncAt := d.syncAt.set 0 i (d.now + 1) }
    each (List.range 192) d fun d n =>
      if lanSrc d n != i + 1 then d else if lanOpen (d.stream n) then pulse d n else wouldBe d n fun c => pulse c n

/-- The row timer of SYNC_MODE 1 raises the row count by one. -/
def rowTick (d : Dev) (n : Nat) : Dev :=
  match (d.stream n).rowTimer with
  | none => d
  | some t =>
    if !lanOpen (d.stream n) then d
    else
      let d := setRows (advance d t) n (min (lanRows d n + 1) (d.stream n).cfg.height)
      let more := decide (lanRows d n < (d.stream n).cfg.height)
      let d := d.onStream n fun s =>
        { s with lastAdvance := d.now, stallRaised := false
                 rowTimer := if more then some (t + regFld d (rLan n oLanSync) 63 32) else none }
      if more then d else completeRows d n

/-- No advance for STALL_US (R57): STALL once per stalled interval, and an open frame is closed where STALL_FILL is
set. A frame whose rows the row timer still raises is never stalled (R46). -/
def stallOut (d : Dev) (n : Nat) : Dev :=
  let s := d.stream n
  let us := regFld d (rLan n oLanStall) 31 0
  if !lanOpen s || !lanSynced d n || us == 0 || s.stallRaised || s.rowTimer.isSome then d
  else
    let d := advance d (s.lastAdvance + us * 1000)
    let d := raise (d.onStream n fun s => { s with stallRaised := true }) (4 * n) 4
    if !lanClosed d n && regBit d (rLan n oLanCtrl) 44 then
      (closeFrame d n).onStream n fun s => { s with stallClosed := true }
    else d

/-- The Lantern returns to the state of a FREE stream: its position is cleared (R38). -/
def clearLantern (d : Dev) (n : Nat) : Dev := setReg d (rLan n oLanRows) 0

/-! ### Commands of this chapter -/

/-- A write of `LANTERN_TOKEN`: a narrow one is discarded and counted here (R43). -/
def writeToken (s : State) (m n : Nat) (v : Word) (wide : Bool) : State :=
  if !alive s.dev then s
  else if !barGranted s.dev m (rLan n oLanToken) true then s.onDev fun d => barDeny d m (rLan n oLanToken) true
  else if stopped s.dev then s
  else if !wide then s.onDev fun d => ignoreToken d n
  else s.onDev fun d => wouldBe (token d n v) n fun c => token c n v

/-- RASTER_TOKEN (R43, R44). -/
def execRasterToken (m : Master) (n : Fin 192) (v : Word) (wide : Bool) (s : State) : Host.Outcome State Fault Refusal :=
  ok (writeToken s m n v wide)

/-- RASTER_SYNC_PULSE (R46). -/
def execRasterSyncPulse (input : Fin 4) (highNs : Nat) (s : State) : Host.Outcome State Fault Refusal :=
  ok (if working s.dev then s.onDev fun d => syncEdge d input highNs else s)

/-- LANTERN_ROW_TIMER (R46). -/
def execLanternRowTimer (n : Fin 192) (s : State) : Host.Outcome State Fault Refusal :=
  ok (if working s.dev then s.onDev fun d => wouldBe (rowTick d n) n fun c => rowTick c n else s)

/-- STALL (R57). -/
def execStall (n : Fin 192) (s : State) : Host.Outcome State Fault Refusal :=
  ok (if working s.dev then s.onDev fun d => wouldBe (stallOut d n) n fun c => stallOut c n else s)

/-- BAND_ELIGIBLE (R47, R48): the bands whose thresholds are reached become eligible, those of a stream that drains
included (R33). -/
def execBandEligible (n : Fin 192) (s : State) : Host.Outcome State Fault Refusal :=
  let x := s.dev.stream n
  ok (if working s.dev && (lanOpen x || (x.phase == .closing && !x.abort)) then s.onDev fun d => makeEligible d n else s)

end Sys2Proof.Machine
end

