-- ==== Sys2Proof/Machine/Rimstone.lean ====
section
/-! DEFINITION. Rimstone: the ledger, targets, forecasts, limits, dry mode, ROI, QP map, the rate state at the start of
a picture and at the close of a band, and the frame report (R134 to R162, R187, R188). -/

namespace Sys2Proof.Machine

/-! ### Fixed point (R141) -/

/-- The table of R141. -/
def pTable : List Nat := [65536, 73562, 82570, 92682, 104032, 116772]

/-- P(k) in 16.16. -/
def pFix (k : Int) : Nat :=
  let t := pTable.getD (k % 6).toNat 0
  if 0 ≤ k then t * 2 ^ (k / 6).toNat else t / 2 ^ (-(k / 6)).toNat

/-- A number times P(k), truncated. -/
def mulP (x : Nat) (k : Int) : Nat := x * pFix k / 65536

/-! ### ROI and QP map (R156 to R158) -/

/-- The class of the superblock at a column and row. -/
def Roi.classAt (r : Roi) (col row : Nat) : Nat :=
  match r.rects.find? fun x => x.en && inRange col x.x0 x.x1 && inRange row x.y0 x.y1 with
  | some x => x.cls
  | none => 0

/-- Index in the picture of superblock i of band b. -/
def StreamCfg.sbIndex (c : StreamCfg) (b i : Nat) : Nat := c.firstRow b * c.wsb + i

def classOf (st : Stream) (k : Nat) : Nat := st.roi.classAt (k % st.cfg.wsb) (k / st.cfg.wsb)

/-- Device address of the QP map of a frame. -/
def mapAt (st : Stream) (frame : Nat) : Nat := st.map.base + frame % max 1 st.cfg.slotCount * st.map.stride

/-- The map is on and its header names the frame. -/
def mapUsable (s : State) (st : Stream) (frame : Nat) : Bool :=
  st.map.en && fld (s.wordAt (mapAt st frame)) 63 32 == frame

/-- The signed map entry of superblock k, as it stands. -/
def mapRaw (s : State) (st : Stream) (frame k : Nat) : Int := signedOf 8 (s.byte (mapAt st frame + 8 + k)).toNat

def mapEntryOk (v : Int) : Bool := decide (-24 ≤ v) && decide (v ≤ 24)

/-- The map entries of the n superblocks of a band from superblock k of the picture on, as they are used; none: the map is off or
unusable. -/
def mapEntries (s : State) (st : Stream) (frame k n : Nat) : List Int :=
  if mapUsable s st frame then
    (List.range n).map fun i => if mapEntryOk (mapRaw s st frame (k + i)) then mapRaw s st frame (k + i) else 0
  else []

/-- The offset of the class of superblock k; all of its offset while the map of its band has not been read. -/
def classOffset (st : Stream) (k : Nat) : Int := st.roi.offsets.getD (classOf st k) 0

/-- The total offset of superblock i of a band that begins at superblock k, before clipping; `map` are the band's entries. -/
def sbOffset (st : Stream) (map : List Int) (k i : Nat) : Int := classOffset st (k + i) + map.getD i 0

def floorOfClass (st : Stream) (k : Nat) : Nat := st.roi.floors.getD (classOf st k) 51

/-- The quantiser of superblock i of a band that begins at superblock k, with the band's quantiser and map entries (R157). -/
def sbQ (st : Stream) (map : List Int) (k i q : Nat) : Nat :=
  (min (max ((q : Int) + sbOffset st map k i) st.params.qpMin) (min st.params.qpMax (floorOfClass st (k + i)) : Nat)).toNat

/-! ### Hints (R68, R69) -/

/-- Device address of the hint region of a frame. -/
def hintAt (st : Stream) (frame : Nat) : Nat :=
  st.cfg.ringBase + frame % max 1 st.cfg.slotCount * st.cfg.slotStride + st.cfg.hintOffset

/-- First hint row of band b, and the row past its last. -/
def StreamCfg.hintFirst (c : StreamCfg) (b : Nat) : Nat := 4 * c.firstRow b
def StreamCfg.hintEnd (c : StreamCfg) (b : Nat) : Nat := min c.hintRows (4 * (c.firstRow b + c.rowsOf b))

/-- The hints of a band are used. -/
def hintsAdmitted (s : State) (st : Stream) (frame b : Nat) : Bool :=
  let h := s.wordAt (hintAt st frame)
  st.cfg.hints && fld h 63 32 == frame && decide (st.cfg.hintEnd b ≤ fld h 31 16)

/-- The hint words of a band. -/
def hintWords (s : State) (st : Stream) (frame b : Nat) : List Word :=
  let c := st.cfg
  (List.range ((c.hintEnd b - c.hintFirst b) * c.hintCols)).map fun i =>
    s.wordAt (hintAt st frame + 64 + 8 * (c.hintFirst b * c.hintCols + i))

def hintBad (w : Word) : Bool := fld w 23 2 != 0

/-- DISOCC words and hint words of a band whose hints are used. -/
def disoccOf (ws : List Word) : Nat × Nat := ((ws.filter fun w => !hintBad w && bit w 1).length, ws.length)

/-! ### Forecasts (R140, R142, R187, R188) -/

/-- The reference decision of a picture, once it has been taken (R181). -/
def decisionOf (st : Stream) (frame : Nat) : Option PicDecision := st.decisions.find? fun x => x.frame == frame

/-- First refresh column of a wave's picture, and the column past its last. -/
def refreshCols (c : StreamCfg) (wave : Option (Nat × Nat)) : Nat × Nat :=
  match wave with
  | some (i, n) => (i * c.wsb / max 1 n, (i + 1) * c.wsb / max 1 n)
  | none => (0, 0)

/-- The refresh columns of a picture by its own decision: a later decision does not move them (R181, R187). -/
def waveCols (st : Stream) (frame : Nat) : Nat × Nat := refreshCols st.cfg ((decisionOf st frame).bind fun x => x.wave)

/-- The number of refresh columns of the picture in progress; none in a key frame. -/
def waveWidth (st : Stream) (rs : RateState) : Nat := if rs.key then 0 else (waveCols st rs.frame).2 - (waveCols st rs.frame).1

/-- The forecast of a superblock row. -/
def rowForecast (st : Stream) (rs : RateState) (row : Nat) : Nat := rs.cRow.getD row (819 * st.cfg.wsb)

/-- The base forecast of band b. -/
def bandForecast (st : Stream) (rs : RateState) (b : Nat) : Nat :=
  let c := st.cfg
  if rs.key then rs.cIntra * c.sbOf b
  else
    let w := waveWidth st rs
    total ((List.range (c.rowsOf b)).map fun i =>
      rowForecast st rs (c.firstRow b + i) * (c.wsb - w) / max 1 c.wsb + w * rs.cIntra)

/-- est_b(q) for a factor m = m.1 / m.2. -/
def estOf (st : Stream) (rs : RateState) (m : Nat × Nat) (b q : Nat) : Nat :=
  mulP (bandForecast st rs b * m.1 / m.2) (32 - (q : Int))

/-- The ROI factor of a band with these map entries, over 65,536 times its superblocks. -/
def roiSum (st : Stream) (b : Nat) (map : List Int) : Nat :=
  total ((List.range (st.cfg.sbOf b)).map fun i => pFix (-sbOffset st map (st.cfg.sbIndex b 0) i))

/-- m_b of a band not yet dispatched: its hints and its map have not been read (notes/assumptions/20.md). -/
def mLater (st : Stream) (b : Nat) : Nat × Nat := (roiSum st b [], 65536 * st.cfg.sbOf b)

/-- m_b of the band being dispatched, with its map entries. -/
def mHere (st : Stream) (rs : RateState) (map : List Int) (b : Nat) : Nat × Nat :=
  let r := (roiSum st b map, 65536 * st.cfg.sbOf b)
  let now := rs.disocc.getD b (0, 0)
  let old := rs.disoccPrev.getD b (0, 0)
  if now.2 = 0 ∨ old.2 = 0 then r else (r.1 * (now.2 + now.1) * old.2, r.2 * now.2 * (old.2 + old.1))

/-! ### Floor costs (R144, R575) -/

/-- Header bytes of band j as they count at the dispatch of band b, whose own header items are `hdr`. -/
def hdrBytes (st : Stream) (rs : RateState) (hdr : List Nat) (b j : Nat) : Nat :=
  if j = b then total hdr else rs.laterHdr.getD (st.cfg.hdrBound j rs.key)

/-- The floor cost of n superblocks of which r are refresh superblocks. -/
def floorBitsOf (c : StreamCfg) (key : Bool) (hdr n r : Nat) : Nat :=
  if key then c.floorBits hdr n true else c.floorBits hdr (n - r) false + 8 * (r * intraBound c.codec)

/-- The floor cost of band j at the dispatch of band b. -/
def floorOf (st : Stream) (rs : RateState) (hdr : List Nat) (b j : Nat) : Nat :=
  floorBitsOf st.cfg rs.key (hdrBytes st rs hdr b j) (st.cfg.sbOf j) (st.cfg.rowsOf j * waveWidth st rs)

/-- The bands from b to the last of the picture. -/
def bandsFrom (st : Stream) (b : Nat) : List Nat := (List.range st.cfg.bands).filter fun j => decide (b ≤ j)

/-- The floor cost of bands b to N - 1. -/
def phiFrom (st : Stream) (rs : RateState) (hdr : List Nat) (b : Nat) : Nat :=
  total ((bandsFrom st b).map fun j => floorOf st rs hdr b j)

/-- Bytes of the fixed headers of an AV1 picture's later bands: the redundant frame header and the tile group header. -/
def laterHdrOf (c : StreamCfg) (hdr : List Nat) : Option Nat :=
  if c.codec = 0 then some ((if c.redundantHdr then hdr.dropLast.getLastD 0 else 0) + hdr.getLastD 0) else none

/-! ### Staged commands (R166) -/

/-- Two staged commands are of one kind. -/
def Staged.kind (x : Staged) : Nat :=
  match x with
  | .rateSet _ => 0
  | .target _ _ => 1
  | .limits _ _ => 2
  | .roi _ => 3
  | .map _ => 4
  | .refConfig _ => 5

/-- Applies a staged command to the parameters in force. -/
def landOne (st : Stream) (x : Staged) : Stream :=
  match x with
  | .rateSet p => { st with params := p }
  | .target r q => { st with params := { st.params with
      targetRate := if r = 0 then st.params.targetRate else r, cqQ := if q = 255 then st.params.cqQ else q } }
  | .limits lo hi => { st with params := { st.params with qpMin := lo, qpMax := hi } }
  | .roi r => { st with roi := r }
  | .map m => { st with map := m }
  | .refConfig _ => st

/-- The last command of each kind, in the order of acceptance. -/
def lastOfKind (l : List Staged) : List Staged :=
  match l with
  | [] => []
  | x :: r => if r.any fun y => y.kind == x.kind then lastOfKind r else x :: lastOfKind r

/-- Every staged RATE command lands at band 0 of a picture; `setLanded` notes a RATE.SET. -/
def landStaged (st : Stream) (frame : Nat) : Stream :=
  let l := lastOfKind (st.staged.filter fun x => x.kind != 5)
  let st := { l.foldl landOne st with staged := st.staged.filter fun x => x.kind == 5 }
  if l.any fun x => x.kind == 0 then { st with setLanded := some frame } else st

/-! ### The start of a picture (R135 to R139) -/

/-- Fullness before the clamp at the first band of the next picture, and the new remainder. -/
def arrival (st : Stream) (rs : RateState) (frame : Nat) : Nat × Nat :=
  let a := st.params.hrdRate * st.cfg.rateDen * seqAhead rs.frame frame + rs.frac
  (a / st.cfg.rateNum, a % st.cfg.rateNum)

def spentOf (rs : RateState) : Nat := total (rs.costs.map fun e => e.2)

/-- The previous picture undershot (R137). -/
def undershot (st : Stream) (rs : RateState) (frame : Nat) : Bool :=
  rs.started && st.params.mode == 0 && decide (st.params.hrdBuf < rs.d - spentOf rs + (arrival st rs frame).1)

/-- D, frac and V carried to the next picture with the parameters of the previous one. -/
def carry (st : Stream) (rs : RateState) (frame : Nat) : RateState :=
  if !rs.started then rs
  else
    let b : Int := st.params.hrdBuf
    let a := arrival st rs frame
    let v := rs.v - spentOf rs + st.params.targetRate * st.cfg.rateDen * seqAhead rs.frame frame / st.cfg.rateNum
    { rs with d := min st.params.hrdBuf (rs.d - spentOf rs + a.1), frac := a.2, v := min (max v (-b)) b }

/-- A DISOCC fraction as the checkpoint holds it: in 1/255, truncated (DESIGN CHOICE, notes/assumptions/92.md); 0 of 0 where the hints were
not admitted. A band that is coded again from its checkpoint decides as it did before (R76), so the working state holds no more. -/
def heldFraction (p : Nat × Nat) : Nat × Nat := if p.2 = 0 then (0, 0) else (p.1 * 255 / p.2, 255)

/-- A picture begins: `st` holds the parameters that have landed, `fresh` that they came by STREAM.OPEN or RATE.SET. -/
def beginPicture (st : Stream) (rs : RateState) (frame : Nat) (key fresh : Bool) (hdr : List Nat) : RateState :=
  let rs := if fresh then { rs with d := st.params.hrdBuf, frac := 0, v := 0 } else rs
  { rs with started := true, frame := frame, key := key, dry := false, cap := rs.d, costs := [], limits := []
            disoccPrev := rs.disocc.map heldFraction, disocc := [], laterHdr := laterHdrOf st.cfg hdr }

/-- The frame target (R138), once the hints of band 0 are known; `m` is band 0's factor. -/
def targetOf (st : Stream) (rs : RateState) (m : Nat × Nat) (hdr : List Nat) : Nat :=
  let p := st.params
  let rt : Int := st.cfg.rt p.hrdRate
  let base : Int := (st.cfg.rt p.targetRate : Nat)
  let aim : Int := (p.hrdBuf * p.aim / 256 : Nat)
  let d : Int := rs.d
  let t : Int :=
    if p.mode = 0 then rt + (d - aim) / 4
    else if p.mode = 1 then base + rs.v / 4
    else (total ((bandsFrom st 0).map fun j => estOf st rs (if j = 0 then m else mLater st j) j p.cqQ) : Nat)
  let t := if rs.key then t * p.keyMult else t
  let t := if p.mode = 0 then max t (d + rt - p.hrdBuf) else t
  (max (phiFrom st rs hdr 0 : Int) (min t d)).toNat

/-! ### The dispatch of a band (R145 to R151) -/

/-- What the ledger of R145 to R148 gives band b. -/
structure Ledger where
  floor : Nat
  phi : Nat
  r : Int
  t : Int
deriving DecidableEq, Repr

def ledgerOf (st : Stream) (rs : RateState) (hdr : List Nat) (b : Nat) : Ledger :=
  let k := max 1 st.parts.length
  let spent := total ((rs.costs.filter fun e => decide (e.1 + k ≤ b)).map fun e => e.2)
  let held := total ((rs.limits.filter fun e => decide (b < e.1 + k) && decide (e.1 < b)).map fun e => e.2)
  { floor := floorOf st rs hdr b b, phi := phiFrom st rs hdr b, r := (rs.cap : Int) - spent - held, t := (rs.tgt : Int) - spent - held }

/-- The dry test (R151). -/
def dryTest (st : Stream) (l : Ledger) (b : Nat) : Bool := decide (l.r - l.phi < 8 * st.params.dryMin * st.cfg.sbOf b)

/-- The allotment of band b (R146); `share` stands for the weighted share where every weight is 0. -/
def allotment (st : Stream) (rs : RateState) (l : Ledger) (m : Nat × Nat) (b share : Nat) : Nat :=
  let x := (max 0 (min l.t l.r - l.phi)).toNat
  let w := estOf st rs m b 32
  let sum := total ((bandsFrom st b).map fun j => estOf st rs (if j = b then m else mLater st j) j 32)
  l.floor + (if sum = 0 then share % (x + 1) else x * w / sum)

/-- The weights of all bands from b are 0: R146 gives no share. -/
def noWeight (st : Stream) (rs : RateState) (m : Nat × Nat) (b : Nat) : Bool :=
  total ((bandsFrom st b).map fun j => estOf st rs (if j = b then m else mLater st j) j 32) == 0

/-- The band quantiser (R147). -/
def bandQ (st : Stream) (rs : RateState) (m : Nat × Nat) (b a : Nat) : Nat :=
  let p := st.params
  let q := (((List.range (p.qpMax + 1)).filter fun q => decide (p.qpMin ≤ q)).find? fun q => decide (estOf st rs m b q ≤ a)).getD p.qpMax
  if p.mode = 2 then max q p.cqQ else q

/-- The limit of band b (R148). -/
def limitOf (st : Stream) (l : Ledger) (a : Nat) : Nat :=
  let lim := max (l.r - (l.phi - l.floor : Nat)) l.floor
  (if 1 < st.parts.length then max (min lim (2 * a : Nat)) l.floor else lim).toNat

/-! ### The close of a band and the end of a picture (R143, R161, R162) -/

/-- The forecast after a normally coded band has closed. -/
def learn (st : Stream) (rs : RateState) (b : Band) (cost : Nat) : RateState :=
  let c := mulP cost ((b.q : Int) - 32)
  if b.key then { rs with cIntra := c * b.mDen / (b.mNum * b.n) }
  else
    let v := c * b.mDen / (b.mNum * st.cfg.rowsOf b.b)
    { rs with cRow := (List.range st.cfg.hsb).map fun i =>
        if st.cfg.firstRow b.b ≤ i ∧ i < st.cfg.firstRow b.b + st.cfg.rowsOf b.b then v else rowForecast st rs i }

/-- The correction κ in 16.16, clamped to 0.25 to 4.0 (R143). DESIGN CHOICE (notes/assumptions/71.md): where the sum of est_b(32) over
the normally coded bands is 0, κ is 4.0. -/
def kappa (p : PicStats) : Nat :=
  let l := p.bands.filter fun e => e.2.normal
  let num := total (l.map fun e => mulP e.2.cost ((e.2.q : Int) - 32))
  let den := total (l.map fun e => e.2.weight)
  if l.isEmpty then 65536 else if den = 0 then 262144 else min 262144 (max 16384 (num * 65536 / den))

/-- κ applied to the rows of the bands that kept their forecast. -/
def correct (st : Stream) (rs : RateState) (p : PicStats) : RateState :=
  let k := kappa p
  let kept := p.bands.filter fun e => !e.2.normal
  if kept.isEmpty then rs
  else
    { rs with cRow := (List.range st.cfg.hsb).map fun i =>
        if kept.any fun e => decide (st.cfg.firstRow e.1 ≤ i) && decide (i < st.cfg.firstRow e.1 + st.cfg.rowsOf e.1)
        then rowForecast st rs i * k / 65536 else rowForecast st rs i }

def sat32 (n : Nat) : Nat := n % two32

/-- The frame report (R161). DESIGN CHOICE (notes/assumptions/72.md): Q_LO, Q_HI and Q_MEAN of a picture of which no band closed are
0. -/
def reportWords (rs : RateState) (p : PicStats) (seq : Nat) (flushed : Bool) : List Word :=
  let l := p.bands.map fun e => e.2
  let cost := spentOf rs
  let n := total (l.map fun b => b.n)
  let qs := total (l.map fun b => b.q * b.n)
  let lo := l.foldl (fun m b => min m b.q) 255
  let hi := l.foldl (fun m b => max m b.q) 0
  let dryN := (l.filter fun b => b.dry && !b.rep).length
  let flags := rs.key.toNat + 2 * p.undershotPrev.toNat + 4 * p.firstDry.isSome.toNat + 8 * (l.any fun b => b.hints).toNat
    + 16 * flushed.toNat
  [ word (p.frame % two32 * 2 ^ 32 + seq % two32), p.framePtp, word (sat32 rs.cap * 2 ^ 32 + sat32 rs.tgt)
  , word (sat32 cost * 2 ^ 32 + sat32 (rs.d - cost))
  , word ((if l.isEmpty then 0 else lo) * 2 ^ 56 + hi * 2 ^ 48 + (if n = 0 then 0 else (2 * qs + n) / (2 * n)) * 2 ^ 40 + p.firstDry.getD 255 % 256 * 2 ^ 32
      + dryN % 256 * 2 ^ 24 + (l.filter fun b => b.rep).length % 256 * 2 ^ 16 + (l.filter fun b => b.vein).length % 256 * 2 ^ 8 + flags)
  , word (sat32 (total (l.map fun b => b.hintWon)) * 2 ^ 32 + sat32 (total (l.map fun b => b.guarded)))
  , word (sat32 (total (l.map fun b => b.sbCap)) * 2 ^ 32 + sat32 (total (l.map fun b => b.roiBreach)))
  , word (sat32 (total (l.map fun b => b.est)) * 2 ^ 32 + kappa p) ]

/-- The frame report of a picture that has ended, and its count (R161, R162). -/
def reportPicture (d : Dev) (n : Nat) (rs : RateState) (p : PicStats) (flushed : Bool) : Dev :=
  let r := (d.stream n).report
  let d := if r.en && r.records != 0 then
      emit d (.host (r.base + r.next % r.records * 64) (reportWords rs p r.next flushed))
    else d
  let d := d.onStream n fun x => { x with report := if x.report.en then { x.report with next := x.report.next + 1 } else x.report }
  rateStat d n 1 1

/-- The picture in progress ends (R143). -/
def endPicture (d : Dev) (n : Nat) (flushed : Bool) : Dev :=
  let st := d.stream n
  if !st.pic.going then d
  else (reportPicture d n st.rate st.pic flushed).onStream n fun x => { x with pic := { x.pic with going := false } }

/-- The picture of a frame ends: the one in progress, or an earlier one whose last band came after the next had begun. -/
def endPicOf (d : Dev) (n frame : Nat) (flushed : Bool) : Dev :=
  let st := d.stream n
  if st.pic.frame = frame then endPicture d n flushed
  else match st.prevPics.find? fun p => p.1.frame == frame with
    | none => d
    | some p => (reportPicture d n p.2 p.1 flushed).onStream n fun x => { x with prevPics := x.prevPics.filter fun q => q.1.frame != frame }

end Sys2Proof.Machine
end

