-- ==== Sys2Proof/Machine/Source.lean ====
section
/-! DEFINITION. Source fetch: the sample layouts of the source ring, conversion to YCbCr 4:2:0 and to the coded depth, and the extension to
the coded size (R61 to R65, R67). -/

namespace Sys2Proof.Machine

/-! ### Stored samples (R61, R64) -/

/-- Device address of the slot that holds a frame. -/
def slotAt (st : Stream) (frame : Nat) : Nat := st.cfg.ringBase + frame % max 1 st.cfg.slotCount * st.cfg.slotStride

/-- Sample i of a row that begins at an address: 8 bits; 10 bits packed, four samples in five bytes, the first in bits [9:0]; 10 bits in
bits [15:6] of a word. -/
def rowSample (s : State) (fmt a i : Nat) : Nat :=
  if fmt = 1 then (s.byte (a + i)).toNat
  else if fmt = 2 then natLE (s.bytes (a + i / 4 * 5) 5) / 2 ^ (10 * (i % 4)) % 1024
  else natLE (s.bytes (a + 2 * i) 2) / 64

/-- Bits of a stored sample. -/
def sourceDepth (fmt : Nat) : Nat := if fmt = 1 ∨ fmt = 0x11 then 8 else 10

/-- R, G and B of a pixel word. -/
def rgbAt (s : State) (fmt a x : Nat) : Nat × Nat × Nat :=
  let v := natLE (s.bytes (a + 4 * x) 4)
  let k := sourceDepth fmt
  (v % 2 ^ k, v / 2 ^ k % 2 ^ k, v / 2 ^ (2 * k) % 2 ^ k)

/-! ### Conversion (R62, R63) -/

/-- A fraction rounded to the nearest integer, halves up. -/
def roundHalfUp (a : Int) (b : Nat) : Int := (2 * a + b) / (2 * b)

/-- The luma weights of R and B in ten-thousandths: BT.709, or BT.2020 non-constant luminance (PRESUMED, notes/assumptions/85.md). -/
def lumaWeights (bt2020 : Bool) : Int × Int := if bt2020 then (2627, 593) else (2126, 722)

/-- A sample of k bits held to its range. -/
def clipSample (k : Nat) (v : Int) : Nat := min (2 ^ k - 1) v.toNat

/-- Luma, Cb (plane 1) or Cr (plane 2) of a pixel of k bits, in limited or full range. -/
def convertRgb (bt2020 full : Bool) (k plane : Nat) (p : Nat × Nat × Nat) : Nat :=
  let w := lumaWeights bt2020
  let r : Int := p.1
  let g : Int := p.2.1
  let b : Int := p.2.2
  let y := w.1 * r + (10000 - w.1 - w.2) * g + w.2 * b
  let top : Nat := 2 ^ k - 1
  let unit : Nat := 2 ^ (k - 8)
  if plane = 0 then
    clipSample k (if full then roundHalfUp y 10000 else roundHalfUp (219 * unit * y + 16 * unit * (10000 * top)) (10000 * top))
  else
    let c := if plane = 1 then 10000 * b - y else 10000 * r - y
    let den := 2 * (10000 - (if plane = 1 then w.2 else w.1)).toNat
    clipSample k (if full then roundHalfUp (c + 2 ^ (k - 1) * den) den
      else roundHalfUp (224 * unit * c + 2 ^ (k - 1) * (den * top)) (den * top))

/-- A sample at the coded depth. -/
def toDepth (source coded v : Nat) : Nat :=
  if source = coded then v else if coded = 8 then min 255 ((v + 2) / 4) else 4 * v

/-- The sample of a plane at a place inside the source: luma by pixel, chroma by 4:2:0 sample. An RGB source gives chroma at even columns
with the taps 1 2 1, and between two rows with the taps 1 1, each division rounding half up. -/
def sourceSample (s : State) (st : Stream) (frame plane x y : Nat) : Nat :=
  let c := st.cfg
  let a := slotAt st frame
  let k := sourceDepth c.srcFormat
  let v :=
    if planar c.srcFormat then
      if plane = 0 then rowSample s c.srcFormat (a + y * c.lumaPitch) x
      else rowSample s c.srcFormat (a + c.chromaOffset + y * c.chromaPitch) (2 * x + (plane - 1))
    else
      let full := fun (x y : Nat) => convertRgb c.matrix c.fullRange k plane (rgbAt s c.srcFormat (a + y * c.lumaPitch) x)
      if plane = 0 then full x y
      else
        let row := fun y => (full (2 * x - 1) y + 2 * full (2 * x) y + full (min (c.width - 1) (2 * x + 1)) y + 2) / 4
        (row (2 * y) + row (2 * y + 1) + 1) / 2
  toDepth k c.depth v

/-- The sample at a place of the coded picture: past the source's edges its last column and row repeat (R67). -/
def codedSource (s : State) (st : Stream) (frame plane x y : Nat) : Nat :=
  let k := if plane = 0 then 1 else 2
  sourceSample s st frame plane (min (st.cfg.width / k - 1) x) (min (st.cfg.height / k - 1) y)

end Sys2Proof.Machine
end

