-- ==== Sys2Proof/Machine/Motion.lean ====
section
/-! DEFINITION. Motion estimation: seeds, the coarse search, refinement, and the vectors that are rejected (R68 to R75, R187, R355). Points
that these rules leave open are choices of the model (notes/assumptions/87.md). -/

namespace Sys2Proof.Machine

/-! ### Choosing the least -/

/-- Keys compare element by element. -/
def keyBefore (a b : List Int) : Bool :=
  match a, b with
  | x :: r, y :: t => decide (x < y) || x == y && keyBefore r t
  | [], _ :: _ => true
  | _, [] => false

/-- The first element with the least key. -/
def leastBy {α : Type} (key : α → List Int) (l : List α) : Option α :=
  l.foldl (fun best x => match best with | none => some x | some y => if keyBefore (key x) (key y) then some x else some y) none

/-- Whole numbers from a to b. -/
def intRange (a b : Int) : List Int := (List.range (b + 1 - a).toNat).map fun (i : Nat) => a + (i : Int)

/-! ### Samples of pictures (R75, R86) -/

/-- The samples of a plane. -/
def Planes.plane (p : Planes) (k : Nat) : Tab Nat := if k = 0 then p.luma else if k = 1 then p.cb else p.cr

def Planes.setPlane (p : Planes) (k : Nat) (t : Tab Nat) : Planes :=
  if k = 0 then { p with luma := t } else if k = 1 then { p with cb := t } else { p with cr := t }

/-- The place of a sample in a plane. -/
def sampleKey (x y : Nat) : Nat := 8192 * y + x

def Planes.sample (p : Planes) (k x y : Nat) : Nat := (p.plane k).get 0 (sampleKey x y)

def Planes.setSample (p : Planes) (k x y v : Nat) : Planes := p.setPlane k ((p.plane k).set 0 (sampleKey x y) v)

/-- A sample of a reference picture: beyond its edges it repeats its edge samples (R75). -/
def refSample (c : StreamCfg) (p : RecPic) (k : Nat) (x y : Int) : Nat :=
  let s := if k = 0 then 1 else 2
  let w : Int := 64 * c.wsb / s
  let h : Int := 64 * c.hsb / s
  p.fin.sample k (max 0 (min x (w - 1))).toNat (max 0 (min y (h - 1))).toNat

/-! ### What the front sees of a superblock -/

/-- A superblock before the front: its stream, its band, the factor λ in 16.16, its source samples by plane and place in the coded picture,
and the pictures it may reference with their distances in frames, the first reference first. -/
structure Front where
  st : Stream
  b : Band
  frame : Nat
  lam : Nat
  q : Nat
  key : Bool
  source : Nat → Nat → Nat → Nat
  refs : List (RecPic × Nat)
  /-- The blocks of the band's superblocks coded before, in coding order: those of its tile (R112). -/
  prior : List Blk
  /-- The picture under reconstruction, and the final vectors of the picture coded before. -/
  now : RecPic
  before : Tab (Option Mv)

/-! ### Rejected vectors (R75, R187, R355) -/

/-- Luma samples that a vector's luma prediction reads along one axis: the first and the last, with the interpolation taps of a fractional
position. -/
def lumaReach (codec : Nat) (at_ size : Nat) (v : Int) : Int × Int :=
  let p := (at_ : Int) + v / 4
  if v % 4 = 0 then (p, p + size - 1) else (p - (if codec = 2 then 2 else 3), p + size - 1 + (if codec = 2 then 3 else 4))

/-- Chroma samples that its chroma prediction reads: AV1 has taps of 8 samples, HEVC of 4, AVC of 2 (PRESUMED, notes/assumptions/84.md). -/
def chromaReach (codec : Nat) (at_ size : Nat) (v : Int) : Int × Int :=
  let p := (at_ / 2 : Nat) + v / 8
  let e := p + (size / 2 : Nat) - 1
  if v % 8 = 0 then (p, e) else if codec = 0 then (p - 3, e + 4) else if codec = 1 then (p - 1, e + 2) else (p, e + 1)

/-- The place along one axis that a vector reaches in luma samples, those of its chroma samples included. -/
def reach (codec : Nat) (at_ size : Nat) (v : Int) : Int × Int :=
  let l := lumaReach codec at_ size v
  let c := chromaReach codec at_ size v
  (min l.1 (2 * c.1), max l.2 (2 * c.2 + 1))

/-- The prediction block overlaps a tainted superblock of the reference. -/
def hitsTaint (c : StreamCfg) (r : RecPic) (x y w h : Nat) (v : Mv) : Bool :=
  let px := reach c.codec x w v.x
  let py := reach c.codec y h v.y
  let hold := fun (n : Nat) (a : Int) => (max 0 (min a ((64 * n : Nat) - 1))).toNat / 64
  r.taint.any fun k =>
    inRange (k % c.wsb) (hold c.wsb px.1) (hold c.wsb px.2) && inRange (k / c.wsb) (hold c.hsb py.1) (hold c.hsb py.2)

/-- A block of a clean column of an intra refresh wave may use the vector: the reference belongs to the same wave, and every sample lies at
least 16 luma samples left of that reference's clean boundary. -/
def cleanAllows (f : Front) (r : RecPic) (x w : Nat) (v : Mv) : Bool :=
  match f.now.wave with
  | none => true
  | some me =>
    if (waveCols f.st f.frame).1 * 64 ≤ x then true
    else
      (match r.wave with | some it => it.1 == me.1 | none => false)
        && decide ((reach f.st.cfg.codec x w v.x).2 + 16 < (r.clean : Int))

/-- A vector held to its limits: ±1,024 and ±512 luma samples, and at most 80 samples beyond the picture's edges. -/
def clampMv (c : StreamCfg) (x y w h : Nat) (v : Mv) : Mv :=
  let hold := fun (lim at_ size all : Int) (v : Int) => max (max (-4 * lim) (4 * (-80 - at_))) (min (min (4 * lim) (4 * (all + 80 - at_ - size))) v)
  { x := hold 1024 x w (64 * c.wsb : Nat) v.x, y := hold 512 y h (64 * c.hsb : Nat) v.y }

/-- A block may be predicted with a vector from a reference: within the limits of a final vector, and not rejected. -/
def vectorAllowed (f : Front) (r : RecPic) (x y w h : Nat) (v : Mv) : Bool :=
  clampMv f.st.cfg x y w h v == v && !hitsTaint f.st.cfg r x y w h v && cleanAllows f r x w v

/-! ### Costs (R72, R73) -/

/-- Sum of absolute differences of a luma block against a prediction. -/
def sadOf (f : Front) (pred : Int → Int → Nat) (x y w h : Nat) : Nat :=
  total ((List.range h).flatMap fun j => (List.range w).map fun i =>
    ((f.source 0 (x + i) (y + j) : Int) - pred (x + i) (y + j)).natAbs)

/-- One pass of the Hadamard transform of four numbers. -/
def hadamard4 (a b c d : Int) : List Int := [a + b + c + d, a - b + c - d, a + b - c - d, a - b - c + d]

/-- Sum of the absolute values of the Hadamard transform of the differences, by 4×4 blocks. -/
def satdOf (f : Front) (pred : Int → Int → Nat) (x y w h : Nat) : Nat :=
  total ((List.range (h / 4)).flatMap fun j => (List.range (w / 4)).map fun i =>
    let d := fun (a b : Nat) => ((f.source 0 (x + 4 * i + a) (y + 4 * j + b) : Int) - pred (x + 4 * i + a : Nat) (y + 4 * j + b : Nat))
    let rows := [0, 1, 2, 3].map fun b => hadamard4 (d 0 b) (d 1 b) (d 2 b) (d 3 b)
    let at_ := fun (b a : Nat) => (rows.getD b []).getD a 0
    total ([0, 1, 2, 3].flatMap fun a => (hadamard4 (at_ 0 a) (at_ 1 a) (at_ 2 a) (at_ 3 a)).map Int.natAbs))

/-- The luma prediction of a vector, interpolated where it is fractional. -/
def lumaPrediction (f : Front) (r : RecPic) (v : Mv) (x y : Int) : Nat :=
  if v.x % 4 = 0 ∧ v.y % 4 = 0 then refSample f.st.cfg r 0 (x + v.x / 4) (y + v.y / 4)
  else Config.fractional f.st.cfg.codec f.st.cfg.depth (refSample f.st.cfg r 0) (x + v.x / 4) (y + v.y / 4) (2 * (v.x % 4).toNat) (2 * (v.y % 4).toNat)

/-- A cost in 16.16: a difference plus λ times the bits of the vector. -/
def motionCost (f : Front) (diff : Nat) (v : Mv) (near : List Mv) : Nat :=
  65536 * diff + f.lam * Config.vectorBits f.st.cfg.codec v near

/-- The order of vectors of equal cost: the smaller |x| + |y|, then the smaller y, then the smaller x (R72). -/
def vectorKey (v : Mv) : List Int := [v.x.natAbs + v.y.natAbs, v.y, v.x]

/-! ### The coarse vector (R72) -/

/-- A luma sample decimated 4:1 in each direction: the mean of 16, rounded half up. -/
def decimated (sample : Int → Int → Nat) (x y : Int) : Nat :=
  (total ((List.range 4).flatMap fun (j : Nat) => (List.range 4).map fun (i : Nat) => sample (4 * x + (i : Int)) (4 * y + (j : Int))) + 8) / 16

/-- The coarse vector of the superblock at x, y against a reference. -/
def coarseVector (f : Front) (r : RecPic) (x y : Nat) : Mv :=
  let src := decimated fun a b => f.source 0 a.toNat b.toNat
  let ref := decimated (refSample f.st.cfg r 0)
  let cost := fun (v : Mv) => total ((List.range 16).flatMap fun j => (List.range 16).map fun i =>
    ((src (x / 4 + i : Nat) (y / 4 + j : Nat) : Int) - ref ((x / 4 + i : Nat) + v.x / 16) ((y / 4 + j : Nat) + v.y / 16)).natAbs)
  let all := (intRange (-16) 16).flatMap fun dy => (intRange (-32) 32).map fun dx => ({ x := 16 * dx, y := 16 * dy } : Mv)
  (leastBy (fun v => (cost v : Int) :: vectorKey v) all).getD {}

/-! ### Hints (R68, R70, R74) -/

/-- The hint word of a 16×16 block of the band; none: hints are not admitted, or the block lies below or right of the source. -/
def hintOf (f : Front) (bx by_ : Nat) : Option Word :=
  let c := f.st.cfg
  if f.b.hintsUsed && decide (bx < c.hintCols) && decide (by_ < c.hintRows) then
    f.b.hints[(by_ - c.hintFirst f.b.b) * c.hintCols + bx]?
  else none

/-- DISOCC and EDGE of a block; a word with reserved bits set counts as clear (R69). -/
def hintFlag (f : Front) (i bx by_ : Nat) : Bool := match hintOf f bx by_ with | some w => !hintBad w && bit w i | none => false

/-- A fraction rounded to the nearest integer, halves away from zero. -/
def roundAway (a : Int) (b : Nat) : Int := if 0 ≤ a then (2 * a + b) / (2 * b) else -((-2 * a + b) / (2 * b))

/-- The hint of a block scaled to a reference at distance d (R70). -/
def scaledHint (f : Front) (d bx by_ : Nat) : Option Mv :=
  match hintOf f bx by_ with
  | none => none
  | some w =>
    let age := fld w 31 24
    if hintBad w || age == 0 || bit w 1 then none
    else
      let sign : Int := if f.st.cfg.hintNeg then -1 else 1
      some { x := roundAway (sign * signedOf 16 (fld w 63 48) * d) age, y := roundAway (sign * signedOf 16 (fld w 47 32) * d) age }

/-! ### Seeds and refinement (R71, R73) -/

/-- The place of a 16×16 block among the final vectors of a picture. -/
def blockKey (bx by_ : Nat) : Nat := 512 * by_ + bx

/-- The vectors that motion estimation has found so far in the superblock, by block. -/
abbrev Found := Tab (Option (Mv × Bool))

/-- The vector of a block of the band beside the one being searched: final in an earlier superblock, or found in this one. -/
def nearVector (f : Front) (found : Found) (bx by_ : Nat) : Option Mv :=
  if (by_ / 4 - f.st.cfg.firstRow f.b.b) * f.st.cfg.wsb + bx / 4 < f.b.sbDone then f.now.vectors.get none (blockKey bx by_)
  else (found.get none (blockKey bx by_)).map fun v => v.1

/-- The vectors of the left and of the above block, within the band. -/
def leftVector (f : Front) (found : Found) (bx by_ : Nat) : Option Mv := if bx = 0 then none else nearVector f found (bx - 1) by_
def aboveVector (f : Front) (found : Found) (bx by_ : Nat) : Option Mv :=
  if by_ ≤ 4 * f.st.cfg.firstRow f.b.b then none else nearVector f found bx (by_ - 1)

/-- A vector at integer precision. -/
def wholeMv (v : Mv) : Mv := { x := 4 * ((v.x + 2) / 4), y := 4 * ((v.y + 2) / 4) }

/-- The seeds of a block in order, at integer precision, each with whether it is the hint; equal ones merged into the earliest, rejected ones
left out (R71, R355). -/
def seedsOf (f : Front) (r : RecPic) (found : Found) (coarse : Mv) (d bx by_ : Nat) : List (Mv × Bool) :=
  let l := ((scaledHint f d bx by_).map fun v => (v, true)).toList
    ++ ([f.before.get none (blockKey bx by_), leftVector f found bx by_, aboveVector f found bx by_, some coarse, some {}].filterMap fun v =>
        v.map fun v => (v, false))
  let whole := l.map fun v => (wholeMv (clampMv f.st.cfg (16 * bx) (16 * by_) 16 16 v.1), v.2)
  (whole.filter fun v => vectorAllowed f r (16 * bx) (16 * by_) 16 16 v.1).foldl (fun a v => if a.any fun w => w.1 == v.1 then a else a ++ [v]) []

/-- The best allowed vector among some, by a difference measure. -/
def bestMv (f : Front) (r : RecPic) (near : List Mv) (bx by_ : Nat) (measure : (Int → Int → Nat) → Nat → Nat → Nat → Nat → Nat) (l : List Mv) :
    Option (Nat × Mv) :=
  leastBy (fun v => (v.1 : Int) :: vectorKey v.2)
    ((l.filter fun v => vectorAllowed f r (16 * bx) (16 * by_) 16 16 v).map fun v =>
      (motionCost f (measure (lumaPrediction f r v) (16 * bx) (16 * by_) 16 16) v near, v))

/-- A vector and its neighbours at a distance in quarter samples. -/
def around (v : Mv) (k n : Int) : List Mv :=
  (intRange (-n) n).flatMap fun j => (intRange (-n) n).map fun i => { x := v.x + k * i, y := v.y + k * j }

/-- The inter candidate of a 16×16 block for a reference at distance d: the vector, and whether it came from the hint seed. -/
def searchBlock (f : Front) (r : RecPic) (d : Nat) (found : Found) (coarse : Mv) (bx by_ : Nat) : Option (Mv × Bool) :=
  let near := (leftVector f found bx by_).toList ++ (aboveVector f found bx by_).toList
  -- a full integer search of ±8 samples around each seed
  let whole := (seedsOf f r found coarse d bx by_).filterMap fun s => (bestMv f r near bx by_ (sadOf f) (around s.1 4 8)).map fun v => (v.1, v.2, s.2)
  -- the two best to half, then to quarter samples
  let byCost := fun (v : Nat × Mv × Bool) => [(v.1 : Int)]
  let first := (leastBy byCost whole).toList
  let two := first ++ (leastBy byCost (whole.filter fun v => !first.contains v)).toList
  let fine := two.filterMap fun v =>
    ((bestMv f r near bx by_ (sadOf f) (around v.2.1 2 1)).bind fun h => bestMv f r near bx by_ (satdOf f) (around h.2 1 1)).map fun u => (u.1, u.2, v.2.2)
  (leastBy byCost fine).map fun v => v.2

/-- The inter candidates of the 16 blocks of a superblock at x, y for one reference, in raster order. -/
def searchSuperblock (f : Front) (r : RecPic × Nat) (x y : Nat) : Found :=
  let coarse := coarseVector f r.1 x y
  (List.range 16).foldl (fun found i =>
    let bx := x / 16 + i % 4
    let by_ := y / 16 + i / 4
    found.set none (blockKey bx by_) (searchBlock f r.1 r.2 found coarse bx by_)) []

end Sys2Proof.Machine
end

