-- ==== Sys2Proof/Machine/Decide.lean ====
section
/-! DEFINITION. Mode decision, transform, quantisation and reconstruction of a superblock, and its coding within a size limit (R60, R74, R76 to
R81, R112, R115 to R117, R129, R149, R154, R159). Points that these rules leave open are choices of the model
(notes/assumptions/88.md). -/

namespace Sys2Proof.Machine

/-! ### λ and the cost (R77, R159) -/

/-- The quantiser on the scale of 0 to 51 that λ takes: for AV1, the qindex that Rimstone writes, mapped back (R159). -/
def lambdaQ (codec q : Nat) : Nat := if codec = 0 then qOfIndex (qindexOf q) else q

/-- λ in 16.16: 0.57 × 2^((q − 12) ⁄ 3) × 4^(depth − 8), with 2^(k ⁄ 6) evaluated as Rimstone does (R141). -/
def lambdaFix (codec depth q : Nat) : Nat := pFix (2 * ((lambdaQ codec q : Int) - 12)) * 57 / 100 * 4 ^ (depth - 8)

/-- A superblock in coding: the samples reconstructed, its blocks so far, their squared error and their bits. -/
structure Work where
  raw : Planes
  blocks : List Blk
  d : Nat
  bits : Nat
deriving DecidableEq, Repr

/-- J = D + λ × B in 16.16. -/
def Work.cost (f : Front) (w : Work) : Nat := 65536 * w.d + f.lam * w.bits

/-! ### Prediction -/

/-- The tile column of a luma column (R111). -/
def tileOf (c : StreamCfg) (x : Nat) : Nat := if c.tileCols = 2 ∧ ceilDiv c.wsb 2 * 64 ≤ x then 1 else 0

/-- A reconstructed neighbour of a block in a plane; none: outside the picture, the band or the tile, or not yet coded (R111, R112). -/
def neighbour (f : Front) (w : Work) (b : Blk) (plane : Nat) (x y : Int) : Option Nat :=
  let c := f.st.cfg
  let s := if plane = 0 then 1 else 2
  let lx := (x * s).toNat
  let ly := (y * s).toNat
  let top := 64 * c.firstRow f.b.b
  if x < 0 ∨ y < 0 ∨ 64 * c.wsb ≤ lx ∨ ly < top ∨ top + 64 * c.rowsOf f.b.b ≤ ly ∨ tileOf c lx ≠ tileOf c b.x then none
  else
    let k := (ly - top) / 64 * c.wsb + lx / 64
    let inside := w.blocks.any fun o => inRange lx o.x (o.x + o.w - 1) && inRange ly o.y (o.y + o.h - 1)
    if k < f.b.sbDone ∨ inside then some (w.raw.sample plane x.toNat y.toNat) else none

/-- The inter prediction of a plane at a place, from a reference with a vector. -/
def interSample (f : Front) (frame : Nat) (v : Mv) (plane : Nat) (x y : Int) : Nat :=
  match f.refs.find? fun r => r.1.frame == frame with
  | none => 0
  | some r =>
    if plane = 0 then lumaPrediction f r.1 v x y
    else if v.x % 8 = 0 ∧ v.y % 8 = 0 then refSample f.st.cfg r.1 plane (x + v.x / 8) (y + v.y / 8)
    else Config.fractional f.st.cfg.codec f.st.cfg.depth (refSample f.st.cfg r.1 plane) (x + v.x / 8) (y + v.y / 8) (v.x % 8).toNat (v.y % 8).toNat

/-- The prediction of a block's plane at dx, dy: intra, from one reference, or the average of two; `luma` are the block's own reconstructed
luma samples. A palette gives the colour of each luma sample's index. -/
def predicted (f : Front) (w : Work) (b : Blk) (luma : List Nat) (plane dx dy : Nat) : Nat :=
  let s := if plane = 0 then 1 else 2
  let x : Int := (b.x / s + dx : Nat)
  let y : Int := (b.y / s + dy : Nat)
  match b.pred.refs, b.pred.mvs with
  | r :: t :: _, v :: u :: _ => (interSample f r v plane x y + interSample f t u plane x y + 1) / 2
  | r :: _, v :: _ => interSample f r v plane x y
  | _, _ =>
    if plane = 0 ∧ b.pred.colours ≠ [] then b.pred.colours.getD (b.pred.indexes.getD (dy * b.w + dx) 0) 0
    else Config.intra f.st.cfg.codec f.st.cfg.depth b plane (neighbour f w b plane) luma dx dy

/-! ### Transform, quantisation and reconstruction (R80) -/

/-- Width and height of a block in a plane. -/
def Blk.size (b : Blk) (plane : Nat) : Nat × Nat := if plane = 0 then (b.w, b.h) else (b.w / 2, b.h / 2)

/-- The places of a block in a plane, row by row. -/
def Blk.places (b : Blk) (plane : Nat) : List (Nat × Nat) :=
  let n := b.size plane
  (List.range n.2).flatMap fun j => (List.range n.1).map fun i => (i, j)

/-- The source sample at a place of a block in a plane. -/
def sourceOf (f : Front) (b : Blk) (plane : Nat) (p : Nat × Nat) : Nat :=
  let s := if plane = 0 then 1 else 2
  f.source plane (b.x / s + p.1) (b.y / s + p.2)

/-- The level of a coefficient: a dead zone with a rounding offset of 1/3 for intra and 1/6 for inter blocks. -/
def quantised (intra : Bool) (step : Nat) (c : Int) : Int :=
  let l : Int := (6 * c.natAbs + (if intra then 2 else 1) * step) / (6 * max 1 step)
  if c < 0 then -l else l

/-- The levels of a plane of a block before the rate-distortion pass. -/
def deadZone (f : Front) (q : Nat) (b : Blk) (plane : Nat) (pred : List Nat) : List Int :=
  let n := b.size plane
  let resid := ((b.places plane).zip pred).map fun p => (sourceOf f b plane p.1 : Int) - p.2
  (Config.coefficients f.st.cfg.codec b.tx n.1 n.2 resid).mapIdx fun i c =>
    quantised b.pred.refs.isEmpty (Config.step f.st.cfg.codec f.st.cfg.depth q i) c

/-- The reconstruction of a plane of a block. -/
def reconstructed (f : Front) (q : Nat) (b : Blk) (plane : Nat) (pred : List Nat) : List Nat :=
  let n := b.size plane
  let r := Config.residual f.st.cfg.codec f.st.cfg.depth q b.tx n.1 n.2 (b.levels.getD plane [])
  pred.mapIdx fun i (p : Nat) => clipSample f.st.cfg.depth ((p : Int) + r.getD i 0)

/-- Squared error of a plane of a block. -/
def squaredError (f : Front) (b : Blk) (plane : Nat) (rec : List Nat) : Nat :=
  total (((b.places plane).zip rec).map fun p => ((sourceOf f b plane p.1 : Int) - p.2).natAbs ^ 2)

/-- The prediction of a plane of a block: a chroma plane may be predicted from the block's luma as its luma levels reconstruct it. -/
def prediction (f : Front) (q : Nat) (w : Work) (b : Blk) (k : Nat) : List Nat :=
  let luma := (b.places 0).map fun p => predicted f w b [] 0 p.1 p.2
  if k = 0 then luma
  else
    let own := reconstructed f q b 0 luma
    (b.places k).map fun p => predicted f w b own k p.1 p.2

/-- The reconstruction of a block's three planes with its levels as they stand. -/
def rebuiltPlanes (f : Front) (q : Nat) (w : Work) (b : Blk) : List (List Nat) :=
  [0, 1, 2].map fun k => reconstructed f q b k (prediction f q w b k)

/-- J of a block with given levels. -/
def blockCost (f : Front) (q : Nat) (w : Work) (b : Blk) : Nat :=
  65536 * total ((rebuiltPlanes f q w b).mapIdx fun k rec => squaredError f b k rec)
    + f.lam * Config.blockBits f.st.cfg.codec (f.prior ++ w.blocks) b

/-- A level nearer to zero by one. -/
def lessOne (v : Int) : Int := if 0 < v then v - 1 else if v < 0 then v + 1 else 0

/-- A block with level i of a plane set. -/
def Blk.setLevel (b : Blk) (plane i : Nat) (v : Int) : Blk := { b with levels := b.levels.set plane ((b.levels.getD plane []).set i v) }

/-- The rate-distortion pass over a plane: each nonzero level and that level less one, in reverse scan order; the lower J is kept. -/
def rdPass (f : Front) (q : Nat) (w : Work) (b : Blk) (k : Nat) : Blk :=
  let n := b.size k
  (Config.scan f.st.cfg.codec b.tx n.1 n.2).reverse.foldl (fun b i =>
    let v := (b.levels.getD k []).getD i 0
    let alt := b.setLevel k i (lessOne v)
    if v ≠ 0 ∧ blockCost f q w alt < blockCost f q w b then alt else b) b

/-- A block without residual. -/
def bare (b : Blk) : Blk := { b with levels := [0, 1, 2].map fun k => (b.places k).map fun _ => 0 }

/-- A block with its levels at a quantiser, plane by plane, or without residual. -/
def coded (f : Front) (q : Nat) (w : Work) (b : Blk) (residual : Bool) : Blk :=
  if residual then
    [0, 1, 2].foldl (fun (b : Blk) k => rdPass f q w { b with levels := b.levels.set k (deadZone f q b k (prediction f q w b k)) } k) (bare b)
  else bare b

/-- A block joins the superblock: its samples are reconstructed, its error and bits counted. -/
def Work.add (f : Front) (q : Nat) (w : Work) (b : Blk) : Work :=
  let recs := rebuiltPlanes f q w b
  let raw := [0, 1, 2].foldl (fun (raw : Planes) k =>
    let s := if k = 0 then 1 else 2
    ((b.places k).zip (recs.getD k [])).foldl (fun (raw : Planes) p => raw.setSample k (b.x / s + p.1.1) (b.y / s + p.1.2) p.2) raw) w.raw
  { raw := raw, blocks := w.blocks ++ [b], d := w.d + total ([0, 1, 2].map fun k => squaredError f b k (recs.getD k []))
    bits := w.bits + Config.blockBits f.st.cfg.codec (f.prior ++ w.blocks) b }

/-! ### Choices (R78, R79, R115 to R117) -/

/-- A block carries no residual. -/
def Blk.skip (b : Blk) : Bool := b.levels.all fun l => l.all fun v => v == 0

/-- The order of two choices of equal J: skip; the nearer reference; one reference before two; inter before intra; the larger block; the
lower mode number (R79). -/
def choiceKey (f : Front) (w : Work) (new : List Blk) : List Int :=
  let far : Nat := (new.map fun b => if b.pred.refs.isEmpty then 2 ^ 40 else (b.pred.refs.map fun r => seqAhead r f.frame).foldl max 0).foldl max 0
  let two := new.any fun b => decide (2 ≤ b.pred.refs.length)
  let mode := (new.head?.map fun b => b.pred.mode).getD 0
  [w.cost f, (new.any fun b => !b.skip).toNat, far, two.toNat, new.length, mode].map fun (n : Nat) => (n : Int)

/-- Luma modes of an intra block. AV1: 13 modes with the seven angles of the directional ones make 61, and palettes of 2 to 8 colours as 62
to 68; HEVC 35; AVC 4 for 16×16, else 9. -/
def intraModes (c : StreamCfg) (w h : Nat) : List Nat :=
  if c.codec = 0 then List.range 61 ++ (if c.palette && decide (8 ≤ min w h) then (List.range 7).map fun i => 62 + i else [])
  else if c.codec = 1 then List.range 35
  else List.range (if w = 16 then 4 else 9)

/-- The pairs of alphas of a chroma prediction from luma: -16 to 16 eighths for each plane, not both 0. -/
def alphaPairs : List (Int × Int) :=
  ((intRange (-16) 16).flatMap fun a => (intRange (-16) 16).map fun b => (a, b)).filter fun p => p != (0, 0)

/-- Chroma modes of an intra block, with their alphas: AV1 as luma, or 1, from luma, in blocks up to 32×32; HEVC 5; AVC 4. -/
def chromaModes (c : StreamCfg) (w h : Nat) : List (Nat × Int × Int) :=
  if c.codec = 0 then (0, 0, 0) :: if max w h ≤ 32 then alphaPairs.map fun p => (1, p) else []
  else (List.range (if c.codec = 1 then 5 else 4)).map fun u => (u, 0, 0)

/-- The index of the palette colour nearest to a sample, the lower one on a tie. -/
def nearestColour (colours : List Nat) (v : Nat) : Nat :=
  (leastBy (fun i => [(((colours.getD i 0 : Int) - v).natAbs : Int)]) (List.range colours.length)).getD 0

/-- The luma part of an intra prediction with a mode: a palette has its colours and the index of each sample. -/
def lumaPred (f : Front) (x y w h m : Nat) : Pred :=
  if m < 62 then { mode := m }
  else
    let b : Blk := { x := x, y := y, w := w, h := h }
    let samples := (b.places 0).map (sourceOf f b 0)
    let colours := Config.palette f.st.cfg.depth (m - 60) samples
    { mode := m, colours := colours, indexes := samples.map (nearestColour colours) }

/-- The intra predictions of a block with some chroma modes. -/
def intraWith (f : Front) (chroma : List (Nat × Int × Int)) (x y w h : Nat) : List Pred :=
  (intraModes f.st.cfg w h).flatMap fun m => chroma.map fun u => { lumaPred f x y w h m with chroma := u.1, alphas := u.2 }

def intraPreds (f : Front) (x y w h : Nat) : List Pred := intraWith f (chromaModes f.st.cfg w h) x y w h

/-- The 16×16 blocks that a block covers, or lies in. -/
def coveredBlocks (x y w h : Nat) : List Nat :=
  (List.range (max 1 (h / 16))).flatMap fun j => (List.range (max 1 (w / 16))).map fun i => blockKey (x / 16 + i) (y / 16 + j)

/-- The vectors that motion estimation offers a block for reference k. -/
def offered (found : List Found) (k x y w h : Nat) : List Mv :=
  uniq ((coveredBlocks x y w h).filterMap fun b => ((found.getD k []).get none b).map fun v => v.1)

/-- The mode number of AV1's GLOBALMV, whose global motion is the identity (R115). -/
def globalMode : Nat := 33

/-- The vectors that the codec derives for a block from those before it in its band and tile. -/
def derivedAt (f : Front) (w : Work) (x y bw bh : Nat) : List Mv := Config.derivedVectors f.st.cfg.codec (f.prior ++ w.blocks) x y bw bh

/-- A block may be predicted from two references: not in AVC, nor an 8×4 or 4×8 block of HEVC (R116, R117). -/
def twoAllowed (c : StreamCfg) (bw bh : Nat) : Bool := c.codec == 0 || c.codec == 1 && bw + bh != 12

/-- The inter predictions of a block: mode 0 with an offered vector, mode 1 + i with the codec's derived candidate i, GLOBALMV in AV1, for each
reference; and two references with mode 32. A vector that is not allowed is rejected. -/
def interPreds (f : Front) (found : List Found) (w : Work) (x y bw bh : Nat) : List Pred :=
  if f.key || inWaveAt f x then []
  else
    let singles := (f.refs.mapIdx fun k r => (k, r.1)).flatMap fun r =>
      let vs := ((offered found r.1 x y bw bh).map fun v => (0, v))
        ++ ((derivedAt f w x y bw bh).mapIdx fun i v => (1 + i, v)) ++ (if f.st.cfg.codec = 0 then [(globalMode, ({} : Mv))] else [])
      (vs.filter fun v => vectorAllowed f r.2 x y bw bh v.2).map fun v => ({ mode := v.1, refs := [r.2.frame], mvs := [v.2] } : Pred)
    let pairs := match f.refs with
      | a :: b :: _ =>
        if !twoAllowed f.st.cfg bw bh then []
        else (offered found 0 x y bw bh).flatMap fun v => (offered found 1 x y bw bh).filterMap fun u =>
          if vectorAllowed f a.1 x y bw bh v && vectorAllowed f b.1 x y bw bh u then
            some ({ mode := 32, refs := [a.1.frame, b.1.frame], mvs := [v, u] } : Pred)
          else none
      | _ => []
    singles ++ pairs
where
  /-- The superblock of a column is a refresh superblock (R187). -/
  inWaveAt (f : Front) (x : Nat) : Bool := decide ((waveCols f.st f.frame).1 ≤ x / 64) && decide (x / 64 < (waveCols f.st f.frame).2)

/-- The best way to code one block among some predictions, with every transform choice, with and without residual. -/
def bestBlock (f : Front) (w : Work) (preds : List Pred) (x y bw bh : Nat) : Option Work :=
  let all := preds.flatMap fun p =>
    (Config.transforms f.st.cfg.codec bw bh p.refs.isEmpty).flatMap fun tx => [false, true].map fun residual =>
      let b := coded f f.q w { x := x, y := y, w := bw, h := bh, pred := p, tx := tx } residual
      (w.add f f.q b, b)
  (leastBy (fun v => choiceKey f v.1 [v.2]) all).map fun v => v.1

/-- The blocks that a choice has added. -/
def added (w v : Work) : List Blk := v.blocks.drop w.blocks.length

/-- The better of some ways to code an area. -/
def bestWork (f : Front) (w : Work) (l : List Work) : Option Work := leastBy (fun v => choiceKey f v (added w v)) l

/-- Codes a list of blocks one after the other, each with its predictions; none: one of them has none. -/
def codeAll (f : Front) (w : Work) (preds : Work → Nat → Nat → Nat → Nat → List Pred) (l : List (Nat × Nat × Nat × Nat)) : Option Work :=
  l.foldl (fun w? b => w?.bind fun w => bestBlock f w (preds w b.1 b.2.1 b.2.2.1 b.2.2.2) b.1 b.2.1 b.2.2.1 b.2.2.2) (some w)

/-- The four quarters of a square, in order. -/
def quarters (x y n : Nat) : List (Nat × Nat) := [(x, y), (x + n, y), (x, y + n), (x + n, y + n)]

/-- The four 8×8 quarters of a macroblock, or their sixteen 4×4 blocks in coding order. -/
def macroEights (x y : Nat) : List (Nat × Nat × Nat × Nat) := (quarters x y 8).map fun p => (p.1, p.2, 8, 8)
def fours (x y : Nat) : List (Nat × Nat × Nat × Nat) := (quarters x y 4).map fun p => (p.1, p.2, 4, 4)
def macroFours (x y : Nat) : List (Nat × Nat × Nat × Nat) := (quarters x y 8).flatMap fun p => fours p.1 p.2

/-- Ways to code a list of blocks intra with one chroma mode for all of them. -/
def oneChroma (f : Front) (w : Work) (l : List (Nat × Nat × Nat × Nat)) : List Work :=
  (chromaModes f.st.cfg 8 8).filterMap fun u => codeAll f w (fun _ x y bw bh => intraWith f [u] x y bw bh) l

/-- Ways to code an AVC macroblock in parts smaller than its halves: four inter partitions of 8×8, Intra 8×8 or Intra 4×4, the last two with
one chroma mode (R117). -/
def macroSplits (f : Front) (found : List Found) (x y : Nat) (w : Work) : List Work :=
  (codeAll f w (interPreds f found) (macroEights x y)).toList ++ oneChroma f w (macroEights x y) ++ oneChroma f w (macroFours x y)

/-- The partition search of a square of side 8 × 2^n (R78). AVC has no block above 16×16; below 8×8 there are only the intra 4×4 blocks of an
HEVC coding unit, with one chroma mode, and of an AVC macroblock. -/
def searchTree (n : Nat) (f : Front) (found : List Found) (x y : Nat) (w : Work) : Work :=
  let c := f.st.cfg
  let size := 8 * 2 ^ n
  let inter := interPreds f found
  let intra := fun (_ : Work) (x y bw bh : Nat) => intraPreds f x y bw bh
  let one := fun preds => if c.codec = 2 ∧ 16 < size then none else codeAll f w preds [(x, y, size, size)]
  let bestInter := one inter
  -- intra at 64×64 only where no inter candidate is below the intra J at 32×32, or a block is disoccluded
  let intra32 := if size = 64 then (codeAll f w intra ((quarters x y 32).map fun p => (p.1, p.2, 32, 32))) else none
  let disocc := (coveredBlocks x y size size).any fun b => hintFlag f 1 (b % 512) (b / 512)
  let noInter := match bestInter, intra32 with | some a, some b => decide (b.cost f ≤ a.cost f) | _, _ => true
  let bestIntra := if size = 64 && !disocc && !noInter then none else one intra
  let whole := bestWork f w (bestInter.toList ++ bestIntra.toList)
  let half := size / 2
  let halfPreds := fun w x y bw bh => interPreds f found w x y bw bh ++ (if c.codec = 0 then intraPreds f x y bw bh else [])
  let halves := if (c.codec = 2 ∧ size ≠ 16) ∨ (c.codec = 0 ∧ size ≤ 8) then []
    else (codeAll f w halfPreds [(x, y, size, half), (x, y + half, size, half)]).toList
      ++ (codeAll f w halfPreds [(x, y, half, size), (x + half, y, half, size)]).toList
  let edge := (coveredBlocks x y size size).any fun b => hintFlag f 0 (b % 512) (b / 512)
  let poor := match whole with | some v => decide (256 * f.lam < 65536 * (v.d - w.d)) | none => true
  let fine := size ≠ 16 || edge || disocc || poor
  let splits := match n with
    | 0 => if c.codec = 1 then oneChroma f w (fours x y) else []
    | k + 1 =>
      if !fine then []
      else if c.codec = 2 ∧ size = 16 then macroSplits f found x y w
      else [(quarters x y half).foldl (fun w p => searchTree k f found p.1 p.2 w) w]
  (bestWork f w (whole.toList ++ halves ++ splits)).getD w

/-- Mode decision of the superblock at x, y. -/
def decideSb (f : Front) (x y : Nat) : List Found × Work :=
  let found := if f.key then [] else f.refs.map fun r => searchSuperblock f r x y
  (found, searchTree 3 f found x y { raw := f.now.raw, blocks := [], d := 0, bits := 0 })

/-! ### Requantisation (R81, R149) -/

/-- Rises of the quantiser by 4 from q to its maximum of 51 (R81; DEDUCED, notes/assumptions/77.md: the last rise stops at 51). -/
def riseSteps (q : Nat) : Nat := ceilDiv (51 - q) 4

/-- The quantiser of attempt i. -/
def attemptQ (q i : Nat) : Nat := min 51 (q + 4 * i)

/-- The same decisions at another quantiser, the residual of the blocks named left out. -/
def requantised (f : Front) (q : Nat) (blocks : List Blk) (drop : List Nat) : Work :=
  (blocks.mapIdx fun i b => (i, b)).foldl (fun (w : Work) b => w.add f q (coded f q w b.2 (!drop.contains b.1)))
    { raw := f.now.raw, blocks := [], d := 0, bits := 0 }

/-- The largest level of a block. -/
def Blk.peak (b : Blk) : Nat := (b.levels.flatMap fun l => l.map Int.natAbs).foldl max 0

/-- The blocks of a superblock, those with the largest coefficients first. -/
def byPeak (l : List Blk) : List Nat := (sortBy (fun (a b : Nat × Nat) => decide (b.2 ≤ a.2)) (l.mapIdx fun i b => (i, b.peak))).map fun p => p.1

/-- The attempts at a superblock in order: as decided, at each rise of the quantiser by 4 up to its maximum, and at the maximum with the residual
of more and more blocks suppressed. -/
def attempts (f : Front) (decided : Work) : List (Nat × Work) :=
  let rises := (List.range (riseSteps f.q)).map fun i => let q := attemptQ f.q (i + 1); (q, requantised f q decided.blocks [])
  let atMax := ((rises.getLast?.map fun v => v.2).getD decided).blocks
  let order := byPeak atMax
  (f.q, decided) :: rises ++ (List.range atMax.length).map fun i => (51, requantised f 51 decided.blocks (order.take (i + 1)))

/-! ### All-skip and intra-floor superblocks (R129, R144) -/

/-- The blocks of a superblock without residual: one of 64×64, or the 16 macroblocks of AVC. -/
def plainBlocks (c : StreamCfg) (x y : Nat) : List Blk :=
  if c.codec = 2 then (List.range 16).map fun i => { x := x + i % 4 * 16, y := y + i / 4 * 16, w := 16, h := 16 }
  else [{ x := x, y := y, w := 64, h := 64 }]

/-- The prediction of a block of an all-skip superblock: zero motion from the band's first reference, as GLOBALMV in AV1, and elsewhere as the
first derived vector, or, in a band that is not all-skip as a whole, the derived vector that is zero. Where there is no reference, or for an
intra-floor superblock, DC; HEVC takes its chroma mode from luma (R129, R144). -/
def floorPred (f : Front) (intra : Bool) (w : Work) (b : Blk) : Pred :=
  match if intra then none else f.refs.head? with
  | some r =>
    let derived := if f.st.cfg.codec = 0 then globalMode else 1 + ((derivedAt f w b.x b.y b.w b.h).findIdx? fun v => v == {}).getD 0
    { mode := derived, refs := [r.1.frame], mvs := [{}] }
  | none => if f.st.cfg.codec = 1 then { mode := 1, chroma := 4 } else if f.st.cfg.codec = 2 then { mode := 2 } else {}

/-- A superblock coded all-skip, or intra-floor. -/
def floorSb (f : Front) (intra : Bool) (x y : Nat) : Work :=
  (plainBlocks f.st.cfg x y).foldl (fun (w : Work) b => w.add f f.q (bare { b with pred := floorPred f intra w b }))
    { raw := f.now.raw, blocks := [], d := 0, bits := 0 }

end Sys2Proof.Machine
end

