-- ==== Sys2Proof/Machine/Filters.lean ====
section
/-! DEFINITION. In-loop filters, the CRC record, the reference store in device memory, and the reference cache (R83 to R88, R352, R354). -/

namespace Sys2Proof.Machine

/-! ### In-loop filters (R83, R84) -/

/-- A picture at its filters: the stream, the picture and its superblocks, the picture coded before, the quantiser index of its header, and
the source. -/
structure LoopIn where
  st : Stream
  pic : RecPic
  prev : Option RecPic
  qindex : Nat
  source : Nat → Nat → Nat → Nat

/-- Planes of the first rows of a picture, sample by sample. -/
def buildPlanes (c : StreamCfg) (rows : Nat) (f : Nat → Nat → Nat → Nat) : Planes :=
  let plane := fun (k : Nat) =>
    let s := if k = 0 then 1 else 2
    ((List.range (rows / s)).flatMap fun y => (List.range (64 * c.wsb / s)).map fun x => (sampleKey x y, f k x y)).filter fun e => e.2 ≠ 0
  { luma := plane 0, cb := plane 1, cr := plane 2 }

/-- The filter syntax of the superblock at an index. -/
def filterOf (l : LoopIn) (u : Nat) : FilterCode := ((l.pic.coded.get none u).map fun x => x.filter).getD {}

/-- The superblock that holds a sample of a plane. -/
def sbAt (l : LoopIn) (k x y : Nat) : Nat := let s := if k = 0 then 64 else 32; y / s * l.st.cfg.wsb + x / s

/-- Squared error against the source of a square of luma side n at x, y, in a plane. -/
def squareError (l : LoopIn) (k n x y : Nat) (f : Nat → Nat → Nat) : Nat :=
  let s := if k = 0 then 1 else 2
  total ((List.range (n / s)).flatMap fun j => (List.range (n / s)).map fun i =>
    ((l.source k (x / s + i) (y / s + j) : Int) - f (x / s + i) (y / s + j)).natAbs ^ 2)

/-- Samples after deblocking; the last row of `rows` is not filtered against the one below. -/
def deblocked (l : LoopIn) (rows : Nat) : Planes :=
  buildPlanes l.st.cfg rows fun k x y => Config.deblock l.st.cfg.codec l.st.cfg.depth l.pic.coded l.pic.raw rows k x y

/-- A sample of the picture after CDEF with preset i. -/
def cdefSample (l : LoopIn) (p : Planes) (rows i k x y : Nat) : Nat :=
  Config.cdef l.st.cfg.depth (Config.cdefPreset l.qindex i) (Config.cdefDamping l.qindex) p rows k x y

/-- The preset of the 64×64 block at x, y: the one with the least squared error; the lower number on a tie (DESIGN CHOICE,
notes/assumptions/89.md). -/
def cdefChoice (l : LoopIn) (p : Planes) (rows x y : Nat) : Nat :=
  (leastBy (fun i => [((total ([0, 1, 2].map fun k => squareError l k 64 x y (cdefSample l p rows i k)) : Nat) : Int), (i : Nat)]) (List.range 8)).getD 0

/-- The samples after CDEF. -/
def cdefPlanes (l : LoopIn) (p : Planes) (rows : Nat) : Planes :=
  buildPlanes l.st.cfg rows fun k x y =>
    match (filterOf l (sbAt l k x y)).cdef with
    | some i => cdefSample l p rows i k x y
    | none => p.sample k x y

/-- The samples after Wiener restoration. -/
def wienerPlanes (l : LoopIn) (p : Planes) (rows : Nat) : Planes :=
  buildPlanes l.st.cfg rows fun k x y =>
    let co := (filterOf l (sbAt l k x y)).wiener.getD k []
    if co.isEmpty then p.sample k x y else Config.wiener l.st.cfg.depth co p rows k x y

/-- The samples after SAO. -/
def saoPlanes (l : LoopIn) (p : Planes) (rows : Nat) : Planes :=
  buildPlanes l.st.cfg rows fun k x y =>
    match (filterOf l (sbAt l k x y)).sao with
    | some o => Config.sao l.st.cfg.depth o p rows k x y
    | none => p.sample k x y

/-- The first `rows` luma rows of a picture through its filters, in the codec's order, with the parameters of its superblocks. -/
def filteredBy (l : LoopIn) (rows : Nat) : Planes :=
  let p := deblocked l rows
  if l.st.cfg.codec = 0 then wienerPlanes l (cdefPlanes l p rows) rows
  else if l.st.cfg.codec = 1 then saoPlanes l p rows
  else p

/-! ### The choice of filter parameters (R83) -/

/-- A picture with the filter syntax of one superblock set. -/
def withFilter (l : LoopIn) (u : Nat) (x : FilterCode) : LoopIn :=
  { l with pic := { l.pic with coded := l.pic.coded.set none u ((l.pic.coded.get none u).map fun c => { c with filter := x }) } }

/-- The Wiener coefficients of the restoration unit of superblock u in plane k: those derived from the co-located unit of the previous coded
picture where they lower the unit's squared error; none in the first picture of a stream. -/
def wienerChoice (l : LoopIn) (p : Planes) (rows u k : Nat) : List Int :=
  match l.prev with
  | none => []
  | some prev =>
    let x := u % l.st.cfg.wsb * 64
    let y := u / l.st.cfg.wsb * 64
    let co := Config.wienerCoefficients prev.fin k u
    if squareError l k 64 x y (fun i j => Config.wiener l.st.cfg.depth co p rows k i j) < squareError l k 64 x y (p.sample k) then co else []

/-- The SAO choice of superblock u: that of least J. -/
def saoChoice (l : LoopIn) (p : Planes) (rows u : Nat) : Option Nat :=
  let c := l.st.cfg
  let lam := lambdaFix c.codec c.depth (((l.pic.coded.get none u).map fun s => s.q).getD 0)
  leastBy (fun o => [((65536 * total ([0, 1, 2].map fun k =>
      squareError l k 64 (u % c.wsb * 64) (u / c.wsb * 64) (Config.sao c.depth o p rows k)) + lam * Config.saoBits o : Nat) : Int)])
    (Config.saoChoices c.depth)

/-- The filter parameters of superblock u, chosen once, as it is coded, since they are part of its syntax: over the picture as far as it is coded,
an edge to a superblock not yet coded not being filtered (DESIGN CHOICE, notes/assumptions/89.md). No source is read for them later. A
superblock without residual codes no CDEF preset. -/
def chooseFilter (l : LoopIn) (u : Nat) : FilterCode :=
  let c := l.st.cfg
  let rows := 64 * (u / c.wsb + 1)
  let p := deblocked l rows
  if c.codec = 0 then
    let bare := match l.pic.coded.get none u with | some x => x.blocks.all Blk.skip | none => true
    let cdef := if bare then none else some (cdefChoice l p rows (u % c.wsb * 64) (u / c.wsb * 64))
    let q := cdefPlanes (withFilter l u { cdef := cdef }) p rows
    { cdef := cdef, wiener := [0, 1, 2].map (wienerChoice l q rows u) }
  else if c.codec = 1 then { sao := saoChoice l p rows u }
  else {}

/-- Luma rows at a band's bottom that wait for the band below (R84). -/
def pendingRows : Nat := 16

/-- Replaces the rows from luma row `top` to above luma row `bottom`. -/
def replaceRows (old new : Planes) (top bottom : Nat) : Planes :=
  let part := fun (k : Nat) =>
    let at_ := sampleKey 0 (if k = 0 then top else top / 2)
    let end_ := sampleKey 0 (if k = 0 then bottom else bottom / 2)
    (old.plane k).filter (fun e => decide (e.1 < at_)) ++ (new.plane k).filter (fun e => decide (at_ ≤ e.1) && decide (e.1 < end_))
      ++ (old.plane k).filter fun e => decide (end_ ≤ e.1)
  { luma := part 0, cb := part 1, cr := part 2 }

/-- Luma rows down to the end of band b. -/
def rowsTo (c : StreamCfg) (b : Nat) : Nat := 64 * (c.firstRow b + c.rowsOf b)

/-- The picture's filtered samples at the close of band b: the pending rows of the band above become final, and the band's own rows take
their state at close; rows further down, of bands closed before, stay (R203). -/
def finAtClose (l : LoopIn) (b : Nat) : Planes :=
  replaceRows l.pic.fin (filteredBy l (rowsTo l.st.cfg b)) (64 * l.st.cfg.firstRow b - pendingRows) (rowsTo l.st.cfg b)

/-- The pending rows of a band over a band that has closed before, which a re-encode of the first alone leaves so: they are final at once
(DEDUCED from R84, notes/assumptions/89.md). -/
def finPending (l : LoopIn) (fin : Planes) (b : Nat) : Planes :=
  replaceRows fin (filteredBy l (rowsTo l.st.cfg (b + 1))) (rowsTo l.st.cfg b - pendingRows) (rowsTo l.st.cfg b)

/-! ### The CRC record (R85, R198) -/

/-- CRC-32C of an area of a picture, in luma samples: Y, Cb, Cr, each plane row by row, each sample a little-endian word of 16 bits. -/
def areaCrc (p : Planes) (x y w h : Nat) : Nat :=
  crc32c ([0, 1, 2].flatMap fun k =>
    let s := if k = 0 then 1 else 2
    (List.range (h / s)).flatMap fun j => (List.range (w / s)).flatMap fun i =>
      let v := p.sample k (x / s + i) (y / s + j)
      [BitVec.ofNat 8 v, BitVec.ofNat 8 (v / 256)])

/-- The superblock CRCs of a band. -/
def bandCrcs (c : StreamCfg) (p : Planes) (b : Nat) : List Nat :=
  (List.range (c.sbOf b)).map fun i => areaCrc p (i % c.wsb * 64) ((c.firstRow b + i / c.wsb) * 64) 64 64

/-- The boundary CRC of a band: the pending rows of the band above in their final state, and 0 for the first band. -/
def boundaryCrc (c : StreamCfg) (p : Planes) (b : Nat) : Nat :=
  if b = 0 then 0 else areaCrc p 0 (64 * c.firstRow b - pendingRows) (64 * c.wsb) pendingRows

/-! ### The store in device memory (R86, R87, R455) -/

/-- Compression units of a picture: luma units of 32×4 samples, then units of 16×4 CbCr pairs. -/
def lumaUnits (c : StreamCfg) : Nat := 2 * c.wsb * (16 * c.hsb)
def unitCount (c : StreamCfg) : Nat := lumaUnits c + 2 * c.wsb * (8 * c.hsb)

/-- The 128 samples of a compression unit. -/
def unitSamples (c : StreamCfg) (p : Planes) (u : Nat) : List Nat :=
  let wide := 2 * c.wsb
  if u < lumaUnits c then
    (List.range 4).flatMap fun j => (List.range 32).map fun i => p.sample 0 (u % wide * 32 + i) (u / wide * 4 + j)
  else
    let v := u - lumaUnits c
    (List.range 4).flatMap fun j => (List.range 16).flatMap fun i => [1, 2].map fun k => p.sample k (v % wide * 16 + i) (v / wide * 4 + j)

/-- The compressed form of a unit, at most its five sectors of 32 bytes. -/
def unitBytes (c : StreamCfg) (p : Planes) (u : Nat) : List Byte := (Config.compressed (unitSamples c p u)).take 160

/-- Sectors of a unit: its size entry, 1 to 5. -/
def unitSectors (bs : List Byte) : Nat := max 1 (min 5 (ceilDiv bs.length 32))

/-- Device address of a store unit of a stream. -/
def storeBase (d : Dev) (n unit : Nat) : Nat := (((d.allocs.filter fun a => a.2.2 == n).getD unit (0, 0, 0))).1

/-- The units that overlap luma rows from `top` to below `bottom` and luma columns from `left` to below `right`. -/
def unitsIn (c : StreamCfg) (left right top bottom : Nat) : List Nat :=
  (List.range (unitCount c)).filter fun u =>
    let v := if u < lumaUnits c then u else u - lumaUnits c
    let h := if u < lumaUnits c then 4 else 8
    let x := v % (2 * c.wsb) * 32
    let y := v / (2 * c.wsb) * h
    decide (y < bottom) && decide (top < y + h) && decide (x < right) && decide (left < x + 32)

/-- The units that overlap luma rows from `top` to below `bottom`. -/
def unitsOf (c : StreamCfg) (top bottom : Nat) : List Nat := unitsIn c 0 (64 * c.wsb) top bottom

/-- Writes a unit into its place of 160 bytes and its entry of 4 bits into the size table behind the places. DESIGN CHOICE
(notes/assumptions/102.md): the entry of an even unit is the low half of its byte. -/
def storeCompressed (s : State) (base : Nat) (c : StreamCfg) (p : Planes) (u : Nat) : State :=
  let bs := unitBytes c p u
  let k := unitSectors bs
  let s := s.store (base + 160 * u) (bs ++ List.replicate (32 * k - bs.length) 0)
  let a := base + 160 * unitCount c + u / 2
  let old := (s.byte a).toNat
  s.store a [BitVec.ofNat 8 (if u % 2 = 0 then old / 16 * 16 + k else old % 16 + 16 * k)]

/-- Writes the rows of a picture that a close has changed into the stream's store. -/
def storeRowsOf (s : State) (n : Nat) (r : RecPic) (top bottom : Nat) : State :=
  let c := (s.dev.stream n).cfg
  let base := storeBase s.dev n r.unit
  each (unitsOf c top bottom) s fun s u => storeCompressed s base c r.fin u

/-! ### The reference cache (R88) -/

/-- Lines of the cache: 6 MiB in units of 160 bytes; Echo's share is a quarter (DESIGN CHOICE, notes/assumptions/90.md: a line is counted at
the full place of its unit). -/
def cacheLines : Nat := 6 * 1048576 / 160
def echoLines : Nat := cacheLines / 4

/-- Two lines hold the same unit. -/
def CacheLine.same (x y : CacheLine) : Bool := x.stream == y.stream && x.frame == y.frame && x.unit == y.unit

/-- A line is used: it becomes the most recent of its share, and the least recently used one of the share makes room. DESIGN CHOICE
(notes/assumptions/90.md): a line of one share that the other uses moves to the share of its last user. -/
def touchLine (l : List CacheLine) (x : CacheLine) : List CacheLine :=
  let rest := l.filter fun y => !y.same x
  let mine := (x :: rest).filter fun y => y.echo == x.echo
  let kept := mine.take (if x.echo then echoLines else cacheLines - echoLines)
  (x :: rest).filter fun y => y.echo != x.echo || kept.contains y

/-- Units of a reference picture of stream n are read through the cache, which holds them in their compressed form. -/
def readUnits (d : Dev) (g n frame : Nat) (echo : Bool) (units : List Nat) : Dev :=
  let st := d.stream n
  let data := fun u => ((st.recs.find? fun r => r.frame == frame).map fun r => unitBytes st.cfg r.fin u).getD []
  d.onGal g fun x => { x with
    cache := units.foldl (fun l u => touchLine l { stream := n, frame := frame, unit := u, echo := echo, data := data u }) x.cache }

/-- Luma rows above and below a band that its search area takes in. -/
def searchRows : Nat := 64

/-- The search area of a band in a reference is read through the cache. -/
def readThrough (d : Dev) (g n frame b : Nat) (echo : Bool) : Dev :=
  let c := (d.stream n).cfg
  readUnits d g n frame echo
    (unitsOf c (64 * c.firstRow b - searchRows) (min (64 * c.hsb) (64 * (c.firstRow b + c.rowsOf b) + searchRows)))

/-- The units that the predictions of a block read from its references, each with its frame: those that its vectors reach, held to the
picture. -/
def blockUnits (c : StreamCfg) (o : Blk) : List (Nat × List Nat) :=
  (o.pred.refs.zip o.pred.mvs).map fun p =>
    let rx := reach c.codec o.x o.w p.2.x
    let ry := reach c.codec o.y o.h p.2.y
    let hold := fun (n : Nat) (a : Int) => (max 0 (min a ((64 * n : Nat) - 1))).toNat
    (p.1, unitsIn c (hold c.wsb rx.1) (hold c.wsb rx.2 + 1) (hold c.hsb ry.1) (hold c.hsb ry.2 + 1))

/-- The predictions of some blocks read their references through the cache. -/
def readBlocks (d : Dev) (g n : Nat) (echo : Bool) (l : List Blk) : Dev :=
  each l d fun d o => each (blockUnits (d.stream n).cfg o) d fun d p => readUnits d g n p.1 echo p.2

/-! ### The stream's pictures (R76, R87) -/

/-- The picture of a frame among those held. -/
def recOf (st : Stream) (frame : Nat) : Option RecPic := st.recs.find? fun r => r.frame == frame

/-- The picture coded before that of a frame. -/
def recBefore (st : Stream) (frame : Nat) : Option RecPic := (st.recs.dropWhile fun r => r.frame != frame).tail.head?

/-- Changes a picture. -/
def onRec (d : Dev) (n frame : Nat) (f : RecPic → RecPic) : Dev :=
  d.onStream n fun st => { st with recs := st.recs.map fun r => if r.frame = frame then f r else r }

/-- The pictures that stay: those of the store, those with bands in hand, and beside each of these and the newest the one coded before
it. -/
def keptRecs (st : Stream) (l : List RecPic) : List RecPic :=
  let coding := fun (r : RecPic) => st.bands.any fun b => b.frame == r.frame
  ((l.zip (true :: l.map coding)).filter fun p => p.2 || coding p.1 || st.ref.store.any fun x => x.frame == p.1.frame).map fun p => p.1

/-- A picture begins: it takes a unit that no picture of the store and no picture under reconstruction holds. -/
def beginRec (st : Stream) (frame : Nat) : Stream :=
  if (recOf st frame).isSome then st
  else
    let held := fun (r : RecPic) => (st.ref.store.any fun x => x.frame == r.frame) || st.bands.any fun b => b.frame == r.frame
    let used := (st.recs.filter held).map fun r => r.unit
    let unit := ((List.range (st.cfg.refSlots + 1)).find? fun u => !used.contains u).getD 0
    let wave := match st.ref.wave, st.ref.lastWaveAt with | some w, some t => some (t, w.1) | _, _ => none
    let new : RecPic := { frame := frame, unit := unit, wave := wave, clean := 64 * (refreshCols st.cfg st.ref.wave).2 }
    { st with recs := new :: keptRecs st st.recs }

end Sys2Proof.Machine
end

