-- ==== Sys2Proof/Machine/Coding.lean ====
section
/-! DEFINITION. The coding of a band: its entropy-coded data and their sizes, its superblocks within their limits, the variants of a Vein
band, and what its close writes beside the checkpoint (R81, R82, R84 to R86, R112, R113, R126 to R129, R149, R157, R350 to R354). Points that these
rules leave open are choices of the model (notes/assumptions/91.md). -/

namespace Sys2Proof.Machine

/-! ### Entropy-coded data (R60, R112, R125, R127, R128) -/

/-- The superblocks as units of entropy coding: a superblock, or in AVC a macroblock, in raster order across the band. -/
def codingUnits (codec : Nat) (l : List SbCode) : List SbCode :=
  if codec ≠ 2 then l
  else
    let at_ := fun (b : Blk) => 512 * (b.y / 16) + b.x / 16
    let all := l.flatMap fun s => s.blocks.map fun b => (s.q, b)
    (sortBy (fun (a b : Nat) => decide (a ≤ b)) (uniq (all.map fun p => at_ p.2))).map fun k =>
      let mine := all.filter fun p => at_ p.2 == k
      { q := (mine.head?.map fun p => p.1).getD 0, blocks := mine.map fun p => p.2 }

/-- A quantiser change as the codec carries it: in AVC the modular form where it lies outside -26 to 25 (R127). -/
def carriedDelta (codec : Nat) (v : Int) : Int :=
  if codec = 2 then (if v < -26 then v + 52 else if 25 < v then v - 52 else v) else v

/-- The units with the quantiser changes that they carry, from a base quantiser. A unit without residual carries none, and the prediction
quantiser carries over (R127, R128). -/
def withDeltas (codec base : Nat) (l : List SbCode) : List CodedUnit :=
  let scale := fun (q : Nat) => if codec = 0 then qindexOf q else q
  (l.foldl (fun (a : List CodedUnit × Nat) u =>
    if u.blocks.all Blk.skip then (a.1 ++ [{ blocks := u.blocks, filter := u.filter }], a.2)
    else (a.1 ++ [{ delta := carriedDelta codec ((scale u.q : Int) - a.2), blocks := u.blocks, filter := u.filter }], scale u.q))
    ([], scale base)).1

/-- The superblocks of a band that lie in a tile column, in raster order. -/
def inTile (c : StreamCfg) (t : Nat) (l : List SbCode) : List SbCode := l.filter fun s => s.blocks.any fun b => tileOf c b.x == t

/-- Zero bytes at the end of some bytes. -/
def endZeros (l : List Byte) : Nat := (l.reverse.takeWhile fun b => b == 0).length

/-- How a band's data are written: its stream, the base quantiser and the slice type that its headers give, and the zero bytes that end its
headers. -/
structure DataForm where
  c : StreamCfg
  base : Nat
  slice : Nat
  zeros : Nat
deriving DecidableEq, Repr

/-- The data of superblocks as written, tile by tile: one entropy coder for each tile, emulation prevention in HEVC and AVC. -/
def writtenTiles (f : DataForm) (l : List SbCode) (ended : Bool) : List (List Byte) :=
  (List.range f.c.tileCols).map fun t =>
    let raw := Config.entropy f.c.codec f.base f.slice (withDeltas f.c.codec f.base (codingUnits f.c.codec (inTile f.c t l))) ended
    if f.c.codec = 0 then raw else emulate f.zeros raw

def writtenBits (f : DataForm) (l : List SbCode) : Nat := 8 * total ((writtenTiles f l false).map List.length)

/-- Bits that a superblock takes after those coded before it. -/
def sbBits (f : DataForm) (before : List SbCode) (x : SbCode) : Nat := writtenBits f (before ++ [x]) - writtenBits f before

/-- The form of a band's data; AV1 codes against the quantiser of band 0 (R127); HEVC has B slices for two references (R116). -/
def formOf (st : Stream) (b : Band) : DataForm :=
  let x := decisionOf st b.frame
  { c := st.cfg
    base := if st.cfg.codec = 0 then (x.map fun x => x.q).getD b.base else b.base
    slice := if b.key then 0 else if st.cfg.codec = 1 && (x.bind fun x => x.second).isSome then 2 else 1
    zeros := endZeros b.hdr.flatten }

/-- The bytes of a variant of a band: its headers with their sizes filled in, and its data, which end within the termination allowance
(R96, R126, R144). -/
def variantBytes (st : Stream) (b : Band) (variant : Nat) : List Byte :=
  let tiles := writtenTiles (formOf st b) (if variant = 2 then b.coded1 else b.coded0) true
  let data := tiles.flatten.take ((if variant = 2 then b.bits1 else b.bits0) / 8 + 4 * st.cfg.tiles)
  (fillSizes st.cfg b.hdr data.length (tiles.headD []).length).flatten ++ data

/-! ### Limits (R129, R149, R152, R154, R157) -/

/-- Every superblock of the band is coded all-skip, or intra-floor in a key frame (R129, R152, R154). -/
def allSkip (b : Band) : Bool := b.rep || b.dry || b.missing

/-- Superblock i of a band is a refresh superblock of the wave. -/
def inWave (st : Stream) (b : Band) (i : Nat) : Bool :=
  !b.key && decide ((waveCols st b.frame).1 ≤ i % st.cfg.wsb) && decide (i % st.cfg.wsb < (waveCols st b.frame).2)

/-- The bound of superblock i coded all-skip or intra-floor, in bits. A refresh superblock of the wave counts with the intra-floor
bound; in a repeat band or one coded for missing rows R154 says all-skip and R188 names dry bands alone: there the model keeps the
intra-floor bound too (DESIGN CHOICE, notes/assumptions/76.md). -/
def sbBound (st : Stream) (b : Band) (i : Nat) : Nat :=
  8 * (if b.key || inWave st b i then intraBound st.cfg.codec else skipBound st.cfg.codec)

/-- z_s: the floor cost of the superblocks after i, and the termination allowance. -/
def laterFloor (st : Stream) (b : Band) (i : Nat) : Nat :=
  total ((List.range (b.n - 1 - i)).map fun j => sbBound st b (i + 1 + j)) + 32 * st.cfg.tiles

/-- The size limit of a superblock of a variant that has written `bits` so far. -/
def sbLimit (st : Stream) (b : Band) (i bits : Nat) : Nat :=
  min 32768 (b.limit - (8 * b.hdrBytes + bits) - laterFloor st b i)

/-- The place of the first attempt that fits, and its bits; past the last attempt, the bound of a superblock coded all-skip or
intra-floor. -/
def fitting (lim bound : Nat) (tries : List Nat) : Nat × Nat :=
  match tries.findIdx? fun t => decide (t ≤ lim) with
  | some i => (i, tries.getD i 0)
  | none => (tries.length, bound)

/-- Attempt i from quantiser q suppresses residual: it comes after the one at the maximum, or past the last attempt. -/
def suppressed (q : Nat) (tries : List Nat) (i : Nat) : Bool := decide (riseSteps q < i) || decide (0 < i ∧ tries.length ≤ i)

/-- A variant codes the superblock coarser than its class's floor, or suppresses its residual, under a limit (R157). -/
def breaches (cls q : Nat) (tries : List Nat) (i : Nat) : Bool :=
  decide (0 < i) && decide (cls < 51) && (suppressed q tries i || decide (cls < attemptQ q i))

/-- The superblock's coded size would exceed 4,096 bytes (R81). -/
def oversize (tries : List Nat) : Bool := decide (32768 < tries.headD 0)

/-- What the limit `lim` does when attempt i is the one that is taken. -/
def stepsOf (lim cls q : Nat) (tries : List Nat) (i : Nat) : SbSteps :=
  { guarded := decide (lim < 32768) && decide (0 < i), capped := decide (lim = 32768) && decide (0 < i), big := oversize tries
    breach := breaches cls q tries i }

/-- Steps that only the second of two variants has taken. -/
def SbSteps.less (x y : SbSteps) : SbSteps :=
  { guarded := x.guarded && !y.guarded, capped := x.capped && !y.capped, big := x.big && !y.big, breach := x.breach && !y.breach }

/-- Counts the steps of a superblock in its band. -/
def countSteps (b : Band) (x : SbSteps) : Band :=
  { b with guarded := b.guarded + x.guarded.toNat, sbCap := b.sbCap + x.capped.toNat, roiBreach := b.roiBreach + x.breach.toNat }

/-! ### Coding a superblock (R76, R81, R129, R149) -/

/-- Luma place of superblock i of a band. -/
def sbPlace (c : StreamCfg) (b i : Nat) : Nat × Nat := (i % c.wsb * 64, (c.firstRow b + i / c.wsb) * 64)

/-- The picture of a band under reconstruction. -/
def picOf (st : Stream) (frame : Nat) : RecPic := (recOf st frame).getD { frame := frame }

/-- What the front sees of a superblock of a band that is coded at quantiser q: exactly the inputs of R76. -/
def frontOf (s : State) (n : Nat) (b : Band) (q : Nat) : Front :=
  let st := s.dev.stream n
  let x := decisionOf st b.frame
  let tile := tileOf st.cfg (sbPlace st.cfg b.b b.sbDone).1
  let refs := ((x.bind fun x => x.first).toList ++ (x.bind fun x => x.second).toList).filterMap fun f =>
    (recOf st f).map fun r => (r, seqAhead f b.frame)
  { st := st, b := b, frame := b.frame, lam := lambdaFix st.cfg.codec st.cfg.depth q, q := q, key := b.key
    source := codedSource s st b.frame, refs := refs
    prior := (b.coded0.flatMap fun c => c.blocks).filter fun o => tileOf st.cfg o.x == tile, now := picOf st b.frame
    before := ((recBefore st b.frame).map fun r => r.vectors).getD [] }

/-- A superblock as coded within its limit: its syntax, the samples with it, its bits, and the steps that the limit took. `floor` says that it
is all-skip or intra-floor. -/
structure SbDone where
  code : SbCode
  raw : Planes
  bits : Nat
  floor : Bool := false
  steps : SbSteps := ({} : SbSteps)
deriving DecidableEq, Repr

/-- A superblock all-skip or intra-floor: never more bits than its bound. -/
def codeFloor (f : Front) (before : List SbCode) (i : Nat) : SbDone :=
  let p := sbPlace f.st.cfg f.b.b i
  let w := floorSb f (f.key || inWave f.st f.b i) p.1 p.2
  let code : SbCode := { q := f.q, blocks := w.blocks }
  { code := code, raw := w.raw, bits := min (sbBits (formOf f.st f.b) before code) (sbBound f.st f.b i), floor := true }

/-- A superblock with its decisions, within the size limit `lim`: the first attempt that fits; where none fits, all-skip or
intra-floor. `finish` gives an attempt its filter syntax. -/
def codeWithin (f : Front) (finish : Nat → Work → SbCode) (before : List SbCode) (i lim : Nat) (decided : Work) : SbDone :=
  let l := (attempts f decided).map fun v => (finish v.1 v.2, v.2.raw)
  let tries := l.map fun v => sbBits (formOf f.st f.b) before v.1
  let fit := fitting lim (sbBound f.st f.b i) tries
  let steps := stepsOf lim (floorOfClass f.st (f.st.cfg.sbIndex f.b.b i)) f.q tries fit.1
  match l[fit.1]? with
  | some v => { code := v.1, raw := v.2, bits := fit.2, steps := steps }
  | none => { codeFloor f before i with steps := steps }

/-- The 16×16 blocks of a superblock whose final vector came from the hint seed (R74). DESIGN CHOICE (notes/assumptions/103.md): one that is
split into smaller blocks counts by its top left block alone. -/
def hintWins (f : Front) (found : List Found) (blocks : List Blk) : Nat :=
  total (blocks.map fun o =>
    match o.pred.refs, o.pred.mvs with
    | r :: _, v :: _ =>
      match f.refs.findIdx? fun x => x.1.frame == r with
      | some k => ((coveredBlocks o.x o.y o.w o.h).filter fun c =>
          (found.getD k []).get none c == some (v, true) && decide (o.x % 16 = 0 ∧ o.y % 16 = 0)).length
      | none => 0
    | _, _ => 0)

/-- The final vectors of some blocks, by 16×16 block: that of the first reference. -/
def vectorsOf (t : Tab (Option Mv)) (blocks : List Blk) : Tab (Option Mv) :=
  blocks.foldl (fun t o => (coveredBlocks o.x o.y o.w o.h).foldl (fun t c => t.set none c o.pred.mvs.head?) t) t

/-- The superblock at index k becomes tainted when it is all-skip from a tainted one, or keeps clean (R354). -/
def taintAfter (r : RecPic) (refs : List (RecPic × Nat)) (k : Nat) (x : SbDone) : List Nat :=
  let copies := x.floor && (x.code.blocks.any fun o => !o.pred.refs.isEmpty) && (match refs with | p :: _ => p.1.taint.contains k | [] => false)
  (r.taint.filter fun t => t ≠ k) ++ if copies then [k] else []

/-- Writes a coded superblock of variant 0 into its picture. -/
def recordSb (r : RecPic) (refs : List (RecPic × Nat)) (k : Nat) (x : SbDone) : RecPic :=
  { r with raw := x.raw, coded := r.coded.set none k (some x.code), vectors := vectorsOf r.vectors x.code.blocks, taint := taintAfter r refs k x }

/-- The filters' view of a picture. -/
def loopOf (s : State) (n : Nat) (pic : RecPic) : LoopIn :=
  let st := s.dev.stream n
  { st := st, pic := pic, prev := recBefore st pic.frame
    qindex := qindexOf (((decisionOf st pic.frame).map fun x => x.q).getD 0), source := codedSource s st pic.frame }

/-- A superblock's syntax with its filter parameters, chosen over the picture with its samples (R83). -/
def finished (s : State) (n : Nat) (f : Front) (u q : Nat) (w : Work) : SbCode :=
  let code : SbCode := { q := q, blocks := w.blocks }
  let pic := { f.now with raw := w.raw, coded := f.now.coded.set none u (some code) }
  { code with filter := chooseFilter (loopOf s n pic) u }

/-- A band's superblocks leave its picture before it is coded (again): its decisions depend on none of them (R76). -/
def clearBand (c : StreamCfg) (b : Band) (r : RecPic) : RecPic :=
  let lo := c.sbIndex b.b 0
  { r with coded := r.coded.filter fun e => decide (e.1 < lo) || decide (lo + b.n ≤ e.1) }

/-- The next superblock of a band of stream n as its inputs decide it, and the blocks that the hint seed won. -/
def nextSb (s : State) (n : Nat) (b : Band) : SbDone × Nat :=
  let st := s.dev.stream n
  let i := b.sbDone
  let f := frontOf s n b (sbQ st b.mapEntries (st.cfg.sbIndex b.b 0) i b.q)
  if allSkip b then (codeFloor f b.coded0 i, 0)
  else
    let p := sbPlace st.cfg b.b i
    let x := decideSb f p.1 p.2
    let v := codeWithin f (finished s n f (st.cfg.sbIndex b.b i)) b.coded0 i (sbLimit st b i b.bits0) x.2
    (v, hintWins f x.1 v.code.blocks)

/-- A band after its next superblock. A superblock of a dry band breaches its class's floor (R157). -/
def bandAfter (st : Stream) (b : Band) (x : SbDone) (won : Nat) : Band :=
  let dryBreach := b.dry && !b.rep && !b.missing && decide (floorOfClass st (st.cfg.sbIndex b.b b.sbDone) < 51)
  let steps := if allSkip b then { breach := dryBreach } else x.steps
  countSteps { b with
    sbDone := b.sbDone + 1, bits0 := b.bits0 + x.bits, coded0 := b.coded0 ++ [x.code], steps := b.steps ++ [steps]
    hintWon := b.hintWon + won } steps

/-! ### Variant superblocks (R350, R351) -/

/-- Most variant superblocks of a band (R350). -/
def veinLimit (v : VeinCfg) (n : Nat) : Nat := min v.sb (35 * n / 100)

/-- The change of a DC level, and the superblock that the visit begins at, for the bytes O of a period. -/
def veinStep (o : Nat) : Int := if byteO o 2 / 2 % 2 = 1 then -1 else 1
def veinStart (o n : Nat) : Nat := (256 * byteO o 3 + byteO o 4) % max 1 n

/-- The luma transform blocks wholly inside the inner region of the superblock at x, y, in raster order: block, place of the DC level. -/
def innerBlocks (codec x y : Nat) (blocks : List Blk) : List (Nat × Nat) :=
  let all := (blocks.mapIdx fun i o => (i, o)).flatMap fun p => (Config.lumaTransforms codec p.2).map fun t => (p.1, t)
  let inner := all.filter fun p =>
    decide (x + 16 ≤ p.2.1 ∧ p.2.1 + p.2.2.2.1 ≤ x + 48 ∧ y + 16 ≤ p.2.2.1 ∧ p.2.2.1 + p.2.2.2.2.1 ≤ y + 48)
  (sortBy (fun a b => decide (8192 * a.2.2.1 + a.2.1 ≤ 8192 * b.2.2.1 + b.2.1)) inner).map fun p => (p.1, p.2.2.2.2.2)

def dcLevel (blocks : List Blk) (t : Nat × Nat) : Int := ((blocks[t.1]?.map fun o => (o.levels.getD 0 []).getD t.2 0)).getD 0

/-- The transform blocks that d may change. -/
def changeable (codec : Nat) (d : Int) (x y : Nat) (blocks : List Blk) : List (Nat × Nat) :=
  if blocks.any fun o => o.pred.refs.isEmpty then []
  else (innerBlocks codec x y blocks).filter fun t => dcLevel blocks t ≠ 0 && dcLevel blocks t + d ≠ 0

/-- Blocks with the DC level of one transform block changed by d. -/
def changeDc (d : Int) (blocks : List Blk) (t : Nat × Nat) : List Blk :=
  blocks.mapIdx fun i o => if i = t.1 then o.setLevel 0 t.2 (dcLevel blocks t + d) else o

/-- Blocks reconstructed with their levels as they stand. -/
def rebuilt (f : Front) (q : Nat) (blocks : List Blk) : Work :=
  blocks.foldl (fun (w : Work) o => w.add f q o) { raw := f.now.raw, blocks := [], d := 0, bits := 0 }

/-- No sample of the superblock at x, y differs by more than `most`. -/
def closeTo (p r : Planes) (x y most : Nat) : Bool :=
  [0, 1, 2].all fun k =>
    let u := if k = 0 then 1 else 2
    (List.range (64 / u)).all fun j => (List.range (64 / u)).all fun i =>
      decide (((p.sample k (x / u + i) (y / u + j) : Int) - r.sample k (x / u + i) (y / u + j)).natAbs ≤ most)

/-- Sum of the 1,024 inner luma samples of the superblock at x, y. -/
def innerSum (p : Planes) (x y : Nat) : Nat :=
  total ((List.range 32).flatMap fun j => (List.range 32).map fun i => p.sample 0 (x + 16 + i) (y + 16 + j))

/-- A variant superblock: its index in the band, its blocks, and the sums S0 and S1. -/
structure VariantSb where
  i : Nat
  blocks : List Blk
  s0 : Nat
  s1 : Nat
deriving DecidableEq, Repr

/-- Outside the samples at least 4 luma samples, or 2 chroma samples, inside the edges of the superblock at x, y two pictures agree (R352). -/
def confined (p r : Planes) (x y : Nat) : Bool :=
  [0, 1, 2].all fun k =>
    let u := if k = 0 then 1 else 2
    let outside := fun (e : Nat × Nat) =>
      !(inRange (e.1 % 8192) ((x + 4) / u) ((x + 60) / u - 1) && inRange (e.1 / 8192) ((y + 4) / u) ((y + 60) / u - 1))
    (p.plane k).filter outside == (r.plane k).filter outside

/-- The visit of superblock i: each change of a DC level in turn, kept where the filtered samples stay close to variant 0 and confined to the
superblock; none: not a variant superblock. Filter parameters are those of variant 0. -/
def visitSb (s : State) (n : Nat) (b : Band) (v : VeinCfg) (d : Int) (fin0 : Planes) (i : Nat) : Option VariantSb :=
  let st := s.dev.stream n
  let c := st.cfg
  let p := sbPlace c b.b i
  let code := b.coded0.getD i {}
  let f := frontOf s n b code.q
  let finOf := fun (blocks : List Blk) =>
    let pic := { f.now with raw := (rebuilt f code.q blocks).raw, coded := f.now.coded.set none (c.sbIndex b.b i) (some { code with blocks := blocks }) }
    filteredBy (loopOf s n pic) (rowsTo c b.b)
  let r := (changeable c.codec d p.1 p.2 code.blocks).foldl (fun (a : List Blk × Planes) t =>
    let blocks := changeDc d a.1 t
    let fin := finOf blocks
    if closeTo fin fin0 p.1 p.2 (v.delta * 2 ^ (c.depth - 8)) && confined fin fin0 p.1 p.2 then (blocks, fin) else a) (code.blocks, fin0)
  if r.1 = code.blocks then none else some { i := i, blocks := r.1, s0 := innerSum fin0 p.1 p.2, s1 := innerSum r.2 p.1 p.2 }

/-- The variant superblocks of a scheduled band, in the order of the visit. -/
def visitBand (s : State) (n : Nat) (b : Band) : List VariantSb :=
  let st := s.dev.stream n
  let v := veinAt st b.seq
  let o := veinO s.dev v (b.seq / 2 ^ v.f)
  let fin0 := filteredBy (loopOf s n (picOf st b.frame)) (rowsTo st.cfg b.b)
  (List.range b.n).foldl (fun (a : List VariantSb) k =>
    if veinLimit v b.n ≤ a.length then a
    else a ++ (visitSb s n b v (veinStep o) fin0 ((veinStart o b.n + k) % max 1 b.n)).toList) []

/-- The superblocks of variant 1: those of variant 0 but for the variant superblocks' blocks; every other decision is the same (R351). -/
def variantCodes (b : Band) (l : List VariantSb) : List SbCode :=
  b.coded0.mapIdx fun i x => match l.find? fun v => v.i == i with | some v => { x with blocks := v.blocks } | none => x

/-- The bits of superblocks coded one after the other in a band, and whether each stays within its limit (R149, R150). -/
def variantBits (st : Stream) (b : Band) (l : List SbCode) : Nat × Bool :=
  (l.mapIdx fun i x => (i, x)).foldl (fun (a : Nat × Bool) p =>
    let bits := sbBits (formOf st b) (l.take p.1) p.2
    (a.1 + bits, a.2 && decide (bits ≤ sbLimit st b p.1 a.1))) (0, true)

/-- The variant superblocks that variant 1 takes: as many of those visited, in their order, as its limits hold. R149 applies to each variant
with the same limit while R351 keeps every other decision the same, so nothing is requantised for variant 1 (DESIGN CHOICE,
notes/assumptions/91.md). -/
def variantsWithin (st : Stream) (b : Band) (l : List VariantSb) : List VariantSb :=
  l.take (((List.range (l.length + 1)).reverse.find? fun k => (variantBits st b (variantCodes b (l.take k))).2).getD 0)

/-- A scheduled band becomes a Vein band where a superblock qualifies (R349): its variant 1 is coded beside variant 0. -/
def codeVariant (s : State) (n : Nat) (b : Band) : Band :=
  let st := s.dev.stream n
  let l := variantsWithin st b (visitBand s n b)
  if l.isEmpty then b
  else
    let raw := l.foldl (fun (raw : Planes) v =>
      let f := frontOf s n b (b.coded0.getD v.i {}).q
      (rebuilt { f with now := { f.now with raw := raw } } (b.coded0.getD v.i {}).q v.blocks).raw) (picOf st b.frame).raw
    let codes := variantCodes b l
    { b with
      vein := true, variants := l.length, coded1 := codes, bits1 := (variantBits st b codes).1, raw1 := raw
      sums := l.map fun v => (st.cfg.sbIndex b.b v.i, v.s0, v.s1) }

/-! ### The close (R84 to R86, R354) -/

/-- The CRC records of a band over its samples at close (R85). -/
def crcRecord (s : State) (n : Nat) (b : Band) : Band :=
  let st := s.dev.stream n
  let c := st.cfg
  let pic := picOf st b.frame
  let fin := finAtClose (loopOf s n pic) b.b
  let b := { b with crc0 := bandCrcs c fin b.b, edge0 := boundaryCrc c fin b.b, crc1 := [], edge1 := 0 }
  if !b.vein then b
  else
    let coded := (b.coded1.mapIdx fun i x => (i, x)).foldl (fun (t : Tab (Option SbCode)) p => t.set none (c.sbIndex b.b p.1) (some p.2)) pic.coded
    let fin1 := finAtClose (loopOf s n { pic with raw := b.raw1, coded := coded }) b.b
    { b with crc1 := bandCrcs c fin1 b.b, edge1 := boundaryCrc c fin1 b.b }

/-- The band below is coded and has closed. -/
def belowClosed (st : Stream) (pic : RecPic) (b : Band) : Bool :=
  decide (b.b + 1 < st.cfg.bands) && (pic.coded.get none (st.cfg.sbIndex (b.b + 1) 0)).isSome
    && !st.bands.any fun x => x.frame == b.frame && x.b == b.b + 1 && x.stage != .closed

/-- The picture of a band at its close: its rows filtered, the pending rows above final, its variant superblocks tainted. -/
def picAtClose (s : State) (n : Nat) (b : Band) : RecPic :=
  let st := s.dev.stream n
  let pic := picOf st b.frame
  let l := loopOf s n pic
  let fin := finAtClose l b.b
  { pic with
    fin := if belowClosed st pic b then finPending l fin b.b else fin
    taint := uniq (pic.taint ++ if b.vein then b.sums.map fun e => e.1 else []) }

end Sys2Proof.Machine
end

