-- ==== Sys2Proof/Machine/Checkpoint.lean ====
section
/-! DEFINITION. The stream record in the mirrored region: the bytes of checkpoint images, VERIFIED, the acknowledgement table and group state,
and the counters (R160, R175, R189, R227 to R230). What these rules leave open of the layout is the model's choice
(notes/assumptions/92.md). -/

namespace Sys2Proof.Machine

/-- n bytes of a number, least significant first; negative ones in two's complement. -/
def leBytes (n : Nat) (v : Int) : List Byte := (List.range n).map fun i => BitVec.ofInt 8 (v / (2 ^ (8 * i) : Nat))

/-- Bytes held to n of them: zeros follow. -/
def sized (n : Nat) (l : List Byte) : List Byte := l.take n ++ List.replicate (n - l.length) 0

/-- Numbers as fields of n bytes, k of them. -/
def fields (n k : Nat) (l : List Int) : List Byte := sized (n * k) (l.flatMap (leBytes n))

/-! ### The rate state (R160) -/

/-- Limits of the up to three bands that count in held at the band after b. -/
def heldLimits (st : Stream) (rs : RateState) (b : Nat) : List Int :=
  ((rs.limits.filter fun e => decide (b + 1 < e.1 + st.parts.length) && decide (e.1 ≤ b)).map fun e => (e.2 : Int)).take 3

/-- *spent* as the ledger counts it at the band after b (R145). -/
def spentBefore (st : Stream) (rs : RateState) (b : Nat) : Nat :=
  total ((rs.costs.filter fun e => decide (e.1 + max 1 st.parts.length ≤ b + 1)).map fun e => e.2)

/-- DISOCC fractions by superblock row in 1/255, truncated: of the present picture as far as its bands are dispatched, else of the one
before. -/
def disoccRows (st : Stream) (rs : RateState) : List Int :=
  (List.range st.cfg.hsb).map fun row =>
    let band := ((List.range st.cfg.bands).find? fun b => decide (row < st.cfg.firstRow b + st.cfg.rowsOf b)).getD 0
    let p := if band < rs.disocc.length then rs.disocc.getD band (0, 0) else rs.disoccPrev.getD band (0, 0)
    if p.2 = 0 then 0 else ((p.1 * 255 / p.2 : Nat) : Int)

/-- The sums for κ over the picture's bands so far (R143). -/
def kappaSums (p : PicStats) : List Int :=
  let l := p.bands.filter fun e => e.2.normal
  [((total (l.map fun e => mulP e.2.cost ((e.2.q : Int) - 32)) : Nat) : Int), ((total (l.map fun e => e.2.weight) : Nat) : Int)]

/-- The statistics of a picture in progress. -/
def picStatsOf (st : Stream) (frame : Nat) : PicStats :=
  ((st.pic :: st.prevPics.map fun p => p.1).find? fun p => p.frame == frame).getD st.pic

/-- The rate state of an image. DESIGN CHOICE (notes/assumptions/92.md): bit 2 of the flags is set where the hints of any band of the previous
picture were admitted. -/
def rateBytes (st : Stream) (i : Image) : List Byte :=
  let rs := i.rate
  let flags := rs.key.toNat + 2 * rs.dry.toNat + 4 * (rs.disoccPrev.any fun p => p.2 != 0).toNat
  leBytes 8 rs.d ++ leBytes 8 rs.frac ++ leBytes 8 rs.v ++ leBytes 4 rs.frame ++ leBytes 2 (i.b + 1 : Nat) ++ leBytes 1 flags ++ [0]
    ++ leBytes 8 rs.cap ++ leBytes 8 rs.tgt ++ leBytes 8 (spentBefore st rs i.b) ++ fields 8 3 (heldLimits st rs i.b)
    ++ fields 8 2 (kappaSums (picStatsOf st rs.frame)) ++ leBytes 4 rs.cIntra ++ fields 4 128 ((List.range st.cfg.hsb).map fun r => (rowForecast st rs r : Int))
    ++ fields 1 128 (disoccRows st rs) ++ sized 64 (Config.stagedBytes (i.staged.filter fun x => x.kind != 5)) ++ sized 28 []

/-! ### The reference state (R189) -/

def slotOf (r : RefState) (k : Nat) : Option RefPic := r.store.find? fun y => y.slot == k

def kindCode (k : RefKind) : Nat := match k with | .normal => 0 | .recovery => 1 | .key => 2

def refBytes (i : Image) : List Byte :=
  let r := i.ref
  fields 4 8 ((List.range 8).map fun k => (((slotOf r k).map fun y => (y.frame : Int)).getD 0))
    ++ fields 1 8 ((List.range 8).map fun k => ((((slotOf r k).map fun y =>
        1 + 2 * y.anchor.toNat + 4 * y.barred.toNat + 8 * y.key.toNat).getD 0 : Nat) : Int))
    ++ leBytes 4 (r.decided.getD 0 : Nat) ++ leBytes 1 (kindCode r.kind) ++ leBytes 1 (r.firstSlot.getD 255 : Nat) ++ leBytes 1 (r.secondSlot.getD 255 : Nat)
    ++ leBytes 1 ((r.wave.map fun w => w.1).getD 255 : Nat) ++ leBytes 8 (r.lastKeyAt.getD 0 : Nat) ++ leBytes 8 (r.lastWaveAt.getD 0 : Nat)
    ++ leBytes 1 ((r.keyReq || r.keyForced).toNat + 2 * r.refreshReq.toNat) ++ sized 15 []
    ++ sized 16 (Config.stagedBytes (i.staged.filter fun x => x.kind == 5)) ++ sized 32 []

/-! ### The image (R227) -/

def bandBytes (i : Image) : List Byte :=
  leBytes 4 i.seq ++ leBytes 4 i.nextSeq ++ leBytes 4 i.picSeq ++ leBytes 4 i.frame ++ leBytes 2 i.b
    ++ leBytes 1 (i.rep.toNat + 2 * i.vein.toNat + 4 * i.resend.toNat + 8 * i.lost.toNat) ++ leBytes 1 i.part ++ leBytes 4 i.charge
    ++ bytesLE i.veinPos ++ leBytes 8 i.time ++ sized 532 []

/-- The 1,536 bytes of an image, its CRC-32C last. -/
def imageBytes (st : Stream) (i : Image) : List Byte :=
  let bs := sized 0x5FC (rateBytes st i ++ refBytes i ++ bandBytes i)
  bs ++ leBytes 4 (crc32c bs)

/-! ### The acknowledgement table, the groups, and the counters (R162, R175, R190, R252) -/

def ackBytes (e : AckEntry) : List Byte :=
  leBytes 4 e.frame ++ leBytes 4 e.firstSeq ++ leBytes 4 e.lastSeq
    ++ leBytes 4 (e.confirmed.toNat + 2 * e.barred.toNat + 4 * e.key.toNat + 8 * e.recovery.toNat + 16 * e.gap.toNat)
    ++ fields 2 8 (e.required.map fun (v : Nat) => (v : Int)) ++ fields 2 8 (e.acked.map fun (v : Nat) => (v : Int))

def groupBytes (d : Dev) (n g : Nat) : List Byte :=
  let mine := (recipsOf d n).filter fun r => (d.recip r).group == g
  let r := (d.stream n).ref
  leBytes 2 (mine.filter fun r => (d.recip r).marked).length ++ leBytes 2 (mine.filter fun r => (d.recip r).reports).length
    ++ leBytes 4 ((groups r.lostFrom none).getD g none |>.getD 0 : Nat) ++ leBytes 1 ((groups r.pending false).getD g false).toNat ++ sized 7 []

def tableBytes (d : Dev) (n : Nat) : List Byte :=
  sized 0x600 ((d.stream n).ref.table.flatMap ackBytes) ++ (List.range 8).flatMap (groupBytes d n)

def counterBytes (st : Stream) : List Byte :=
  let words := ((List.range 9).map fun k => st.rateCnt.get 0 (k + 1)) ++ ((List.range 9).map fun k => st.refCnt.get 0 (k + 1))
    ++ (List.range 5).map fun k => st.availCnt.get 0 (k + 4)
  sized 512 (words.flatMap bytesLE)

def verifiedWord (st : Stream) : Word := match st.verified with | some q => word (q % two32 * 2 ^ 32 + 1) | none => 0

/-! ### Writing the stream record (R228, R229, R248, R445) -/

/-- Writes bytes into both copies of a stream's record. -/
def storeBoth (s : State) (n at_ : Nat) (bs : List Byte) : State :=
  (s.store (0xEE0000000 + 0x8000 * n + at_) bs).store (0xEF0000000 + 0x8000 * n + at_) bs

/-- The frame-start rate state and the reference decision of a stream, as an image holds them. -/
def startBytes (st : Stream) (seq : Nat) : List Byte :=
  let i : Image := { seq := seq, nextSeq := 0, picSeq := 0, frame := 0, b := 0, rate := st.rate, ref := st.ref, staged := st.staged }
  rateBytes st i ++ refBytes i

/-- The frame-start rate state and the reference decision in the image slot of the band that took them, before its close writes its image
(R248). -/
def storeStart (s : State) (n seq : Nat) : State :=
  { s with mem := (storeBoth s n (seq % 8 * 0x600) (startBytes (s.dev.stream n) seq)).mem }

/-- The images of stream n that have changed since `was`. -/
def syncImages (was : Stream) (s : State) (n : Nat) : State :=
  each ((s.dev.stream n).images.filter fun i => !was.images.contains i) s fun s i =>
    storeBoth s n (i.seq % 8 * 0x600) (imageBytes (s.dev.stream n) i)

/-- VERIFIED of stream n, where it has changed since `was`. -/
def syncVerified (was : Stream) (s : State) (n : Nat) : State :=
  if (s.dev.stream n).verified = was.verified then s else storeBoth s n 0x3000 (bytesLE (verifiedWord (s.dev.stream n)))

/-- The table and the group state, and the counters, of a stream where they have changed since `old`. -/
def syncTable (old : Dev) (s : State) (n : Nat) : State :=
  let t := if tableBytes s.dev n = tableBytes old n then s else storeBoth s n 0x3800 (tableBytes s.dev n)
  if counterBytes (s.dev.stream n) = counterBytes (old.stream n) then t else storeBoth t n 0x4000 (counterBytes (s.dev.stream n))

/-- The checkpoint of a stream that has become FREE is cleared in both copies: its images, VERIFIED and the table (R34). -/
def clearRecord (was : Stream) (s : State) (n : Nat) : State :=
  let s := each was.images s fun s i => storeBoth s n (i.seq % 8 * 0x600) (List.replicate 0x600 0)
  storeBoth (storeBoth s n 0x3000 (List.replicate 8 0)) n 0x3800 (List.replicate 0x680 0)

/-- Brings the record of stream n up to date with what has changed since `old`. -/
def syncRecord (old : Dev) (s : State) (n : Nat) : State :=
  if (s.dev.stream n).phase == .free && (old.stream n).phase != .free then clearRecord (old.stream n) s n
  else syncTable old (syncVerified (old.stream n) (syncImages (old.stream n) s n) n) n

/-- The streams that have a record before or after a change. -/
def recordsOf (old new : Dev) : List Nat := uniq (old.streams.map (fun e => e.1) ++ new.streams.map fun e => e.1)

/-- Brings the records of all streams up to date: device memory alone changes. -/
def syncRecords (old : Dev) (s : State) : State := { s with mem := (each (recordsOf old s.dev) s (syncRecord old)).mem }

/-- A change of the device with the stream records that it moves on. -/
def keepRecords (f : State → State) (s : State) : State := syncRecords s.dev (f s)

end Sys2Proof.Machine
end

