-- ==== Sys2Proof/Machine/Pipeline.lean ====
section
/-! DEFINITION. The Galleries: candidates, dispatch, coding, commit, close (R51 to R54, R69, R81, R90, R91, R100 to R105,
R145 to R155, R203, R204, R227 to R231, R247 to R249, R345 to R351). -/

namespace Sys2Proof.Machine

/-! ### Candidates (R51, R204, R231, R247) -/

/-- The oldest band of a part that waits or is in progress: a later one is no candidate until its occupancy has ended (R51, R52,
R90). -/
def oldestOf (st : Stream) (p : Nat) : Option Band :=
  st.bands.find? fun b => b.part == p && (b.stage == .waiting || b.stage == .coding)

/-- Bands dispatched, or closed without a verdict (R231). -/
def provisional (st : Stream) : Nat := (st.bands.filter fun b => b.stage != .waiting && !b.verified).length

/-- Every earlier coded picture that is not barred has passed whole (R204). -/
def earlierPassed (st : Stream) (frame : Nat) : Bool :=
  st.unpassed.all fun e => e.1 == frame || e.2 == 0 || st.ref.table.any fun x => x.frame == e.1 && x.barred

/-- The decision of a picture has been taken. -/
def decided (st : Stream) (frame : Nat) : Bool := (decisionOf st frame).isSome

/-- Every band of the pictures that a decision names has a PASS (R204). -/
def refsPassed (st : Stream) (x : PicDecision) : Bool :=
  (x.first.toList ++ x.second.toList).all fun f => st.unpassed.get 0 f == 0

/-- A band has been dispatched on the Gallery that now codes its part: one that waits there for its re-encode has, one that waits on
another Gallery after a failover has not (R203, R247, R250). -/
def dispatchedHere (st : Stream) (x : Band) : Bool :=
  x.stage != .waiting || x.resend && ((st.parts[x.part]?).map fun q => q.gal) == some x.gal

/-- The order of dispatch inside the picture of a split stream (R247). -/
def splitReady (st : Stream) (b : Band) : Bool :=
  let k := st.parts.length
  decide (k ≤ 1) || st.bands.all fun x => x.frame != b.frame || (decide (b.b ≤ x.b) || dispatchedHere st x) &&
    (x.b + k != b.b || x.stage == .closed)

/-- A waiting band may be dispatched. -/
def isCandidate (st : Stream) (b : Band) : Bool :=
  b.stage == .waiting && !st.arming && decide (provisional st < 7) && splitReady st b
    && (match decisionOf st b.frame with | some x => refsPassed st x | none => earlierPassed st b.frame)

/-- Band x goes before band y: deadline, eligible time, stream, band. -/
def before (x y : Nat × Band) : Bool :=
  if x.2.deadline ≠ y.2.deadline then decide (x.2.deadline < y.2.deadline)
  else if x.2.eligibleAt ≠ y.2.eligibleAt then decide (x.2.eligibleAt < y.2.eligibleAt)
  else if x.1 ≠ y.1 then decide (x.1 < y.1)
  else decide (x.2.b < y.2.b)

/-- A part that a supply warning moved away from a Gallery in service codes no band before the last verdict there: its state is loaded
after it (R498). -/
def verdictDue (d : Dev) (st : Stream) (b : Band) : Bool :=
  st.bands.any fun x => x.part == b.part && x.stage != .waiting && !x.verified && !retired d x.gal &&
    ((st.parts[x.part]?).map fun q => q.gal) != some x.gal

/-- The candidates of Gallery g. -/
def candidates (d : Dev) (g : Nat) : List (Nat × Band) :=
  (d.streams.map fun e =>
    ((List.range e.2.parts.length).filter fun p => ((e.2.parts[p]?).map fun q => q.gal) == some g).filterMap fun p =>
      (oldestOf e.2 p).bind fun b => if isCandidate e.2 b && !verdictDue d e.2 b then some (e.1, b) else none).flatten

/-- The candidate that R51 picks. -/
def pickBand (d : Dev) (g : Nat) : Option (Nat × Band) :=
  (candidates d g).foldl (fun best x => match best with | none => some x | some y => if before x y then some x else some y) none

/-- Gallery g is free to dispatch; a held one waits for the supply warning to end (R497, R498). -/
def galFree (d : Dev) (g : Nat) : Bool :=
  !retired d g && (d.gal g).cur.isNone && !(admitHold d g && supplyWarning d) && decide ((d.gal g).busyUntil ≤ d.now)

/-! ### The start of a picture (R166, R181, R248) -/

/-- The costs and the limits of the bands of b's picture before it that are still in hand. -/
def earlierCosts (st : Stream) (b : Band) : Tab Nat :=
  (st.bands.filter fun x => x.frame == b.frame && decide (x.b < b.b)).foldl (fun t x => t.set 0 x.b (x.charge.getD 0)) []
def earlierLimits (st : Stream) (b : Band) : Tab Nat :=
  (st.bands.filter fun x => x.frame == b.frame && decide (x.b < b.b)).foldl (fun t x => t.set 0 x.b x.limit) []

/-- The rate state that a band is coded again from: that of the image of the band before it in the picture (R160, R202, R248). Band 0
has the frame-start state of the picture. Where the band before it has no image yet, which only a split stream or a discarded band before
it allows, the working state of the picture holds the same costs and limits (R145), or, for a picture before the one in progress, the
frame-start state with those of its bands in hand. -/
def resendRate (st : Stream) (b : Band) : RateState :=
  match st.images.find? fun i => seqAdd i.seq 1 == b.seq && i.frame == b.frame with
  | some i => i.rate
  | none =>
    let start := ((decisionOf st b.frame).map fun x => x.start).getD st.rate
    if b.b = 0 then start
    else if st.rate.frame = b.frame then st.rate
    else { start with costs := earlierCosts st b, limits := earlierLimits st b }

/-- What the headers of a picture take (R119). -/
def headerInfo (st : Stream) (frame : Nat) : HdrInfo := { c := st.cfg, x := (decisionOf st frame).getD { frame := frame } }

/-- The decision of a picture as its headers and its re-encodes need it; `start` is its rate state as far as it is known. -/
def newDecision (st : Stream) (frame : Nat) (start : RateState) : PicDecision :=
  { frame := frame, kind := st.ref.kind, first := st.ref.first, second := st.ref.second, start := start, store := st.ref.store
    num := st.ref.num, keys := st.ref.keys, keyFrame := st.ref.lastKeyFrame, params := st.params, firstPicture := st.recs.isEmpty
    wave := st.ref.wave, slot := ((st.ref.claims.find? fun c => c.1 == frame).map fun c => c.2).getD 0 }

/-- The stream as a picture begins: `carried` is the rate state carried to it. What its headers signal of the store has been told. A picture
before it that has not ended keeps its own report and rate state (R143, R161). -/
def startPicture (st : Stream) (carried : RateState) (b : Band) (under : Bool) : Stream :=
  let x := landStaged st b.frame
  let fresh := !st.rate.started || x.setLanded == some b.frame
  let start := beginPicture x carried b.frame (x.ref.kind == .key) fresh []
  let start := { start with laterHdr := laterHdrOf x.cfg ({ c := x.cfg, x := newDecision x b.frame start : HdrInfo }.counted 0) }
  beginRec { x with
    rate := start
    ref := { x.ref with store := x.ref.store.map fun y => { y with told := true } }
    decisions := newDecision x b.frame start :: x.decisions.filter fun q => x.bands.any fun y => y.frame == q.frame
    unpassed := Tab.set (x.unpassed.filter fun e => !(x.ref.table.any fun t => t.frame == e.1 && t.barred)) 0 b.frame x.cfg.bands
    prevPics := if x.pic.going then (x.pic, x.rate) :: x.prevPics else x.prevPics
    pic := { frame := b.frame, framePtp := b.framePtp, undershotPrev := under, going := true } } b.frame

/-- The cost of a band whose superblocks are all coded: 8 times its bytes, those of the larger variant of a Vein band (R150). -/
def codedCost (st : Stream) (b : Band) : Nat :=
  8 * max (variantBytes st b 0).length (if b.vein then (variantBytes st b 2).length else 0)

/-- The costs of a picture's bands where those that have left the front and wait for their commit count too: R135 and R145 count the cost of
every band before, R150 charges it at its commit, and R52 lets the next band, and the next picture after a barred one, begin in between
(DESIGN CHOICE, notes/assumptions/75.md). A band still in the front counts at its limit, as R145 counts those of other parts. -/
def drainingCosts (st : Stream) (frame : Nat) (costs : Tab Nat) : Tab Nat :=
  (st.bands.filter fun x => x.frame == frame && x.charge.isNone && (x.stage == .draining || x.stage == .coding)).foldl
    (fun t x => t.set 0 x.b (if x.stage == .draining then codedCost st x else x.limit)) costs

/-- The decision and the landing of staged commands, at the first band of a picture to be dispatched: D, frac and V are carried with
the parameters of the previous picture, then the staged commands land, then the picture begins (R135, R166, R181). -/
def firstOfPicture (d : Dev) (n : Nat) (b : Band) : Dev :=
  let st := d.stream n
  let before := { st.rate with costs := drainingCosts st st.rate.frame st.rate.costs }
  let under := undershot st before b.frame
  let d := if under then raise (rateErr d n 7 1) (4 * n + 2) 5 else d
  let first := (b.seq + two32 - b.b) % two32
  let d := decideRefs d n b.frame first (seqAdd first (st.cfg.bands - 1))
  let carried := carry (d.stream n) before b.frame
  d.onStream n fun x => startPicture x carried b under

/-- Changes the decision of a picture. -/
def onDecision (st : Stream) (frame : Nat) (f : PicDecision → PicDecision) : Stream :=
  { st with decisions := st.decisions.map fun x => if x.frame = frame then f x else x }

/-- Records the frame-start state of a picture in its decision (R248). -/
def setStart (st : Stream) (frame : Nat) (rs : RateState) : Stream := onDecision st frame fun x => { x with start := rs }

/-- Records the base quantiser of band 0, which AV1 headers carry (R127). -/
def setPictureBase (st : Stream) (frame q : Nat) : Stream := onDecision st frame fun x => { x with q := q }

/-! ### Vein at dispatch (R345, R347, R349) -/

/-- The loads of the parts for a stream load (R25). -/
def setLoads (d : Dev) (n load : Nat) : Dev :=
  d.onStream n fun st =>
    let ls := partLoads load st.cfg.bands st.parts.length
    { st with load := load, parts := (st.parts.zip ls).map fun x => { x.1 with load := x.2 } }

/-- The configuration in force governs every band that can still be dispatched, and the resumption of R364 lies behind: both are
forgotten 2^16 bands later, far past any band that is coded again, so that no comparison of SEQ wraps. -/
def veinSlide (st : Stream) (seq : Nat) : Stream :=
  let past := fun from_ => inRange (seqAhead from_ seq) 65536 (2 ^ 31 - 1)
  let st := if past st.veinFrom then { st with veinFrom := seq, veinPrev := st.vein } else st
  if (st.veinResume.map past) = some true then { st with veinNoKey := false, veinResume := none } else st

/-- A VEIN.CONFIG lands at a SEQ that is a multiple of 64; a lowered load is released. -/
def veinLand (d : Dev) (n seq : Nat) : Dev :=
  match (d.stream n).veinNext with
  | none => d.onStream n fun st => veinSlide st seq
  | some (v, load) =>
    if seq % 64 ≠ 0 then d.onStream n fun st => veinSlide st seq
    else
      let noKey := v.en && (d.key v.slot).kind != 3
      let d := if noKey && !(d.stream n).veinNoKey then raise d 1266 1 n else d
      setLoads (d.onStream n fun st => { st with
        vein := v, veinPrev := st.vein, veinFrom := seq, veinNext := none, veinWord := 0, veinNoKey := noKey, veinResume := none }) n load

/-- After an erasure no band is scheduled before the period at which scheduling resumes (R364). -/
def veinHeld (st : Stream) (seq : Nat) : Bool :=
  st.veinNoKey && (match st.veinResume with | none => true | some r => decide (2 ^ 31 ≤ seqAhead r seq))

/-- The Vein schedule names this band, and its key is loaded. -/
def veinScheduled (d : Dev) (st : Stream) (seq : Nat) : Bool :=
  let v := veinAt st seq
  v.en && !veinHeld st seq && (d.key v.slot).kind == 3 && seq % 2 ^ v.f == byteO (veinO d v (seq / 2 ^ v.f)) 0 % 2 ^ v.f

/-! ### The header sequencer (R92 to R98) -/

/-- The band is band 0 of a picture as the sequencer sees it: the first one of its picture. -/
def routinesOf (b : Band) : List Routine := if b.b = 0 then (if b.key then [.seq, .pic, .band] else [.pic, .band]) else [.band]

/-- The routines that are not done on Gallery g, in the order in which the one sequencer runs them: a BAND routine that waits to
commit its band goes before those of the next band (R98). -/
def routinesOn (d : Dev) (g : Nat) : List (Routine × Nat × Nat) :=
  let x := d.gal g
  let open_ := x.closing.filterMap fun c => (bandAt (d.stream c.1) c.2).bind fun b =>
    if b.stage == .draining then some (Routine.band, c.1, c.2) else none
  let cur := match x.cur with
    | some c => ((bandAt (d.stream c.1) c.2).map fun b => ((routinesOf b).drop b.routinesDone).map fun r => (r, c.1, c.2)).getD []
    | none => []
  open_ ++ cur

/-- The band whose header routine runs on Gallery g. -/
def runningBand (d : Dev) (g : Nat) : Option (Nat × Band) :=
  (routinesOn d g).head?.bind fun r => (bandAt (d.stream r.2.1) r.2.2).map fun b => (r.2.1, b)

/-- Microwords that a run executes at most before its watchdog fails: WDOG (R97). -/
def wdogLimit (d : Dev) (g : Nat) : Nat := regFld d (rGal g oUcCtrl) 31 0

/-- The time of n microwords, one for each core clock of 0.625 ns (R92). -/
def microwordNs (n : Nat) : Nat := ceilDiv (5 * n) 8

/-- Addresses of the ROM; patch RAM addresses follow them. -/
def romWords : Nat := 16384

/-- The patch RAM address to which the match registers of Gallery g redirect a ROM address: that of the lowest-numbered enabled register
that holds it (R93). -/
def redirected (d : Dev) (g a : Nat) : Option Nat :=
  if !regBit d (rGal g oUcCtrl) 63 then none
  else
    ((List.range 32).find? fun m =>
      regBit d (rGal g (0x400 + 8 * m)) 63 && regFld d (rGal g (0x400 + 8 * m)) 45 32 == a).map fun m => regFld d (rGal g (0x400 + 8 * m)) 9 0

/-- The microword that Gallery g fetches at an address: from the patch RAM where the address lies there or is redirected, else from the ROM
(R92, R93). -/
def fetched (d : Dev) (g a : Nat) : BitVec 128 :=
  let patched := fun (k : Nat) => BitVec.ofNat 128 ((d.gal g).patch.getD k 0)
  if romWords ≤ a then patched (a - romWords)
  else match redirected d g a with
    | some k => patched k
    | none => Config.microcode a

/-- The address after n microwords from an address: each is executed and names the next. -/
def addressAfter (d : Dev) (g : Nat) : Nat → Nat → Nat
  | 0, a => a
  | n + 1, a => addressAfter d g n (Config.nextAddress (fetched d g a) a)

/-- The entry of a routine. -/
def entryOf (r : Routine) : Nat := (Config.routineEntry (match r with | .seq => 0 | .pic => 1 | .band => 2)).val

/-- Core clocks of 1.6 GHz since reset. -/
def coreClock (d : Dev) : Nat := d.now * 8 / 5

/-- Executes at most n microwords from an address: the address then, whether the last microword of the routine was among them, and how many
were executed. One that waits for a stage executes no further. -/
def microRun (d : Dev) (g : Nat) : Nat → Nat → Nat × Bool × Nat
  | 0, a => (a, false, 0)
  | n + 1, a =>
    let w := fetched d g a
    match (Config.microwordKind w).val with
    | 0 =>
      let r := microRun d g n (Config.nextAddress w a)
      (r.1, r.2.1, r.2.2 + 1)
    | 1 => (a, false, 0)
    | _ => (a, true, 1)

/-- The routine at the head of Gallery g begins a run at its entry. -/
def startRoutine (d : Dev) (g : Nat) : Dev :=
  match (routinesOn d g).head? with
  | none => d
  | some r => (onBand d r.2.1 r.2.2 fun b => { b with runAt := d.now }).onGal g fun x =>
      { x with uc := entryOf r.1, ucRun := 0, ucClock := coreClock d }

/-- After a change of what runs on Gallery g, where `was` ran first: another routine now first begins. -/
def reseat (d : Dev) (g : Nat) (was : Option (Routine × Nat × Nat)) : Dev :=
  if (routinesOn d g).head? = was then d else startRoutine d g

/-- The sequencer executes one microword for each core clock that has passed, no further than its watchdog lets the run go; the end of a SEQ
or PIC routine begins the next one, and a BAND routine ends with its commit. -/
def runSequencer (d : Dev) (g : Nat) : Dev :=
  (List.range 3).foldl (fun d _ =>
    match (routinesOn d g).head? with
    | none => d
    | some r =>
      let x := d.gal g
      let left := coreClock d - x.ucClock
      let m := microRun d g (min left (wdogLimit d g - x.ucRun)) x.uc
      let done := m.2.1 && r.1 != .band
      let d := d.onGal g fun x => { x with uc := m.1, ucRun := x.ucRun + m.2.2, ucClock := x.ucClock + (if done then m.2.2 else left) }
      if !done then d
      else
        let clock := (d.gal g).ucClock
        let d := startRoutine (onBand d r.2.1 r.2.2 fun b => { b with routinesDone := b.routinesDone + 1 }) g
        d.onGal g fun x => { x with ucClock := clock }) d

/-! ### Dispatch -/

/-- Time per superblock: repeat, dry and missing-row bands 0.25 µs, Vein 5.4 µs, plain 4.0 µs (R52, R91). -/
def sbTime (b : Band) : Nat := if allSkip b then 250 else if b.vein then 5400 else 4000

/-- The address of a pipeline counter of the slot of a band's part. -/
def slotCounter (d : Dev) (n : Nat) (b : Band) (off : Nat → Nat) : Nat :=
  rGal b.gal (off ((((d.stream n).parts[b.part]?).map fun q => q.slot).getD 0))

/-- Hints of the band at its dispatch: admitted, or counted stale; words with reserved bits counted. DESIGN CHOICE
(notes/assumptions/73.md): a band coded for missing rows reads no hints, as a repeat band does (R154), and counts none stale or
bad. -/
def readHints (s : State) (d : Dev) (n : Nat) (b : Band) : Dev × Bool × List Word :=
  let st := d.stream n
  if !st.cfg.hints || b.rep || b.missing then (d, false, [])
  else if !hintsAdmitted s st b.frame b.b then
    (raise (incErr d (slotCounter d n b oHintStale)) (4 * n + 2) 1, false, [])
  else
    let ws := hintWords s st b.frame b.b
    let bad := (ws.filter hintBad).length
    let d := if bad = 0 then d else raise (incErrBy d (slotCounter d n b oHintBad) bad) (4 * n + 2) 2
    (d, true, ws)

/-- The QP map of the band at its dispatch: its entries, unusable maps and bad entries counted (R158). DESIGN CHOICE
(notes/assumptions/74.md): a band that is coded again is tested again. -/
def readMap (s : State) (d : Dev) (n : Nat) (b : Band) : Dev × List Int :=
  let st := d.stream n
  let k := st.cfg.sbIndex b.b 0
  let es := mapEntries s st b.frame k b.n
  let d :=
    if !st.map.en then d
    else if !mapUsable s st b.frame then raise (rateErr d n 9 1) (4 * n + 2) 6
    else if (List.range b.n).any fun i => !mapEntryOk (mapRaw s st b.frame (k + i)) then raise d (4 * n + 2) 7
    else d
  (d, es)

/-- A list with element i set, grown with zeros. -/
def putAt (l : List (Nat × Nat)) (i : Nat) (v : Nat × Nat) : List (Nat × Nat) :=
  (l ++ List.replicate (i + 1 - l.length) (0, 0)).set i v

/-- The item that a band's dispatch puts into the FIFO: words 0 and 1 of its head entry, not yet VALID (R100, R101). -/
def openItem (n : Nat) (b : Band) : FifoItem :=
  { stream := n, b := b.b, seq := b.seq, frame := b.frame, variant := b.sched.toNat, valid := false, resend := b.resend
    rep := allSkip b, key := b.key, last := b.last, digest4 := b.digest4, epoch := b.epoch, framePtp := b.framePtp, pre := b.pre }

/-- A band as its dispatch leaves it before its quantiser is known: on its Gallery, nothing coded. -/
def freshBand (d : Dev) (g : Nat) (b : Band) (overdue missing : Bool) : Band :=
  { b with
    rep := b.rep || overdue, missing := missing, host := b.host || missing, stage := .coding, gal := g, startAt := d.now
    digest4 := if b.resend then b.digest4 else regFld d (rFleetDigest 0) 63 32
    epoch := if b.resend then b.epoch else regFld d rFleetStatus 63 48
    tableSet := if b.resend then b.tableSet else regFld d rFleetStatus 2 0
    sbDone := 0, bits0 := 0, bits1 := 0, variants := 0, guarded := 0, sbCap := 0, abandons := 0, runAt := d.now, routinesDone := 0
    coded0 := [], coded1 := [], steps := [], sums := [], crc0 := [], crc1 := [], edge0 := 0, edge1 := 0
    roiBreach := 0, hintWon := 0, dropped := false, vein := false, verdict := none
    accounted := b.accounted || overdue }

/-- The headers of a band, once its base quantiser q is known (R96, R119, R127). -/
def withHeaders (i : HdrInfo) (b : Band) (q : Nat) : Band :=
  let items := i.items b.b q
  let sizes := items.map List.length
  { b with base := q, hdr := items, hdrBytes := total sizes, pre := sizes.dropLast }

/-- The search areas of a band are read into the reference cache, for each reference that it may use (R88). -/
def prefetch (d : Dev) (g n : Nat) (b : Band) (echo : Bool) : Dev :=
  match decisionOf (d.stream n) b.frame with
  | some x => each (x.first.toList ++ x.second.toList) d fun d f => readThrough d g n f b.b echo
  | none => d

/-- What Rimstone sets for a band at its dispatch (R138, R145 to R151): the rate state with its frame target, the ledger, whether the picture
goes dry, the quantiser, the limit, and the base quantiser of its headers. -/
structure Plan where
  rs : RateState
  goesDry : Bool
  q : Nat
  limit : Nat
  base : Nat
deriving DecidableEq, Repr

/-- The plan of a band with given sizes of its header items; `share` stands for the weighted share where every weight is 0. -/
def planWith (st : Stream) (rs : RateState) (m : Nat × Nat) (map : List Int) (b : Band) (start : Bool) (share : Nat) (hdr : List Nat) : Plan :=
  let rs := if start then { rs with tgt := targetOf st rs m hdr } else rs
  let l := ledgerOf st { rs with costs := drainingCosts st b.frame rs.costs } hdr b.b
  let a := allotment st rs l m b.b share
  let q := bandQ st rs m b.b a
  { rs := rs, goesDry := !rs.dry && dryTest st l b.b, q := q, limit := (if b.resend then b.charge else none).getD (limitOf st l a)
    base := sbQ st map (st.cfg.sbIndex b.b 0) 0 q }

/-- The plan of a band: its own header bytes count as they are, and their number may follow the quantiser that the plan gives it. The lowest
quantiser whose headers give it back is the plan's; where there is none, the most bytes that any gives count (R575; DESIGN CHOICE,
notes/assumptions/84.md). -/
def planOf (st : Stream) (rs : RateState) (m : Nat × Nat) (map : List Int) (b : Band) (start : Bool) (share : Nat) : Plan :=
  let i := headerInfo st b.frame
  let at_ := planWith st rs m map b start share
  match (List.range 52).find? fun q => (at_ (i.sizes b.b q)).base == q with
  | some q => at_ (i.sizes b.b q)
  | none => at_ (i.counted b.b)

/-- The bytes that a band has written so far: its headers, sizes not yet filled in, and its data. -/
def partBytes (st : Stream) (b : Band) : List Byte := b.hdr.flatten ++ (writtenTiles (formOf st b) b.coded0 false).flatten

/-- Dispatches a band of stream n on Gallery g. -/
def dispatchBand (s : State) (g n : Nat) (b : Band) : Dev :=
  let d := s.dev
  let st := d.stream n
  -- R54: still waiting one frame time after its deadline
  let overdue := !b.rep && decide (b.deadline + st.cfg.frameNs ≤ d.now)
  let d := if overdue then account (raise (incErr d (rLan n oLanRepeat)) (4 * n + 1) 2) n b.seq false false else d
  let missing := !b.rep && !overdue && bandMissing d n b.frame b.b
  let b := freshBand d g b overdue missing
  -- the picture and the rate state the band starts from
  let d := if b.resend then d else veinLand d n b.seq
  let start := !decided st b.frame
  let live := (d.stream n).rate
  let d := if start then firstOfPicture d n b else d
  let rs := if start then (d.stream n).rate else if b.resend || live.frame != b.frame then resendRate (d.stream n) b else live
  let h := readHints s d n b
  let p := readMap s h.1 n b
  let d := p.1
  let rs := { rs with disocc := putAt rs.disocc b.b (disoccOf h.2.2) }
  let st := d.stream n
  let m := mHere st rs p.2 b.b
  let share := if noWeight st rs m b.b then draw d else (0, d)
  let d := share.2
  let plan := planOf st rs m p.2 b start share.1.toNat
  let rs := plan.rs
  let d := if start then d.onStream n fun x => setStart x b.frame rs else d
  -- the dry test
  let dry := rs.dry || plan.goesDry
  let d := if plan.goesDry && !b.resend then
      (raise (rateErr d n 3 1) (4 * n + 2) 4).onStream n fun x => { x with pic := { x.pic with firstDry := some b.b } } else d
  let d := if start then d.onStream n fun x => setPictureBase x b.frame plan.base else d
  let b := withHeaders (headerInfo (d.stream n) b.frame) { b with
    key := rs.key, dry := dry, hintsUsed := h.2.1, hints := h.2.2, q := plan.q, est := estOf st rs m b.b plan.q, mapEntries := p.2
    weight := estOf st rs m b.b 32, mNum := m.1, mDen := m.2, limit := plan.limit } plan.base
  let b := { b with sched := !rs.key && !allSkip b && veinScheduled d st b.seq }
  -- the working state goes on; what other parts have charged and set in this picture stays; the state of a later picture stays
  let older := !start && live.frame != b.frame
  let same := b.resend && live.frame == b.frame
  let rs := { rs with
    dry := dry || (same && live.dry && decide (1 < st.parts.length))
    costs := if same then live.costs else rs.costs
    limits := (if same then live.limits else rs.limits).set 0 b.b plan.limit }
  let d := if older then d else d.onStream n fun x => { x with rate := rs }
  let d := onRec d n b.frame fun r => clearBand (d.stream n).cfg b r
  let d := prefetch (onBand d n b.seq fun _ => b) g n b false
  let first := (routinesOn d g).head?
  reseat (d.onGal g fun x => { x with cur := some (n, b.seq), fifo := x.fifo ++ [openItem n b] }) g first

/-! ### The output FIFO (R99 to R105) -/

/-- Entries of the FIFO: 32 MiB of 64 bytes. -/
def fifoEntries : Nat := 524288

/-- Entries of a band's bitstream with its head entry. -/
def entriesOf (len : Nat) : Nat := 1 + ceilDiv len 64

/-- Entries of an item that is committed, or of a marker. -/
def itemEntries (it : FifoItem) : Nat := if it.count ≠ 0 then 1 else entriesOf it.len

/-- The item is that of a band. -/
def FifoItem.isOf (it : FifoItem) (n seq : Nat) : Bool := it.stream == n && it.seq == seq && it.count == 0

/-- When the entropy coder of a band is flushed (R90). -/
def flushedAt (b : Band) : Nat := b.closeAt - 3500

/-- The bytes that a variant of a band has written so far: all of them once its entropy coder is flushed. -/
def writtenBytes (d : Dev) (n : Nat) (b : Band) (variant : Nat) : Nat :=
  if b.stage == .draining && decide (flushedAt b ≤ d.now) then (variantBytes (d.stream n) b variant).length
  else b.hdrBytes + (if variant = 2 then b.bits1 else b.bits0) / 8

/-- Entries that an item takes now: what has been written of a band not yet committed, both variants of one that the Vein
schedule selects. -/
def entriesNow (d : Dev) (it : FifoItem) : Nat :=
  if it.valid then itemEntries it
  else match bandAt (d.stream it.stream) it.seq with
    | some b => entriesOf (writtenBytes d it.stream b 0) + (if b.sched then entriesOf (writtenBytes d it.stream b 2) else 0)
    | none => 1

/-- Entries in use, the bands still being written included. -/
def fifoUsed (d : Dev) (g : Nat) : Nat := total ((d.gal g).fifo.map (entriesNow d))

/-- FILL of `GAL_FIFO_STATUS`: entries in use, which are at most all of them. -/
def fifoFill (d : Dev) (g : Nat) : Nat := min fifoEntries (fifoUsed d g)

/-- The reader finds a committed head entry (R101). -/
def Gal.readable (x : Gal) : Bool := match x.fifo with | it :: _ => it.valid | [] => false

/-- The FIFO's content changes: where it becomes readable, the unread interval starts (R103). -/
def setFifo (d : Dev) (g : Nat) (l : List FifoItem) : Dev :=
  d.onGal g fun x =>
    let y := { x with fifo := l }
    if y.readable && !x.readable then { y with lastRead := d.now, tmoRaised := false } else y

/-- COUNT of a marker has 16 bits (R100). -/
def maxCount : Nat := 65535

/-- Adds an item to a FIFO's content; a marker that would follow another marker of the same stream with consecutive numbers
extends that marker's COUNT instead (R104). -/
def addItem (l : List FifoItem) (it : FifoItem) : List FifoItem :=
  match l.getLast? with
  | some m =>
    if it.count ≠ 0 ∧ m.count ≠ 0 ∧ m.stream = it.stream ∧ seqAdd m.seq m.count = it.seq ∧ m.count + it.count ≤ maxCount then
      l.dropLast ++ [{ m with count := m.count + it.count }]
    else l ++ [it]
  | none => [it]

/-- The gap marker of one band. -/
def markerOf (n : Nat) (b : Band) (cause : Nat) : FifoItem :=
  { stream := n, b := b.b, seq := b.seq, frame := b.frame, count := 1, cause := cause }

/-- Puts items in the place of a band's items. -/
def replaceItems (l : List FifoItem) (n seq : Nat) (new : List FifoItem) : List FifoItem :=
  (l.foldl (fun (a : List FifoItem × Bool) it =>
    if it.isOf n seq then (if a.2 then a else (new.foldl addItem a.1, true)) else (addItem a.1 it, a.2)) ([], false)).1

/-- A gap marker takes the place of a band in the FIFO, in the entry of its head (R104, R448); a band that holds none there gets its
marker at the end. DESIGN CHOICE (notes/assumptions/78.md): where another marker is needed and the entry kept free for it is in
use, the marker is written all the same. -/
def putMarker (d : Dev) (g n : Nat) (b : Band) (cause : Nat) : Dev :=
  let l := (d.gal g).fifo
  setFifo d g
    (match l.find? fun it => it.isOf n b.seq with
      | some it => replaceItems l n b.seq [{ markerOf n b cause with place := if it.valid then it.place else none }]
      | none => addItem l (markerOf n b cause))

/-! ### Head entries in device memory (R100, R101, R454) -/

/-- Device address of entry e of the FIFO of Gallery g. -/
def fifoAddr (g e : Nat) : Nat := 0xE80000000 + g * 0x2000000 + e % fifoEntries * 64

/-- The eight words of a head entry. -/
def headWords (it : FifoItem) : List Word :=
  let marker := it.count ≠ 0
  [ word ((if marker then 2 else 1) * 2 ^ 60 + it.variant % 4 * 2 ^ 58 + it.resend.toNat * 2 ^ 57 + it.rep.toNat * 2 ^ 56
      + it.stream % 256 * 2 ^ 48 + it.b % 65536 * 2 ^ 32 + it.seq % two32)
  , word (it.frame % two32 * 2 ^ 32 + it.count % 65536 * 2 ^ 16 + (if marker then it.cause % 256 * 2 ^ 8 else 0))
  , word (if it.valid then 2 ^ 63 + it.len % two32 else 0), 0, 0, 0, 0, 0]

/-- Head entries find their place: one behind an uncommitted band waits for that band's commit, since its place is the entry past the
band's bitstream. `p` is the write pointer at the items; the results are the items and the write pointer past the committed ones. -/
def placeHeads (l : List FifoItem) (p : Nat) : List FifoItem × Nat :=
  match l with
  | [] => ([], p)
  | it :: r =>
    if it.valid && it.place.isSome then
      let x := placeHeads r p
      (it :: x.1, x.2)
    else
      let new := { it with place := some (it.place.getD p) }
      if it.valid then
        let x := placeHeads r (p + itemEntries it)
        (new :: x.1, x.2)
      else (new :: r, p)

/-- Writes the head entries of Gallery g's FIFO that are not as they stand in `old`, its content before. -/
def writeHeads (old : List FifoItem) (g : Nat) (s : State) : State :=
  let x := placeHeads (s.dev.gal g).fifo (s.dev.gal g).wr
  let s := s.onDev fun d => d.onGal g fun y => { y with fifo := x.1, wr := x.2 }
  each (x.1.filter fun it => it.place.isSome && !old.contains it) s fun s it =>
    s.store (fifoAddr g (it.place.getD 0)) ((headWords it).flatMap bytesLE)

/-- A change of the device that may change the content of Gallery g's FIFO, with the head entries it writes. -/
def onFifo (g : Nat) (f : Dev → Dev) (s : State) : State := writeHeads (s.dev.gal g).fifo g (s.onDev f)

/-- A change of the device that may change the content of any FIFO. -/
def onFifos (f : Dev → Dev) (s : State) : State := each (List.range 26) (s.onDev f) fun t g => writeHeads (s.dev.gal g).fifo g t

/-- Writes bytes into the entries after a head entry. -/
def storeEntries (s : State) (g p : Nat) (bs : List Byte) : State :=
  each (List.range (ceilDiv bs.length 64)) s fun s e => s.store (fifoAddr g (p + 1 + e)) ((bs.drop (64 * e)).take 64)

/-- Writes what a band has coded so far into the entries after its head, once its place is known (R101). -/
def storeSoFar (g n seq : Nat) (s : State) : State :=
  match (s.dev.gal g).fifo.find? (fun it => it.isOf n seq && !it.valid), bandAt (s.dev.stream n) seq with
  | some it, some b => match it.place with
    | some p => storeEntries s g p (partBytes (s.dev.stream n) b)
    | none => s
  | _, _ => s

/-- BAND_DISPATCH on Gallery g (R51): without a candidate, or while the Gallery is not free, nothing happens. The first band of a picture
writes what it decides into its image slot (R248), and the table with its entry is mirrored (R175). -/
def dispatch (s : State) (g : Nat) : State :=
  if !galFree s.dev g then s
  else match pickBand s.dev g with
    | none => s
    | some (n, b) =>
      let t := keepRecords (onFifo g fun _ => dispatchBand s g n b) s
      if decided (s.dev.stream n) b.frame then t else storeStart t n b.seq

/-- OVERRUN on Gallery g (R54): device time reaches one frame time after the deadline of the band that R51 picks. -/
def overrun (s : State) (g : Nat) : State :=
  match pickBand s.dev g with
  | none => s
  | some (n, b) => dispatch (s.onDev fun d => advance d (b.deadline + (d.stream n).cfg.frameNs)) g

/-! ### Coding (R52, R60, R81, R149, R349) -/

/-- The device after a band's next superblock: the picture holds it, SB_CODED counts it, and one past 4,096 bytes raises SB_CAP. What the
header sequencer has run of the band's routines stands. -/
def noteSb (d : Dev) (n : Nat) (b : Band) (x : SbDone) (refs : List (RecPic × Nat)) (won : Nat) : Dev :=
  let st := d.stream n
  let d := onBand d n b.seq fun y => { bandAfter st b x won with runAt := y.runAt, routinesDone := y.routinesDone }
  let d := onRec d n b.frame fun r => recordSb r refs (st.cfg.sbIndex b.b b.sbDone) x
  let d := readBlocks d b.gal n false x.code.blocks
  let d := incStat d (slotCounter d n b oSbCoded) 1 (768 + 8 * b.gal) b.gal (slotCounter d n b oSbCoded - rGal b.gal 0)
  if x.steps.big then raise (incErr d (slotCounter d n b oSbCap)) (4 * n + 2) 3 else d

/-- The band in progress on Gallery g. -/
def currentBand (d : Dev) (g : Nat) : Option (Nat × Band) :=
  (d.gal g).cur.bind fun c => (bandAt (d.stream c.1) c.2).map fun b => (c.1, b)

/-- SUPERBLOCK_CODE on Gallery g. -/
def superblock (s : State) (g : Nat) : State :=
  match currentBand s.dev g with
  | none => s
  | some (n, b) =>
    if b.n ≤ b.sbDone then s
    else
      let s := s.onDev fun d => runSequencer (advance d (b.startAt + b.sbDone * (if allSkip b then 250 else 4000))) g
      let x := nextSb s n b
      storeSoFar g n b.seq (s.onDev fun d => noteSb d n b x.1 (frontOf s n b 0).refs x.2)

/-- BAND_OCCUPANCY_END on Gallery g: the band in progress has all its superblocks, or the occupancy of a discarded band is
over. A band that the Vein schedule selects has its variant 1 coded (R349 to R351). -/
def occupancyEnd (s : State) (g : Nat) : State :=
  match (s.dev.gal g).cur with
  | none => s.onDev fun d => advance d (d.gal g).busyUntil
  | some _ =>
    match currentBand s.dev g with
    | none => s
    | some (n, b) =>
      if b.sbDone < b.n then s
      else
        let b := if b.sched then codeVariant s n b else b
        let ends := b.startAt + b.n * sbTime b
        s.onDev fun d =>
          let d := runSequencer (advance d ends) g
          let was := (routinesOn d g).head?
          let d := onBand d n b.seq fun x => { b with stage := .draining, closeAt := ends + 6000, runAt := x.runAt, routinesDone := x.routinesDone }
          reseat (d.onGal g fun x => { x with cur := none, closing := x.closing ++ [(n, b.seq)] }) g was

/-! ### Commit (R96, R98, R101, R102, R104, R150) -/

/-- The committed items of a band: one, or the two variants of a Vein band, variant 0 first (R102). -/
def bandItems (n : Nat) (b : Band) : List FifoItem :=
  let it := { openItem n b with valid := true }
  if b.vein then [{ it with variant := 1, len := b.len0 }, { it with variant := 2, len := b.len1 }]
  else [{ it with variant := 0, len := b.len0 }]

/-- The band that waits for its commit first: a BAND routine that waits to commit goes before the next band's routines (R98). -/
def commitsNext (d : Dev) (g : Nat) : Option (Nat × Nat) :=
  (d.gal g).closing.find? fun c => ((bandAt (d.stream c.1) c.2).map fun b => b.stage) == some .draining

/-- The band's items fit in the free entries, one of which stays free for a gap marker (R104). -/
def fits (d : Dev) (g n seq : Nat) (items : List FifoItem) : Bool :=
  let others := (d.gal g).fifo.filter fun it => !it.isOf n seq
  decide (total (others.map (entriesNow d)) + total (items.map itemEntries) + 1 ≤ fifoEntries)

/-- The cost of a band is charged at its commit, once, in its own picture (R150). -/
def chargeCost (st : Stream) (b : Band) (cost : Nat) : Stream :=
  let put := fun (r : RateState) => if r.frame = b.frame then { r with costs := r.costs.set 0 b.b cost } else r
  { st with rate := put st.rate, prevPics := st.prevPics.map fun p => (p.1, put p.2) }

/-- BAND_COMMIT on Gallery g (R101, R104, R150). -/
def commit (d : Dev) (g : Nat) : Dev :=
  match commitsNext d g with
  | none => d
  | some (n, seq) =>
    match bandAt (d.stream n) seq with
    | none => d
    | some b =>
      let d := runSequencer (advance d (b.closeAt - 3300)) g
      let was := (routinesOn d g).head?
      let st := d.stream n
      let len0 := (variantBytes st b 0).length
      let len1 := if b.vein then (variantBytes st b 2).length else 0
      let cost := b.charge.getD (codedCost st b)
      let b := { b with len0 := len0, len1 := len1, stage := .committed, charge := some cost }
      let d := reseat (onBand (d.onStream n fun x => chargeCost x b cost) n seq fun _ => b) g was
      let items := bandItems n b
      if fits d g n seq items then
        let d := setFifo d g (replaceItems (d.gal g).fifo n seq items)
        incStat d (rGal g oFifoBands) items.length (768 + 8 * g) g oFifoBands
      else
        let d := onBand (incErr d (rGal g oFifoDrops)) n seq fun b => { b with dropped := true }
        raise (putMarker d g n b 1) (768 + 8 * g) 2

/-! ### Close (R49, R90, R143, R160 to R162, R227 to R230) -/

/-- The statistics of a band. DESIGN CHOICE (notes/assumptions/104.md): a band coded all-skip for missing rows counts in REPEAT_BANDS and in
REPEAT of the report as a repeat band does, unless it is dry too: then it counts as dry, since R155 speaks of repeat bands alone. -/
def statOf (b : Band) (cost : Nat) : BandStat :=
  { n := b.n, q := b.q, cost := cost, est := b.est, weight := b.weight, normal := !allSkip b, dry := b.dry
    rep := b.rep || b.missing && !b.dry
    vein := b.vein, hints := b.hintsUsed, hintWon := b.hintWon, guarded := b.guarded, sbCap := b.sbCap, roiBreach := b.roiBreach }

/-- The Vein position of the band after `seq` (R347). -/
def veinPos (d : Dev) (st : Stream) (seq : Nat) : Word :=
  let v := veinAt st (seqAdd seq 1)
  let j := seqAdd seq 1 / 2 ^ v.f
  word (j % two32 * 2 ^ 32 + byteO (veinO d v j) 0 % 2 ^ v.f * 2 ^ 24 + v.f * 2 ^ 20 + v.sb * 2 ^ 16 + v.delta * 2 ^ 12 + v.en.toNat)

/-- The checkpoint image of a band (R227). A band of an earlier picture than the one in progress that is coded again keeps the rate and
reference state that its image held. -/
def imageOf (d : Dev) (n : Nat) (b : Band) (lost : Bool) : Image :=
  let st := d.stream n
  let old := if st.rate.frame = b.frame then none else st.images.find? fun i => i.seq == b.seq
  let late := (st.prevPics.find? fun p => p.1.frame == b.frame && st.rate.frame != b.frame).map fun p => p.2
  { seq := b.seq, nextSeq := seqAdd b.seq 1, picSeq := (b.seq + two32 - b.b) % two32, frame := b.frame, b := b.b, rep := allSkip b
    vein := b.vein, resend := b.resend, lost := lost, part := b.part, charge := (b.charge.getD 0) / 8, veinPos := veinPos d st b.seq
    time := d.now, rate := late.getD ((old.map fun i => i.rate).getD st.rate), ref := (old.map fun i => i.ref).getD st.ref, staged := st.staged }

/-- Writes an image into its slot. -/
def putImage (d : Dev) (n : Nat) (i : Image) : Dev :=
  d.onStream n fun st => { st with images := st.images.filter (fun x => x.seq % 8 != i.seq % 8) ++ [i] }

/-- The counters of a band's first close: a repeat band that is dry too is counted only as a repeat band (R155). -/
def countClose (d : Dev) (n : Nat) (b : Band) (cost : Nat) : Dev :=
  let d := rateStat d n 2 cost
  let d := if b.rep then rateErr d n 5 1 else if b.dry then rateErr d n 4 1 else if b.missing then rateErr d n 5 1 else d
  rateErr (rateErr d n 6 b.guarded) n 8 b.roiBreach

/-- The rate state after a band has closed, κ applied with the picture's last band (R143). A band of an earlier picture whose close the next one
did not wait for is entered in that picture, and the forecast that it leaves is the stream's. -/
def closeRate (st : Stream) (b : Band) (cost : Nat) : Stream :=
  let enter := fun (p : PicStats) => { p with bands := p.bands.set ({} : BandStat) b.b (statOf b cost) }
  let rate := if allSkip b then st.rate else learn st st.rate b cost
  let ended := fun (p : PicStats) => if b.last then correct st rate p else rate
  if st.pic.frame = b.frame then { st with pic := enter st.pic, qLast := b.q, rate := ended (enter st.pic) }
  else match st.prevPics.find? fun p => p.1.frame == b.frame with
    | none => { st with qLast := b.q }
    | some p => { st with
        prevPics := st.prevPics.map fun q => if q.1.frame = b.frame then (enter q.1, q.2) else q
        qLast := b.q, rate := ended (enter p.1) }

/-- The band before in the picture is not closed: the band above holds its close (R249). -/
def heldByAbove (st : Stream) (b : Band) : Bool :=
  st.bands.any fun x => x.frame == b.frame && x.b + 1 == b.b && x.stage != .closed

/-- The band that Gallery g closes next. -/
def closesNext (d : Dev) (g : Nat) : Option (Nat × Band) :=
  ((d.gal g).closing.filterMap fun c => (bandAt (d.stream c.1) c.2).map fun b => (c.1, b)).find? fun c => c.2.stage == .committed

/-- Band b of stream n closes on Gallery g. The image holds the reference state as of the close, a picture that completes with it in the store
(R182, R227). DESIGN CHOICE (notes/assumptions/105.md): `LANTERN_LAT_HWM` holds an interval of 2^32 ns or more at 2^32 - 1. -/
def close (d : Dev) (g n : Nat) (b : Band) : Dev :=
  let d := advance d b.closeAt
  let cost := b.charge.getD 0
  let late := decide (b.deadline < d.now) && !b.lateCounted
  let d := if late then raise (incErr d (rLan n oLanLate)) (4 * n + 1) 1 else d
  let d := setRegFld d (rLan n oLanLatHwm) 31 0 (max (regFld d (rLan n oLanLatHwm) 31 0) (min (two32 - 1) (d.now - b.eligibleAt)))
  let d := if b.closedOnce then d else countClose d n b cost
  let d := d.onStream n fun st => closeRate st b cost
  let b := { b with
    stage := .closed, closedOnce := true, lateCounted := b.lateCounted || late, closeAt := d.now, closeNo := (d.gal g).closes }
  let d := onBand d n b.seq fun _ => b
  let d := if b.last then d.onStream n fun st => { st with ref := enterStore st.ref st.cfg.refSlots b.frame } else d
  let d := putImage d n (imageOf d n b b.dropped)
  let d := if b.last then endPicOf d n b.frame false else d
  d.onGal g fun x => { x with closing := x.closing.erase (n, b.seq), closes := x.closes + 1 }

/-! ### What commit and close write into device memory (R86, R101, R229) -/

/-- Writes the bitstream of a committed item into the entries after its head. DESIGN CHOICE (notes/assumptions/106.md): the bytes of the last
entry past LENGTH keep what stood there. -/
def writeBody (g : Nat) (st : Stream) (b : Band) (s : State) (it : FifoItem) : State :=
  match it.place with
  | none => s
  | some p => storeEntries s g p (variantBytes st b it.variant)

/-- BAND_COMMIT on Gallery g: the length slots, with the bitstreams that they make readable. -/
def commitBand (s : State) (g : Nat) : State :=
  match commitsNext s.dev g with
  | none => s
  | some (n, seq) =>
    let s := onFifo g (fun d => commit d g) s
    match bandAt (s.dev.stream n) seq with
    | none => s
    | some b =>
      let s := each ((s.dev.gal g).fifo.filter fun it => it.isOf n seq && it.valid) s (writeBody g (s.dev.stream n) b)
      -- a band behind it has found its place: what it has coded so far is stored there
      each ((s.dev.gal g).fifo.filter fun it => !it.valid) s fun s it => storeSoFar g it.stream it.seq s

/-- The picture's rows that the close of a band changes are filtered and written into the store, with the band's CRC record (R84 to
R86). -/
def storeClose (s : State) (n : Nat) (b : Band) : State :=
  let pic := picAtClose s n b
  let rec_ := crcRecord s n b
  let c := (s.dev.stream n).cfg
  let s := s.onDev fun d => onRec (onBand d n b.seq fun _ => rec_) n b.frame fun _ => pic
  storeRowsOf s n pic (64 * c.firstRow b.b - pendingRows) (rowsTo c b.b)

/-- BAND_CLOSE on Gallery g: the band above holds it until it has closed (R249). -/
def closeBand (s : State) (g : Nat) : State :=
  match closesNext s.dev g with
  | none => s
  | some (n, b) =>
    if heldByAbove (s.dev.stream n) b then s
    else
      let t := storeClose s n b
      syncRecords s.dev (t.onDev fun d => close d g n (crcRecord s n b))

end Sys2Proof.Machine
end

