-- ==== Sys2Proof/Machine/Verify.lean ====
section
/-! DEFINITION. Verdicts, re-encodes, retirement, flush, failover and the abandoning of a stream (R33, R35, R89, R95,
R97, R103, R105, R198 to R206, R230, R233 to R241, R358). -/

namespace Sys2Proof.Machine

/-! ### Bands leave their Gallery -/

/-- A band is taken off Gallery g: its items leave the FIFO, its occupancy runs on (`now` false) or ends at once. -/
def takeOff (d : Dev) (n : Nat) (b : Band) (now : Bool) : Dev :=
  let first := (routinesOn d b.gal).head?
  let d := d.onGal b.gal fun x => { x with
    busyUntil := if x.cur == some (n, b.seq) && !now then max x.busyUntil (b.startAt + b.n * sbTime b) else x.busyUntil
    cur := if x.cur == some (n, b.seq) then none else x.cur
    closing := x.closing.filter fun c => c != (n, b.seq) }
  -- what is committed of a band that had passed when its Gallery retired is still read there (R235)
  reseat (setFifo d b.gal ((d.gal b.gal).fifo.filter fun it => it.passed || !it.isOf n b.seq)) b.gal first

/-- A band waits again for its re-encode: its number, deadline, eligible time and charge stay, RESEND is set (R202). -/
def recode (d : Dev) (n : Nat) (b : Band) : Dev :=
  let d := if b.verdict == some 0 then d.onStream n fun s => { s with unpassed := s.unpassed.set 0 b.frame (s.unpassed.get 0 b.frame + 1) } else d
  onBand d n b.seq fun b => { b with stage := .waiting, resend := true, verdict := none, verified := false, dropped := false }

/-- The band that R203 makes follow a failed one: it was dispatched before the verdict, on any Gallery. -/
def follower (d : Dev) (n : Nat) (b : Band) : Option Band :=
  (d.stream n).bands.find? fun x => x.seq == seqAdd b.seq 1 && x.frame == b.frame && x.stage != .waiting

/-- The following band is withdrawn and re-encoded (R203, R263). -/
def recodeFollower (d : Dev) (n : Nat) (b : Band) : Dev :=
  match follower d n b with
  | none => d
  | some x => recode (takeOff (followBand d n b.seq x.seq) n x false) n x

/-- A band will get no PASS: it counts as verified (R230). -/
def giveUp (d : Dev) (n seq : Nat) : Dev := moveVerified (onBand d n seq fun b => { b with verified := true, stage := .closed }) n

/-! ### Gap markers made without a close (R105, R143, R230) -/

/-- The image written with the gap marker of a band whose close wrote none: the state of the image before it, the band's fields, CHARGE 0
and LOST. -/
def lostImage (d : Dev) (n : Nat) (b : Band) : Dev :=
  if b.stage == .closed then d
  else
    let i := imageOf d n { b with charge := some 0 } true
    putImage d n
      (match (d.stream n).images.find? fun p => p.nextSeq == b.seq with
        | some p => { i with rate := p.rate, ref := p.ref, staged := p.staged }
        | none => i)

/-- κ of the picture of a frame is applied to the forecast (R143). -/
def correctFor (st : Stream) (frame : Nat) : Stream := { st with rate := correct st st.rate (picStatsOf st frame) }

/-- A picture whose last band is lost without a close ends with its gap marker; it never completes, so it takes no slot of the store. -/
def loseLast (d : Dev) (n : Nat) (b : Band) : Dev :=
  if b.last && b.stage != .closed then
    let d := endPicOf (d.onStream n fun st => correctFor st b.frame) n b.frame true
    onRef d n fun r => { r with claims := r.claims.filter fun c => c.1 != b.frame }
  else d

/-- The cost of a band leaves its picture: a band that a flush abandons is charged nothing, its commit included (R150). -/
def uncharge (st : Stream) (b : Band) : Stream :=
  let off := fun (r : RateState) => if r.frame = b.frame then { r with costs := r.costs.set 0 b.b 0 } else r
  { st with rate := off st.rate, prevPics := st.prevPics.map fun p => (p.1, off p.2) }

/-- A band is discarded for good on its Gallery: no charge, no verdict, no re-encode. -/
def loseBand (d : Dev) (n : Nat) (b : Band) (now : Bool) : Dev :=
  let d := d.onStream n fun st => uncharge st b
  let d := takeOff (lostImage d n b) n b now
  giveUp (loseLast d n b) n b.seq

/-! ### Flush (R105) -/

/-- Adds one lost band to the runs of consecutive numbers of its stream. DESIGN CHOICE (notes/assumptions/79.md): COUNT is of
consecutive numbers, so discarded numbers of one stream that are not consecutive give one marker for each run of them. -/
def addRun (l : List FifoItem) (it : FifoItem) : List FifoItem :=
  match l.find? fun x => x.stream == it.stream && seqAdd x.seq x.count == it.seq && decide (x.count + it.count ≤ maxCount) with
  | some x => l.map fun y => if y = x then { y with count := y.count + it.count } else y
  | none => l ++ [it]

/-- What a flush of Gallery g discards, as lost numbers: the bands in the FIFO, which are those from their dispatch until Mouth has
read them, each once. DESIGN CHOICE (notes/assumptions/79.md): the numbers of gap markers that the FIFO held join those of the new
markers. -/
def flushed (d : Dev) (g : Nat) : List FifoItem :=
  let l := ((d.gal g).fifo.filter fun it => it.variant != 2).map fun it =>
    ({ stream := it.stream, b := it.b, seq := it.seq, frame := it.frame, count := max 1 it.count, cause := 2 } : FifoItem)
  -- in order of number, so that consecutive numbers join
  sortBy (fun a b => decide (a.stream < b.stream) || (a.stream == b.stream && decide (seqAhead a.seq b.seq < 2 ^ 31))) l

/-- The bands that a flush of Gallery g discards for good: those in the FIFO. One that was dropped before is not in it, and its gap
marker stands there: it keeps its close and its verdict (R104, R205). -/
def flushBands (d : Dev) (g : Nat) : List (Nat × Nat) :=
  (((d.gal g).fifo.filter fun it => it.count == 0 && it.variant != 2).map fun it => (it.stream, it.seq))

/-- FLUSH of Gallery g: the bands that it discards are host-caused from now on (R251). -/
def flushGal (d : Dev) (g : Nat) : Dev :=
  let l := flushed d g
  let d := each (flushBands d g) d fun d x =>
    match bandAt (d.stream x.1) x.2 with
    | some b =>
      let d := account d x.1 b.seq true false
      if b.verified then d else loseBand d x.1 b true
    | none => d
  let d := d.onGal g fun x => { x with fifo := [], rd := x.wr }
  let d := setFifo d g (l.foldl addRun [])
  raise d (768 + 8 * g) 3

/-- TIMEOUT of Gallery g (R103): once per unread interval. -/
def fifoTimeout (d : Dev) (g : Nat) : Dev :=
  let us := regFld d (rGal g oFifoCtrl) 31 0
  let x := d.gal g
  if us = 0 ∨ !x.readable ∨ x.tmoRaised then d
  else
    let d := advance d (x.lastRead + us * 1000)
    let d := d.onGal g fun x => { x with tmoRaised := true }
    raise (incErr d (rGal g oFifoTmoCnt)) (768 + 8 * g) 1

/-! ### Abandoning a stream (R33, R36) -/

/-- The bands of a stream that stay until their verdict: those committed on a Gallery in service. -/
def staysAborted (d : Dev) (b : Band) : Bool := (b.stage == .committed || b.stage == .closed) && !b.verified && !retired d b.gal

/-- ABORT: bands in progress are abandoned at once, nothing more is dispatched, nothing is emitted; the bands that it discards are
host-caused (R251). -/
def abortStream (d : Dev) (n : Nat) : Dev :=
  let d := each (d.stream n).bands d fun d b => account d n b.seq true false
  let d := d.onStream n fun s => { s with phase := .closing, abort := true }
  let going := (d.stream n).bands.filter fun b => b.stage == .coding || b.stage == .draining
  let d := each going d fun d b => takeOff d n b true
  let d := each (List.range 26) d fun d g => setFifo d g ((d.gal g).fifo.filter fun it => it.stream != n)
  let d := d.onStream n fun s => { s with bands := (s.bands.filter (staysAborted d)).map fun b => { b with lost := true, accounted := true } }
  withdrawStream d n

/-- The rows of the Lantern's frame that Shaft has neither delivered nor declared missing are declared missing as its channel closes: no chain
will bring them (R33, R422; DESIGN CHOICE, notes/assumptions/68.md, where no chain of the frame had begun). -/
def endRows (d : Dev) (n : Nat) : Dev :=
  let c := d.chan n
  let x := frameRows c (lanFrame d n)
  let h := (d.stream n).cfg.height
  if c.served && !x.ended then
    d.setChan n (setFrameRows c { x with missing := x.missing ++ gapsFrom (x.luma.length + x.missing.length + 1) (x.luma ++ x.missing) 0 h, ended := true })
  else d

/-- A close begins: the Lantern accepts nothing more, the channel's chains end CLOSED; a DRAIN still codes what is eligible, and what an
advance accepted before it has reached (R33, R426). -/
def beginClose (d : Dev) (n : Nat) (abort : Bool) : Dev :=
  let d := d.onStream n fun s => { s with phase := .closing, ran := s.ran || s.phase == .running }
  let d := closeChannel d n
  if abort then abortStream d n else makeEligible (endRows d n) n

/-! ### Retirement (R233 to R238) -/

/-- A retired Gallery's committed bands without a verdict are killed in Mouth (R235); of one that its FIFO dropped Mouth has nothing. -/
def killUnverified (d : Dev) (g : Nat) : Dev :=
  each d.streams d fun d e =>
    each (e.2.bands.filter fun b => b.gal == g && (b.stage == .committed || b.stage == .closed) && !b.verified && !b.dropped) d fun d b =>
      failBand d e.1 b.seq

/-- A retirement joins those that wait for their handling, in the order observed; of one clock, by number (R238). -/
def addMove (d : Dev) (g : Nat) : Dev :=
  let sooner := fun (h : Nat) => (d.gal h).retiredAt != d.now || decide (h < g)
  let d := { d with guide := { d.guide with moves := d.guide.moves.takeWhile sooner ++ g :: d.guide.moves.dropWhile sooner } }
  d.onGal g fun x => { x with retiredAt := d.now }

/-- The items that the FIFO of a retiring Gallery keeps: those committed, each marked where its band has passed (R234, R235). -/
def keptItems (d : Dev) (g : Nat) : List FifoItem :=
  ((d.gal g).fifo.filter fun it => it.valid).map fun it =>
    { it with passed := (bandAt (d.stream it.stream) it.seq).any fun b => b.gal == g && b.verdict == some 0 }

/-- Gallery g retires for a cause of R233. -/
def retire (d : Dev) (g cause : Nat) : Dev :=
  if retired d g then d
  else
    let d := setRegBit d (rGal g oGalStatus) 63 true
    let d := setReg d (rGal g oGalRetire) (word (cause * 2 ^ 56 + 255 * 2 ^ 48))
    let d := setReg d (rGal g oGalRetireTime) (timeWord d)
    let d := if cause = 5 then blockFault d 1 (768 + 8 * g + 6) 1 else raise d (768 + 8 * g + 6) 1
    let d := d.onGal g fun x => { x with cur := none, closing := [], busyUntil := 0 }
    let d := addMove (setFifo d g (keptItems d g)) g
    let d := killUnverified d g
    each d.streams d fun d e =>
      if e.2.phase == .closing && (e.2.parts.any fun q => q.gal == g) then abortStream d e.1 else d

/-- An uncorrectable SRAM error (R89), a watchdog failure (R97), a power fault: a class D fault of the Gallery, raised on a retired
Gallery too, and the Gallery retires. -/
def galFault (d : Dev) (g src cause : Nat) (code : Nat) : Dev := retire (blockFault d 1 (768 + 8 * g + src) code) g cause

/-! ### Header routines abandoned (R95, R97) -/

/-- WATCHDOG (R97): the run in progress executes its microword number WDOG + 1; the Gallery fails and is retired. Where no routine runs none
can fail its watchdog. -/
def watchdog (d : Dev) (g : Nat) : Dev :=
  match if retired d g then none else runningBand d g with
  | none => d
  | some (_, b) =>
    let d := advance d (b.runAt + microwordNs (wdogLimit d g + 1))
    let d := match (routinesOn d g).head? with
      | some r => d.onGal g fun x => { x with uc := addressAfter d g (wdogLimit d g + 1) (entryOf r.1), ucRun := wdogLimit d g + 1, ucClock := coreClock d }
      | none => d
    galFault d g 1 3 2

/-- The running routine is abandoned: it is counted and restarts from its entry, with nothing of the band changed, since before the
commit a routine rewrites the same bytes (R95, R96). The fourth abandon within one band is a watchdog failure (R97). -/
def restartRoutine (d : Dev) (g : Nat) : Dev :=
  match if retired d g then none else runningBand d g with
  | none => d
  | some (n, b) =>
    if 3 ≤ b.abandons then galFault d g 1 3 2
    else
      let d := startRoutine (onBand d n b.seq fun b => { b with abandons := b.abandons + 1 }) g
      raise (incErr d (rGal g oUcRestarts)) (768 + 8 * g + 1) 1

/-- The routines that a fast event of their Gallery has met are abandoned and restarted (R95). -/
def restartMet (s : State) : State :=
  if s.dev.fastMet.isEmpty then s
  else keepRecords (·.onDev fun d => each (uniq s.dev.fastMet) { d with fastMet := [] } restartRoutine) s

/-! ### Verdicts (R198 to R206) -/

/-- The band whose verdict Gallery g gives next: verdicts follow the order of closes (R199). -/
def nextVerdict (d : Dev) (g : Nat) : Option (Nat × Band) :=
  let l := (d.streams.map fun e => (e.2.bands.filter fun b => b.gal == g && b.stage == .closed && !b.verified && b.verdict.isNone).map fun b => (e.1, b)).flatten
  l.foldl (fun best x => match best with | none => some x | some y => if x.2.closeNo < y.2.closeNo then some x else some y) none

/-- The Vein record of a band that has passed (R358). -/
def veinRecord (d : Dev) (n : Nat) (b : Band) : Dev :=
  let st := d.stream n
  let ring := st.veinRing
  if !b.vein || b.dropped || !ring.en || ring.records = 0 then d
  else
    let v := veinAt st b.seq
    let es := (b.sums.take (min b.variants 8)).map fun e => word (e.1 % 65536 * 2 ^ 48 + e.2.1 % 2 ^ 24 * 2 ^ 24 + e.2.2 % 2 ^ 24)
    let ws := [word (b.seq * 2 ^ 32 + b.seq / 2 ^ v.f), word (b.frame * 2 ^ 32 + b.b % 65536 * 2 ^ 16 + b.variants % 16 * 2 ^ 12)]
      ++ es ++ List.replicate (8 - es.length) 0 ++ [b.framePtp, 0, 0, 0, 0, 0]
    let d := emit d (.host (ring.base + ring.next % ring.records * 128) ws)
    d.onStream n fun st => { st with veinRing := { st.veinRing with next := st.veinRing.next + 1 } }

/-- PASS: the band is verified; Mouth sees the verdict in the same clock. -/
def passVerdict (d : Dev) (n : Nat) (b : Band) : Dev :=
  let d := onBand d n b.seq fun b => { b with verdict := some 0, verified := true }
  let d := moveVerified (d.onStream n fun s => { s with unpassed := s.unpassed.set 0 b.frame (s.unpassed.get 0 b.frame - 1) }) n
  let d := veinRecord d n b
  if b.dropped || (d.stream n).abort then prune d n else prune (passBand d n b.seq) n

/-- FAIL of a band that stays on a Gallery in service: killed, and re-encoded with the band that follows it. One that a gap marker has taken
the place of is not sent again (R205, R264, R265). -/
def failVerdict (d : Dev) (n : Nat) (b : Band) : Dev :=
  if b.dropped || b.lost || (d.stream n).abort then
    prune (giveUp (onBand (discardStored d n b.seq) n b.seq fun b => { b with verdict := some 1 }) n b.seq) n
  else
    let d := raise (failBand d n b.seq) (4 * n + 1) 3
    let d := recodeFollower d n b
    recode (takeOff d n b false) n b

/-- The items that carry the sequence and picture state of a band 0: all before its own tile group or slice. -/
def stateItems (l : List (List Byte)) : List (List Byte) := l.dropLast

/-- A redundant frame header of a later band is held to the state that Echo has taken from the headers of band 0: to the frame header there
(R197, R198). -/
def withEchoState (st : Stream) (b : Band) (l : List (List Byte)) : List (List Byte) :=
  match (decisionOf st b.frame).bind fun x => x.echo with
  | none => l
  | some state => if b.b = 0 ∨ (stateItems l).isEmpty then l else state.drop (state.length - (stateItems l).length) ++ l.drop (stateItems l).length

/-- Echo takes the header state of a picture from the headers of its band 0 (R197). -/
def takeEchoState (st : Stream) (b : Band) (f : EchoFindings) : Stream :=
  if b.b = 0 then onDecision st b.frame fun x => { x with echo := some (stateItems f.headers0) } else st

/-- The header items of a variant of a band as the stream's committed configuration and the picture's decision give them: a redundant
frame header among them is the picture's frame header (R197, R198). -/
def expectedHeaders (st : Stream) (b : Band) (variant : Nat) : List (List Byte) :=
  let tiles := writtenTiles (formOf st b) (if variant = 2 then b.coded1 else b.coded0) true
  let len := if variant = 2 then b.len1 else b.len0
  fillSizes st.cfg (withEchoState st b ((headerInfo st b.frame).items b.b b.base)) (len - b.hdrBytes) (tiles.headD []).length

/-- The superblock CRCs of variant 1 by Echo: its own for a variant superblock; every other takes its reconstruction from variant 0
(R200). -/
def variantCrcs (st : Stream) (b : Band) (f : EchoFindings) : List Nat :=
  (List.range b.n).map fun i =>
    (if b.sums.any fun e => e.1 == st.cfg.sbIndex b.b i then f.crc1 else f.crc0).getD i 0

/-- The code of the first failing check; 0: PASS (R198). -/
def causeOf (st : Stream) (b : Band) (f : EchoFindings) (differs : List Nat) : Nat :=
  if f.crc0 ≠ b.crc0 ∨ b.vein ∧ variantCrcs st b f ≠ b.crc1 then 1
  else if f.edge0 ≠ b.edge0 ∨ b.vein ∧ f.edge1 ≠ b.edge1 then 2
  else if f.undecodable ∨ f.len0 ≠ b.len0 ∨ b.vein ∧ f.len1 ≠ b.len1 then 3
  else if f.headers0 ≠ expectedHeaders st b 0 ∨ b.vein ∧ f.headers1 ≠ expectedHeaders st b 2 then 4
  else if b.vein ∧ differs.any (fun i => !b.sums.any fun e => e.1 == st.cfg.sbIndex b.b i) then 5
  else 0

/-- The verdict of a band: `cause` 0 is PASS. -/
def giveVerdict (d : Dev) (g n : Nat) (b : Band) (cause : Nat) : Dev :=
  let held := (d.gal g).window.any fun f => f
  let d := d.onGal g fun x => { x with window := ((cause != 0) :: x.window).take 64 }
  let d := incStat d (rGal g oEchoVerdicts) 1 (768 + 8 * g) g oEchoVerdicts
  if cause = 0 then passVerdict d n b
  else
    let d := incErr d (rGal g oEchoFails)
    let d := setReg d (rGal g oEchoWindow) (word (n % 256 * 2 ^ 56 + cause * 2 ^ 32 + b.seq % two32))
    if held then
      let d := blockFault d 1 (768 + 8 * g + 4) 1
      let d := if b.dropped || b.lost || (d.stream n).abort then failVerdict d n b else raise d (4 * n + 1) 3
      retire d g 1
    else failVerdict (blockFault d 0 (768 + 8 * g + 4) 1) n b

/-- VERDICT on Gallery g: Echo has decoded the band that closed first, predicting through the reference cache, and gives its verdict by
what it found. -/
def verdict (d : Dev) (g : Nat) (f : EchoFindings) (differs : List Nat) : Dev :=
  match if retired d g then none else nextVerdict d g with
  | none => d
  | some (n, b) =>
    let d := readBlocks (prefetch d g n b true) g n true (b.coded0.flatMap fun x => x.blocks)
    let d := d.onStream n fun st => takeEchoState st b f
    giveVerdict d g n b (causeOf (d.stream n) b f differs)

/-! ### Failover (R238 to R242, R250) -/

/-- The stream parts on Gallery g: stream, part, load; streams that are closing are not moved (R35). -/
def partsOn (d : Dev) (g : Nat) : List (Nat × Nat × Nat) :=
  (d.streams.map fun e =>
    if e.2.phase == .closing then []
    else ((List.range e.2.parts.length).zip e.2.parts).filterMap fun x => if x.2.gal == g then some (e.1, x.1, x.2.load) else none).flatten

/-- Largest load first; equal loads in order of stream and part. -/
def byLoad (l : List (Nat × Nat × Nat)) : List (Nat × Nat × Nat) := sortBy (fun a b => decide (b.2.2 ≤ a.2.2)) l

/-- Moves one part to Gallery t. -/
def movePart (d : Dev) (n p t : Nat) : Dev :=
  let slot := freeSlot d t
  d.onStream n fun s => { s with parts := s.parts.mapIdx fun i q => if i = p then { q with gal := t, slot := slot } else q }

/-- The busy-gallery rule of R27 for a part of stream n, over the Galleries that a test allows. -/
def busyFor (d : Dev) (n load : Nat) (ok : Nat → Bool) : Option Nat :=
  let mine := (d.stream n).parts.map fun q => q.gal
  fullest d ((List.range 26).filter fun g => healthy d g && ok g && !mine.contains g && roomFor d g load && !(placedOn d g).isEmpty)

/-- Places the parts one by one; parts that fit nowhere come back. -/
def placeEach (d : Dev) (ok : Nat → Bool) (l : List (Nat × Nat × Nat)) : Dev × List (Nat × Nat × Nat) × List (Nat × Nat) :=
  l.foldl (fun st x =>
    match busyFor st.1 x.1 x.2.2 ok with
    | some t => (movePart st.1 x.1 x.2.1 t, st.2.1, st.2.2 ++ [(x.1, t)])
    | none => (st.1, st.2.1 ++ [x], st.2.2)) (d, [], [])

/-- The band lies at or past the resume point: behind VERIFIED nothing is coded again (R241). -/
def pastResume (st : Stream) (b : Band) : Bool :=
  match st.verified with
  | none => true
  | some v => b.seq != v && decide (seqAhead v b.seq < 2 ^ 31)

/-- The bands of a stream from its resume point that the retired Gallery dispatched, those that have passed among them. One that a marker
stands for and that counts as verified is never sent again (R230). -/
def toResume (d : Dev) (n g : Nat) : List Band :=
  let st := d.stream n
  st.bands.filter fun b => b.gal == g && b.stage != .waiting && pastResume st b && (!b.verified || b.verdict == some 0)

/-- A stream's verified image, or VERIFIED, is readable in neither copy (R232). -/
def imageLost (st : Stream) : Bool :=
  match st.verified with
  | none => false
  | some v => (!st.verA && !st.verB) || st.images.any fun i => i.seq == v && !i.copyA && !i.copyB

/-- The bands of the current picture, and of those before it, from the resume point on that no verdict has settled: dispatched or not, on any
Gallery. The current picture is that of the latest decision. -/
def uncodable (st : Stream) : List Band :=
  st.bands.filter fun b => !b.verified && pastResume st b && (match st.ref.decided with | some f => !frameAfter b.frame f | none => false)

/-- The bands of the current picture that are not eligible yet take their numbers and are coded no more. -/
def skipRest (d : Dev) (n : Nat) : Dev :=
  let st := d.stream n
  let left := st.cfg.bands - st.nextBand
  if lanSynced d n && !st.skipFrame && st.ref.decided == some (lanFrame d n) && decide (0 < left) then
    let d := setClosed (d.onStream n fun x => { x with skipFrame := true, nextBand := x.cfg.bands, nextSeq := seqAdd x.nextSeq left }) n
    reseqItem d n st.nextSeq left 5
  else d

/-- The verified image is lost: the bands of the picture from the resume point are not coded, markers of CAUSE 0x05 cover
them, and the next picture is a key frame with the rate state of stream start (R232). -/
def loseImage (d : Dev) (n : Nat) : Dev :=
  let l := uncodable (d.stream n)
  let d := each l d fun d b => giveUp (loseLast (takeOff d n b true) n b) n b.seq
  let d := onRef d n fun r => { r with keyForced := true, claims := [] }
  let d := d.onStream n fun s => { s with rate := ({} : RateState) }
  skipRest (each l d fun d b => reseqItem d n b.seq 1 5) n

/-- A provisional image that neither copy gives is recomputed by re-encoding its band from the image before it (R232). DEDUCED: by R76 the
re-encode repeats every decision, so the image is the one that was lost, and both copies hold it again (notes/assumptions/34.md). -/
def remakeImages (d : Dev) (n : Nat) : Dev :=
  d.onStream n fun s => { s with images := s.images.map fun i =>
    if !i.copyA && !i.copyB && s.verified != some i.seq then { i with copyA := true, copyB := true } else i }

/-- Resumes a moved stream (R241). -/
def resume (d : Dev) (n g : Nat) : Dev :=
  if imageLost (d.stream n) then loseImage d n
  else
    each (toResume d n g) (remakeImages d n) fun d b =>
      match bandAt (d.stream n) b.seq with
      | none => d
      | some b => if b.stage == .waiting then d else recode (takeOff (recodeFollower d n b) n b true) n b

/-- A moved part: counted, raised, and its target loads the state (R242, R252, R258). -/
def moved (d : Dev) (n t : Nat) : Dev :=
  let d := raise (availErr d n 8 1) (4 * n + 1) 4
  d.onGal t fun x => { x with busyUntil := max x.busyUntil d.now + 2000 }

/-! ### A stream becomes FREE (R34, R36, R38, R240) -/

/-- The counters that outlive a close: error counters are cleared by their clear command and by reset alone (R472). -/
def errorsOf (x : Stream) : Stream :=
  { rateCnt := x.rateCnt.filter fun e => decide (3 ≤ e.1), refCnt := x.refCnt.filter fun e => decide (5 ≤ e.1)
    availCnt := x.availCnt.filter fun e => decide (7 ≤ e.1) }

/-- The stream returns to FREE with everything that it held (R34, R36, R313, R455); the close clears its statistics counters
(R472). -/
def freeStream (d : Dev) (n : Nat) : Dev :=
  let d := each (recipsOf d n) d fun d r => freeRecip d r
  let d := deallocate (d.setStream n (errorsOf (d.stream n))) n
  let d := setReg (clearChannel (clearLantern d n) n) (rLan n oLanTokens) 0
  let d := setRegFld (setReg d (rMs n oMsReseq) 0) (rMs n oMsCfg) 31 16 0
  let d := setReg (setReg d (rMs n oMsBands) 0) (rMs n oMsPackets) 0
  let d := { d with captured := d.captured.filter fun c => c.stream != n }
  rephase (d.onMouth fun m => { m with mirrors := m.mirrors.filter fun x => x.stream != n })

/-- STREAM.OPEN is refused after all: its stream could not keep a Gallery while it was arming. The Lantern returns to FREE with its
position cleared; the tokens and pulses that it accepted while arming are counted in `LANTERN_IGNORED` and stay counted in
`LANTERN_TOKENS` (R38). DESIGN CHOICE (notes/assumptions/81.md): R240 does not speak of a stream that is still arming; the model refuses
its STREAM.OPEN with NO_CAPACITY. -/
def refuseOpen (d : Dev) (n : Nat) : Dev :=
  let tokens := reg d (rLan n oLanTokens)
  let k := (d.stream n).armAdvances
  let d := setReg (freeStream d n) (rLan n oLanTokens) tokens
  let d := if k = 0 then d else incErrBy d (rLan n oLanIgnored) k
  completeOutstanding d (fun o => fld o.hdr 63 48 == 0x0201 && o.target == n) fun _ => stNoCapacity

/-- An orphaned stream closes as in an ABORT; what it would have coded is missed, up to the close completion (R240). -/
def orphan (d : Dev) (n : Nat) : Dev :=
  let d := blockFault d 1 (4 * n + 1) 5
  if (d.stream n).arming then refuseOpen d n
  else
    let d := each (d.stream n).bands d fun d b => account d n b.seq false false
    let s := d.stream n
    let ghost := if s.phase == .running then some (reg d (rLan n oLanRows), s.nextBand, s.skipFrame, s.nextSeq) else none
    (beginClose d n true).onStream n fun s => { s with ghost := ghost }

/-- Moves the parts of retired Gallery g. -/
def moveRetired (d : Dev) (g : Nat) : Dev :=
  let parts := partsOn d g
  let target := (List.range 26).find? fun t => isReserve d t
  let r : Dev × List (Nat × Nat × Nat) × List (Nat × Nat) :=
    match target with
    | some t => (each parts (setRegBit d (rGal t oGalStatus) 62 false) fun d x => movePart d x.1 x.2.1 t, [], parts.map fun x => (x.1, t))
    | none => placeEach d (fun _ => true) (byLoad parts)
  let d := each r.2.2 r.1 fun d x => moved (setRegBit d (rGal x.2 oGalStatus) 62 false) x.1 x.2
  let orphans := uniq (r.2.1.map fun x => x.1)
  let d := each orphans d fun d n => orphan d n
  let d := each ((uniq (r.2.2.map fun x => x.1)).filter fun n => !orphans.contains n) d fun d n => resume d n g
  let d := setRegFld d (rGal g oGalRetire) 55 48 (match uniq (r.2.2.map fun x => x.2) with | [t] => t | _ => 255)
  let d := setRegFld d (rGal g oGalRetire) 47 44 (min 8 r.2.2.length)
  rephase (setRegFld d (rGal g oGalRetire) 43 40 (min 8 orphans.length))

/-- The oldest retirement is handled; a takeover in progress holds it back (R238, R255). -/
def failover (d : Dev) : Dev :=
  match d.guide.moves with
  | [] => d
  | g :: rest =>
    if d.guide.takeoverAt.isSome then d
    else moveRetired { d with guide := { d.guide with moves := rest } } g

/-- DIAG.RETIRE of Gallery g would orphan no stream (R237). -/
def canRetire (d : Dev) (g : Nat) : Bool :=
  let d' := setRegBit d (rGal g oGalStatus) 63 true
  ((List.range 26).any fun t => isReserve d' t) || (placeEach d' (fun _ => true) (byLoad (partsOn d' g))).2.1.isEmpty

/-! ### Commands of these chapters -/

/-- BAND_DISPATCH (R51). -/
def execBandDispatch (g : Fin 26) (_ : Unit) (s : State) : Host.Outcome State Fault Refusal :=
  ok (if working s.dev then dispatch s g else s)

/-- SUPERBLOCK_CODE (R149). -/
def execSuperblockCode (g : Fin 26) (_ : Unit) (s : State) : Host.Outcome State Fault Refusal :=
  ok (if working s.dev then restartMet (keepRecords (fun s => superblock s g) s) else s)

/-- BAND_OCCUPANCY_END (R52). -/
def execBandOccupancyEnd (g : Fin 26) (s : State) : Host.Outcome State Fault Refusal :=
  ok (if working s.dev then occupancyEnd s g else s)

/-- BAND_COMMIT (R101). -/
def execBandCommit (g : Fin 26) (_ _ : Unit) (s : State) : Host.Outcome State Fault Refusal :=
  ok (if working s.dev then restartMet (commitBand s g) else s)

/-- BAND_CLOSE (R90). -/
def execBandClose (g : Fin 26) (s : State) : Host.Outcome State Fault Refusal :=
  ok (if working s.dev then closeBand s g else s)

/-- OVERRUN (R54). -/
def execOverrun (g : Fin 26) (_ : Unit) (s : State) : Host.Outcome State Fault Refusal :=
  ok (if working s.dev then overrun s g else s)

/-- The oldest band of stream n that is due and not yet accounted. -/
def oldestDue (d : Dev) (n : Nat) : Option Band := (d.stream n).bands.find? fun b => !b.accounted && !b.host

/-- MISSED (R251): the oldest due band of the stream passes its deadline plus one band time unreleased. -/
def execMissed (n : Fin 192) (s : State) : Host.Outcome State Fault Refusal :=
  ok (match if working s.dev then oldestDue s.dev n else none with
    | none => s
    | some b => keepRecords (·.onDev fun d =>
        account (advance d (b.deadline + (d.stream n).cfg.bandNs + 1)) n b.seq false false) s)

/-- WATCHDOG (R97). -/
def execWatchdog (g : Fin 26) (s : State) : Host.Outcome State Fault Refusal :=
  ok (if working s.dev then keepRecords (·.onDev fun d => watchdog d g) s else s)

/-- FLUSH (R105): a write of 1 to FLUSH of `GAL_FIFO_CTRL`; TMO_US keeps its value in this row. -/
def execFlush (m : Master) (g : Fin 26) (s : State) : Host.Outcome State Fault Refusal :=
  ok (barGate s m (rGal g oFifoCtrl) true fun s => restartMet (keepRecords (onFifo g fun d => flushGal d g) s))

/-- TIMEOUT (R103). -/
def execTimeout (g : Fin 26) (s : State) : Host.Outcome State Fault Refusal :=
  ok (if working s.dev then restartMet (s.onDev fun d => fifoTimeout d g) else s)

/-- SRAM_CORR (R89): counted and raised as class C. Where the source has a fast bank the event abandons a running routine (R95). -/
def execSramCorr (g : Fin 26) (s : State) : Host.Outcome State Fault Refusal :=
  ok (if alive s.dev then restartMet (s.onDev fun d => blockFault (incErr d (rGal g oSramCe)) 0 (768 + 8 * g + 2) 1) else s)

/-- SRAM_UNCORR (R89): counted, raised, and the Gallery retires. -/
def execSramUncorr (g : Fin 26) (s : State) : Host.Outcome State Fault Refusal :=
  ok (if alive s.dev then keepRecords (·.onDev fun d => galFault (incErr d (rGal g oSramUe)) g 3 2 1) s else s)

/-- CONTROL_STORE_ERROR (R95). -/
def execControlStoreError (g : Fin 26) (s : State) : Host.Outcome State Fault Refusal :=
  ok (if working s.dev then keepRecords (·.onDev fun d => restartRoutine d g) s else s)

/-- POWER (R233): a fault of the Gallery's power domain. -/
def execPower (g : Fin 26) (s : State) : Host.Outcome State Fault Refusal :=
  ok (if alive s.dev then keepRecords (·.onDev fun d => galFault d g 5 4 1) s else s)

/-- VERDICT (R198). -/
def execVerdict (g : Fin 26) (f : EchoFindings) (differs : List Nat) (s : State) : Host.Outcome State Fault Refusal :=
  ok (if working s.dev then restartMet (keepRecords (·.onDev fun d => verdict d g f differs) s) else s)

end Sys2Proof.Machine
end

