-- ==== Sys2Proof/Machine/Commits.lean ====
section
/-! DEFINITION. Shadows and commits: capture, check, landing (R42, R277, R308, R446, R456, R469, R470, R533 to R535, R547),
and the drift of the fleet profile (R523). -/

namespace Sys2Proof.Machine

/-! ### Drift (R522, R523) -/

/-- The profile's content changes other than by activation. -/
def drift (d : Dev) : Dev :=
  let d := setRegBit d rFleetStatus 14 true
  raiseLim { d with fleet := { d.fleet with digestDue := true } } 1000000000 1238 4

/-! ### Checks at capture (R534) -/

/-- The value that a register would hold after a commit of these values. -/
def valueWith (d : Dev) (caps : List (Nat × Word)) (a : Nat) : Word :=
  match caps.find? fun c => c.1 == a with
  | some c => c.2
  | none => reg d a

def isSumpCfg (a : Nat) : Bool := a == rSumpCtrl || (inRange a 0x600100 0x60019F && a % 0x20 == 0)

def isRegion (a : Nat) : Bool := inRange a 0x680100 0x680128

def isSrcCfg (a : Nat) : Bool := inRange a 0x700000 0x7027FF

/-- Every stream and every recipient entry is free. -/
def allIdle (d : Dev) : Bool :=
  (d.streams.all fun e => e.2.phase == .free && !e.2.arming) && d.recips.all fun e => !e.2.valid

/-- The Sump registers after a commit meet R277. -/
def sumpOk (d : Dev) (caps : List (Nat × Word)) : Bool :=
  let size := fld (valueWith d caps rSumpCtrl) 63 51
  let share := fun p => fld (valueWith d caps (rPoolCfg p)) 63 56
  let cls := total ((List.range 4).map fun c => fld (valueWith d caps (rClassRsv c)) 31 0)
  allIdle d && total ((List.range 5).map share) == 64 &&
    (List.range 5).all fun p =>
      decide (192 * fld (valueWith d caps (rPoolCfg p)) 47 32 + (if p = 0 then cls else 0) ≤ poolCount size (share p) p)

/-- The memory regions after a commit: no overlap, windows 0 to 237 all assigned, Sump at least 4 GiB (R456). -/
def regionsOk (d : Dev) (caps : List (Nat × Word)) : Bool :=
  let r := fun k => valueWith d caps (rMemRegion k)
  let holds := fun k w => bit (r k) 63 && inRange w (fld (r k) 55 48) (fld (r k) 39 32)
  ((List.range 238).all fun w => ((List.range 6).filter fun k => holds k w).length == 1)
    && (List.range 6).all (fun k => !bit (r k) 63 || decide (fld (r k) 39 32 ≤ 237))
    && bit (r 3) 63 && decide (fld (r 3) 55 48 + 16 ≤ fld (r 3) 39 32 + 1)

/-- WAKE bits after a commit: at most 64 (R469). -/
def wakeOk (d : Dev) (caps : List (Nat × Word)) : Bool :=
  decide (((List.range 1280).filter fun s => bit (valueWith d caps (rSrcCfg s)) 59).length ≤ 64)

/-- A member of a commit passes its check. -/
def memberOk (d : Dev) (caps : List (Nat × Word)) (c : Nat × Word) : Bool :=
  shadowOk c.1 c.2 && (!isSumpCfg c.1 || sumpOk d caps) && (!isRegion c.1 || regionsOk d caps) && (!isSrcCfg c.1 || wakeOk d caps)

/-- The streams whose Lantern registers fail their check in a commit of these values. -/
def badLanterns (d : Dev) (caps : List (Nat × Word)) : List Nat :=
  uniq (((caps.filter fun c => inRange c.1 0x400000 0x4BFFFF && !memberOk d caps c)).map fun c => (c.1 - 0x400000) / 0x1000)

/-- A commit is rejected: REJECT and COMMIT_REJECT name the first failing register, every stream with a failing Lantern register
raises BAD_CONFIG (R42); a commit that breaks R277 raises RESERVE_BAD, and one past the WAKE bits its own event. -/
def rejectCommit (d : Dev) (caps : List (Nat × Word)) (a : Nat) : Dev :=
  let t := (regAt a).1.getD 0
  let bad := badLanterns d caps
  let d := setRegFld (setRegBit d rCfgStatus 63 true) rCfgStatus 41 32 t
  let d := raise d 1239 1 0 t
  let d := each bad d fun d n => raise d (4 * n) 6
  let d := if (caps.any fun c => isSumpCfg c.1) && !sumpOk d caps then raise d 1222 1 else d
  if isSrcCfg a && !wakeOk d caps then raise d 1233 2 else d

/-! ### Landing -/

/-- `EVT_SRC_CFG` of source s lands (R470). -/
def landSrc (d : Dev) (s : Nat) (v : Word) : Dev :=
  let active := srcActive d s
  let latches := d.srcs.get [] s
  let d := setReg d (rSrcCfg s) v
  if !bit v 63 then { d with srcs := d.srcs.set [] s [] }
  else if fld v 62 61 ≠ 0 then
    let d := clrActive { d with srcs := d.srcs.set [] s [] } s
    each latches d fun d l => post d (srcFn d s l.subject) s l.cause l.subject l.data l.time l.merged false
  else if active then d
  else recheck d s

/-- Every pool's free list starts over with the layout that has landed (R277, R280); `old` is the device before the landing, from which LOW
is judged. -/
def resetPools (old d : Dev) : Dev :=
  each (List.range 5) (d.onMouth fun m => { m with free := [], lost := [], stamps := [] }) fun d p =>
    edge (setReg d (rPoolStatus p) (word (poolSize d p * (2 ^ 32 + 1)))) (1216 + p) (srcState old (1216 + p))

/-- One captured value lands, or waits for its stream's next release (R308). -/
def landDev (d : Dev) (a : Nat) (v : Word) : Dev :=
  if inRange a 0x510000 0x51BFFF then
    { d with captured := (d.captured.filter fun c => c.addr != a) ++ [{ addr := a, value := v, stream := (a - 0x510000) / 0x100 }] }
  else if isSrcCfg a then landSrc d ((a - 0x700000) / 8) v
  else if a = rMouthCtrl then
    let d := setRegBit (setReg d a v) rPtpStatus 62 (bit v 47)
    d.onMouth fun m => { m with lfsr := if fld v 63 48 = 0 then 0xACE1 else fld v 63 48 }
  else if inRange a 0x500200 0x50027F then
    if reg d a = v then d else drift (setReg d a v)
  else setReg d a v

/-- A committed change of ORDER leaves the contents of device memory undefined (R446). -/
def landOrder (s : State) (v : Word) : State :=
  if fld v 63 62 = regFld s.dev rMemCtrl 63 62 then s
  else { s with mem := [], memGen := s.dev.freeCtr + 1, dev := { s.dev with freeCtr := s.dev.freeCtr + 1 } }

/-- The WAKE sources with their SENSE are copied into Roost (R469). -/
def copyWake (d : Dev) : Dev :=
  { d with roost := { d.roost with
      wakeSet := ((List.range 1280).filter fun s => regBit d (rSrcCfg s) 59).map fun s => (s, srcSense d s) } }

/-- A commit of these values: all land, or none does. -/
def commitValues (s : State) (caps : List (Nat × Word)) : State × Bool :=
  match caps.find? fun c => !memberOk s.dev caps c with
  | some c => (s.onDev fun d => rejectCommit d caps c.1, false)
  | none =>
    let s := match caps.find? fun c => c.1 == rMemCtrl with
      | some c => landOrder s c.2
      | none => s
    let old := s.dev
    let s := s.onDev fun d => each caps d fun d c => landDev d c.1 c.2
    let s := if caps.any fun c => isSumpCfg c.1 then s.onDev (resetPools old) else s
    (if caps.any fun c => isSrcCfg c.1 then s.onDev copyWake else s, true)

/-! ### Capture (R533, R535) -/

/-- The pending shadows that a test picks. -/
def pendingOf (d : Dev) (pick : Nat → Bool) : List (Nat × Word) :=
  d.shadow.filterMap fun e => if pick e.1 then e.2.map fun v => (e.1, v) else none

/-- Captures the pending shadows that a test picks; they are pending no more. -/
def captureShadows (s : State) (pick : Nat → Bool) : State × Bool :=
  let caps := pendingOf s.dev pick
  commitValues (s.onDev fun d => { d with shadow := d.shadow.filter fun e => !pick e.1 }) caps

/-- A commit group of the Guides' own: it writes these shadows and captures them (R396, R535). -/
def guideCommit (s : State) (caps : List (Nat × Word)) : State × Bool :=
  commitValues (s.onDev fun d => { d with shadow := d.shadow.filter fun e => !(caps.any fun c => c.1 == e.1) }) caps

/-- The stream of a stream-level shadowed register. -/
def shadowStream (a : Nat) : Option Nat :=
  if inRange a 0x400000 0x4BFFFF then some ((a - 0x400000) / 0x1000)
  else if inRange a 0x510000 0x51BFFF then some ((a - 0x510000) / 0x100)
  else none

/-- A shadowed register is a member of commit group g. -/
def inGroup (d : Dev) (g a : Nat) : Bool :=
  let w := reg d (rCfgGroup g)
  bit w 63 && (match (regAt a).1 with | some t => t ≤ 36 && bit w t | none => false) &&
    (!bit w 62 || (match shadowStream a with | none => true | some n => n == fld w 55 48))

/-! ### Commands -/

/-- CFG_COMMIT_ALL (R535). -/
def execCfgCommitAll (m : Master) (s : State) : Host.Outcome State Fault Refusal :=
  ok (barGate s m rCfgCommit true fun s => (captureShadows s fun _ => true).1)

/-- CFG_COMMIT_GROUP (R535). -/
def execCfgCommitGroup (m : Master) (g : Fin 16) (s : State) : Host.Outcome State Fault Refusal :=
  ok (barGate s m rCfgCommit true fun s => (captureShadows s fun a => inGroup s.dev g a).1)

/-- The value that a write puts into the shadow of a register: its writable fields, the lock's fields only while it is
open. -/
def shadowValue (d : Dev) (a : Nat) (i : RegInfo) (locked : Bool) (v : Word) : Word :=
  let base := (d.shadow.get none a).getD (reg d a)
  let mask := if locked then i.rw else i.rw ||| i.rl
  (v &&& mask) ||| (base &&& ~~~mask)

end Sys2Proof.Machine
end

