-- ==== Sys2Proof/Machine/Streams.lean ====
section
/-! DEFINITION. STREAM and RASTER commands (R14, R20, R26 to R38, R252, R389 to R392, R396, R551). -/

namespace Sys2Proof.Machine

/-! ### Refusals that stream commands share -/

/-- The target stream is neither ADMITTED nor RUNNING; one that is still arming counts as FREE (R38, R389). -/
def streamOff (d : Dev) (p : Pkt) : Bool := (d.stream p.target).phase != .admitted && (d.stream p.target).phase != .running

/-- The refusals of a command on one stream, up to its parameter words. -/
def streamRefusals (d : Dev) (p : Pkt) (count : Nat) : List (Bool × Nat) :=
  [(hdrBad p count 192, stBadParam), (notOwner p (d.streamOwner p.target), stDenied), (streamOff d p, stBadState)]

/-- The refusals of a query of one stream. -/
def streamQueryRefusals (d : Dev) (p : Pkt) : List (Bool × Nat) :=
  [(hdrBad p 0 192, stBadParam), (notReader p (d.streamOwner p.target), stDenied)]

/-! ### STREAM.OPEN -/

/-- The stream that STREAM.OPEN names: the target, or the lowest FREE stream that the PF owns. -/
def openTarget (d : Dev) (p : Pkt) : Option Nat :=
  if p.target ≠ 0xFFFF then some p.target
  else (List.range 192).find? fun n => d.streamOwner n == 0 && (d.stream n).phase == .free && !(d.stream n).arming

/-- Result word with the Galleries of the parts in [63:32]. -/
def partsWord (st : Stream) : Nat :=
  let g := fun i => (((st.parts[i]?).map fun q => q.gal).getD 0xFF)
  g 0 * 2 ^ 56 + g 1 * 2 ^ 48 + g 2 * 2 ^ 40 + g 3 * 2 ^ 32

/-- The result words of STREAM.OPEN (R390). -/
def openResults (st : Stream) : List Word :=
  [word (partsWord st + st.load), word (st.cfg.bandNs % two32 * 2 ^ 32 + st.cfg.bands)]

/-- A stream that has just been admitted: its set-up runs and its Lantern is arming (R38). -/
def freshStream (c : StreamCfg) (p : RateParams) : Stream :=
  { arming := true, cfg := c, load := c.loadOf 0 1, params := p }

/-- Places and allocates stream n; none: no capacity (R23 to R29, R455). -/
def admitStream (d : Dev) (n : Nat) (c : StreamCfg) (p : RateParams) : Option Dev :=
  let load := c.loadOf 0 1
  let k := (splitOf load c.bands).getD 1
  let x := d.stream n
  let d := d.setStream n { freshStream c p with rateCnt := x.rateCnt, refCnt := x.refCnt, availCnt := x.availCnt }
  (place d n (partLoads load c.bands k)).bind fun d =>
    allocate d 1 n (List.replicate (c.refSlots + 1) (storeUnit c.width c.height))

/-- The effect of an admission beside the placement: Lantern position and resequencer start at zero. -/
def armStream (d : Dev) (n : Nat) : Dev :=
  rephase (clearLantern (setReg d (rMs n oMsReseq) 0) n)

def opStreamOpen (s : State) (p : Pkt) : State × Answer :=
  let d := s.dev
  let c := cfgOf p
  let rp := c.rateOf (p.w 7) (p.w 8) (p.w 9)
  let tgt := openTarget d p
  let extent := c.slotCount * c.slotStride
  match firstRefusal
    [ (hdrBadOpen p 9 192, stBadParam)
    , (p.target == 0xFFFF && p.fn != 0 || p.target != 0xFFFF && notOwner p (d.streamOwner p.target), stDenied) ] with
  | some st => refuse s p st
  | none =>
    if !memGranted d p.fn c.ringBase extent true then denyCommand s p (deniedWindow d p.fn c.ringBase extent true)
    else
      match firstRefusal
        [ (p.target != 0xFFFF && ((d.stream p.target).phase != .free || (d.stream p.target).arming), stBusy)
        , (!openWordsOk p || !c.ok || !c.rateOk rp, stBadParam)
        , (tgt.isNone, stNoContext) ] with
      | some st => refuse s p st
      | none =>
        match tgt.bind fun n => (admitStream d n c rp).map fun d => (n, d) with
        | none => refuse s p stNoCapacity
        | some (n, d) => ({ s with dev := armStream d n }, .later n (openResults (d.stream n)))

/-- Set-up completes (R37, R38): the stream is ADMITTED and the reply is posted. -/
def setupDone (d : Dev) (n : Nat) : Dev :=
  if !(d.stream n).arming then d
  else
    let d := d.onStream n fun s => { s with arming := false, phase := .admitted }
    completeOutstanding d (fun o => fld o.hdr 63 48 == 0x0201 && o.target == n) fun _ => stOk

/-! ### STREAM.CLOSE (R33 to R36) -/

def opStreamClose (s : State) (p : Pkt) : State × Answer :=
  let st := s.dev.stream p.target
  match firstRefusal
    [ (hdrBad p 1 192, stBadParam), (notOwner p (s.dev.streamOwner p.target), stDenied)
    , (st.phase == .free, stBadState), (st.phase == .closing, stBusy), (!within (p.w 1) 1, stBadParam) ] with
  | some c => refuse s p c
  | none => (keepRecords (·.onDev fun d => beginClose d p.target (p.b 1 0)) s, .later p.target [])

/-- Nothing of a closing stream is left: no band waits for coding or a verdict, Mouth stores none of its bands (R34). -/
def closeReady (d : Dev) (n : Nat) : Bool :=
  let st := d.stream n
  st.phase == .closing && st.bands.isEmpty && st.held.isEmpty && !(d.mouth.stored.any fun b => b.stream == n)
    && (List.range 26).all fun g => !((d.gal g).fifo.any fun it => it.stream == n)

def closeDone (d : Dev) (n : Nat) : Dev :=
  if closeReady d n then
    completeOutstanding (freeStream d n) (fun o => fld o.hdr 63 48 == 0x0202 && o.target == n) fun _ => stOk
  else d

/-! ### STREAM.QUERY, STREAM.ASSIGN, STREAM.CLEAR -/

def Phase.num (x : Phase) : Nat := match x with | .free => 0 | .admitted => 1 | .running => 2 | .closing => 3

/-- `MOUTH_RESEQ` and `LANTERN_ROWS` are read as they stand; words 4 to 8 are those of R252. -/
def opStreamQuery (s : State) (p : Pkt) : State × Answer :=
  let st := s.dev.stream p.target
  simply s p (streamQueryRefusals s.dev p) fun s => (s,
    [ word (st.phase.num * 2 ^ 62 + s.dev.streamOwner p.target % 256 * 2 ^ 54 + st.load), word (partsWord st)
    , reg s.dev (rMs p.target oMsReseq), reg s.dev (rLan p.target oLanRows) ] ++ [4, 5, 6, 7, 8].map fun w => st.availCnt.get 0 w)

/-- Ownership of a stream or context moves (R20, R459). -/
def assign (d : Dev) (ctx : Bool) (t m : Nat) : Dev :=
  if ctx then d.setCtxOwner t m
  else ownerChanged (d.setStreamOwner t m) [4 * t, 4 * t + 1, 4 * t + 2, 4 * t + 3]

def opStreamAssign (s : State) (p : Pkt) : State × Answer :=
  simply s p
    [ (hdrBad p 1 (if p.b 1 63 then 96 else 192), stBadParam), (p.fn != 0, stDenied)
    , (!within (p.w 1) (ones 63 63 ||| ones 7 0) || !s.dev.functionOn (p.f 1 7 0), stBadParam) ]
    fun s => (s.onDev fun d => assign d (p.b 1 63) p.target (p.f 1 7 0), [])

/-- Clears the error counters of a table whose bits are set, for words lo to hi. -/
def clearCnt (t : Tab Word) (v : Word) (ws : List Nat) : Tab Word := ws.foldl (fun t w => if bit v w then t.set 0 w 0 else t) t

def opStreamClear (s : State) (p : Pkt) : State × Answer :=
  simply s p (streamRefusals s.dev p 1 ++ [(!within (p.w 1) (ones 8 7), stBadParam)]) fun s =>
    (keepRecords (·.onDev fun d => d.onStream p.target fun x => { x with availCnt := clearCnt x.availCnt (p.w 1) [7, 8] }) s, [])

/-! ### RASTER (R396) -/

def opRasterConfig (s : State) (p : Pkt) : State × Answer :=
  let n := p.target
  let ok := within (p.w 1) (ones 49 44 ||| ones 31 0) && within (p.w 2) (ones 63 32 ||| ones 15 0) && within (p.w 3) (ones 31 0)
  match firstRefusal (streamRefusals s.dev p 3 ++ [(!ok, stBadParam)]) with
  | some c => refuse s p c
  | none =>
    let r := guideCommit s [(rLan n oLanCtrl, p.w 1), (rLan n oLanSync, p.w 2), (rLan n oLanStall, p.w 3)]
    if r.2 then accept r.1 p else refuse r.1 p stBadParam

def opRasterQuery (s : State) (p : Pkt) : State × Answer :=
  simply s p [(hdrBad p 0 192, stBadParam), (notOwner p (s.dev.streamOwner p.target), stDenied)] fun s =>
    (s, (List.range 10).map fun i => reg s.dev (rLan p.target (8 + 8 * i)))

/-- The counters that `LANTERN_CNT_CLR` clears (R551). -/
def lanClears (n : Nat) : List (Nat × Nat) :=
  [(0, rLan n oLanIgnored), (1, rLan n oLanSkipped), (2, rLan n oLanLate), (3, rLan n oLanRepeat)]

def opRasterClear (s : State) (p : Pkt) : State × Answer :=
  simply s p (streamRefusals s.dev p 1 ++ [(!within (p.w 1) (ones 3 0), stBadParam)]) fun s =>
    (s.onDev fun d => clrErrs d (p.w 1) (lanClears p.target), [])

/-! ### Commands -/

/-- STREAM_OPEN (R390). -/
def execStreamOpen (fn : Master) (hdr : Word) (ps : List Word) (s : State) : Host.Outcome State Fault Refusal :=
  ok (submit opStreamOpen (mkPkt 0x0201 fn hdr ps) s)

/-- STREAM_CLOSE (R33). -/
def execStreamClose (fn : Master) (hdr : Word) (ps : List Word) (s : State) : Host.Outcome State Fault Refusal :=
  ok (submit opStreamClose (mkPkt 0x0202 fn hdr ps) s)

/-- STREAM_QUERY (R391). -/
def execStreamQuery (fn : Master) (hdr : Word) (ps : List Word) (s : State) : Host.Outcome State Fault Refusal :=
  ok (submit opStreamQuery (mkPkt 0x0203 fn hdr ps) s)

/-- STREAM_ASSIGN (R20, R392). -/
def execStreamAssign (fn : Master) (hdr : Word) (ps : List Word) (s : State) : Host.Outcome State Fault Refusal :=
  ok (submit opStreamAssign (mkPkt 0x0204 fn hdr ps) s)

/-- STREAM_CLEAR (R252). -/
def execStreamClear (fn : Master) (hdr : Word) (ps : List Word) (s : State) : Host.Outcome State Fault Refusal :=
  ok (submit opStreamClear (mkPkt 0x0205 fn hdr ps) s)

/-- RASTER_CONFIG (R396). -/
def execRasterConfig (fn : Master) (hdr : Word) (ps : List Word) (s : State) : Host.Outcome State Fault Refusal :=
  ok (submit opRasterConfig (mkPkt 0x0301 fn hdr ps) s)

/-- RASTER_QUERY (R396). -/
def execRasterQuery (fn : Master) (hdr : Word) (ps : List Word) (s : State) : Host.Outcome State Fault Refusal :=
  ok (submit opRasterQuery (mkPkt 0x0302 fn hdr ps) s)

/-- RASTER_CLEAR (R551). -/
def execRasterClear (fn : Master) (hdr : Word) (ps : List Word) (s : State) : Host.Outcome State Fault Refusal :=
  ok (submit opRasterClear (mkPkt 0x0303 fn hdr ps) s)

end Sys2Proof.Machine
end

