-- ==== Sys2Proof/Machine/Rates.lean ====
section
/-! DEFINITION. RATE and REF commands (R134, R156 to R166, R184 to R193). -/

namespace Sys2Proof.Machine

/-! ### RATE -/

/-- The parameters a RATE command lands on: those of the last staged RATE.SET, else those in force (R165). -/
def landingParams (st : Stream) : RateParams :=
  st.staged.foldl (fun q x => match x with | .rateSet p => p | _ => q) st.params

/-- Stages a command (R166). -/
def stage (d : Dev) (n : Nat) (x : Staged) : Dev := d.onStream n fun s => { s with staged := s.staged ++ [x] }

/-- The rate parameters that the three words of RATE.SET spell for stream n. -/
def rateSetOf (d : Dev) (p : Pkt) : RateParams := (d.stream p.target).cfg.rateOf (p.w 1) (p.w 2) (p.w 3)

def opRateSet (s : State) (p : Pkt) : State × Answer :=
  let rp := rateSetOf s.dev p
  let okay := rateWordsOk (p.w 1) (p.w 2) (p.w 3) && (s.dev.stream p.target).cfg.rateOk rp
  simply s p (streamRefusals s.dev p 3 ++ [(!okay, stBadParam)]) fun s =>
    (s.onDev fun d => onRef (stage d p.target (.rateSet rp)) p.target fun r => { r with keyForced := true }, [])

/-- The words of RATE.TARGET meet their limits (R134, R165). -/
def rateTargetOk (st : Stream) (p : Pkt) : Bool :=
  let q := landingParams st
  within (p.w 1) (ones 63 32 ||| ones 7 0) && q.mode != 0
    && (p.f 1 63 32 == 0 || st.cfg.targetOk (p.f 1 63 32) q.hrdRate) && (p.f 1 7 0 == 255 || decide (p.f 1 7 0 ≤ 51))

def opRateTarget (s : State) (p : Pkt) : State × Answer :=
  simply s p (streamRefusals s.dev p 1 ++ [(!rateTargetOk (s.dev.stream p.target) p, stBadParam)]) fun s =>
    (s.onDev fun d => stage d p.target (.target (p.f 1 63 32) (p.f 1 7 0)), [])

def opRateLimits (s : State) (p : Pkt) : State × Answer :=
  let okay := within (p.w 1) (ones 63 48) && decide (p.f 1 63 56 ≤ p.f 1 55 48) && decide (p.f 1 55 48 ≤ 51)
  simply s p (streamRefusals s.dev p 1 ++ [(!okay, stBadParam)]) fun s =>
    (s.onDev fun d => stage d p.target (.limits (p.f 1 63 56) (p.f 1 55 48)), [])

/-- OFFSET and FLOOR of class c in word 1 of RATE.ROI. -/
def roiOffset (p : Pkt) (c : Nat) : Int := signedOf 8 (p.f 1 (16 * c + 15) (16 * c + 8))
def roiFloor (p : Pkt) (c : Nat) : Nat := p.f 1 (16 * c + 7) (16 * c)

/-- Rectangle r in word 2 + r of RATE.ROI. -/
def roiRect (p : Pkt) (r : Nat) : RoiRect :=
  { en := p.b (2 + r) 63, cls := p.f (2 + r) 57 56, x0 := p.f (2 + r) 31 24, y0 := p.f (2 + r) 23 16
    x1 := p.f (2 + r) 15 8, y1 := p.f (2 + r) 7 0 }

/-- An enabled rectangle meets its limits; the fields of another are not checked (R165). -/
def rectOk (c : StreamCfg) (r : RoiRect) : Bool :=
  !r.en || (r.cls != 0 && decide (r.x0 ≤ r.x1) && decide (r.x1 < c.wsb) && decide (r.y0 ≤ r.y1) && decide (r.y1 < c.hsb))

def roiOf (p : Pkt) : Roi :=
  { offsets := (List.range 4).map (roiOffset p), floors := (List.range 4).map (roiFloor p)
    rects := (List.range 8).map (roiRect p) }

def roiOk (c : StreamCfg) (p : Pkt) : Bool :=
  ((List.range 4).all fun k => decide (-16 ≤ roiOffset p k) && decide (roiOffset p k ≤ 16) && decide (roiFloor p k ≤ 51))
    && (List.range 8).all fun r => within (p.w (2 + r)) (ones 63 63 ||| ones 57 56 ||| ones 31 0) && rectOk c (roiRect p r)

def opRateRoi (s : State) (p : Pkt) : State × Answer :=
  simply s p (streamRefusals s.dev p 9 ++ [(!roiOk (s.dev.stream p.target).cfg p, stBadParam)]) fun s =>
    (s.onDev fun d => stage d p.target (.roi (roiOf p)), [])

/-- MAP_BASE and MAP_STRIDE meet their limits, whether or not EN is set (R165). -/
def mapOk (c : StreamCfg) (p : Pkt) : Bool :=
  within (p.w 2) (ones 63 32 ||| ones 0 0) && (p.w 1).toNat % 4096 == 0 && p.f 2 63 32 % 4096 == 0
    && decide (8 + c.wsb * c.hsb ≤ p.f 2 63 32)

def opRateMap (s : State) (p : Pkt) : State × Answer :=
  let c := (s.dev.stream p.target).cfg
  let base := (p.w 1).toNat
  let len := c.slotCount * p.f 2 63 32
  match firstRefusal [(hdrBad p 2 192, stBadParam), (notOwner p (s.dev.streamOwner p.target), stDenied)] with
  | some st => refuse s p st
  | none =>
    if (s.dev.stream p.target).phase != .free && !memGranted s.dev p.fn base len true then
      denyCommand s p (deniedWindow s.dev p.fn base len true) (some p.target)
    else simply s p [(streamOff s.dev p, stBadState), (!mapOk c p, stBadParam)] fun s =>
      (s.onDev fun d => stage d p.target (.map { base := base, stride := p.f 2 63 32, en := p.b 2 0 }), [])

/-- RING and RECORDS of a record ring meet their limits: 64-byte aligned, a power of two of records (R165, R354). -/
def ringWordsOk (w1 w2 : Word) (lo hi : Nat) : Bool :=
  within w2 (ones 63 32 ||| ones 0 0) && w1.toNat % 64 == 0 && isPow2 (fld w2 63 32) && inRange (fld w2 63 32) lo hi

def ringOf (w1 w2 : Word) : RecordRing := { base := w1.toNat, records := fld w2 63 32, en := bit w2 0 }

def opRateReport (s : State) (p : Pkt) : State × Answer :=
  simply s p (streamRefusals s.dev p 2 ++ [(!ringWordsOk (p.w 1) (p.w 2) 16 65536, stBadParam)]) fun s =>
    (s.onDev fun d => d.onStream p.target fun x => { x with report := ringOf (p.w 1) (p.w 2) }, [])

def opRateQuery (s : State) (p : Pkt) : State × Answer :=
  let st := s.dev.stream p.target
  simply s p (streamQueryRefusals s.dev p) fun s => (s,
    word (st.rate.d % two32 * two32 + signedBits 32 st.rate.v) :: [1, 2, 3, 4, 5, 6, 7, 8, 9].map (fun w => st.rateCnt.get 0 w)
      ++ [word (st.qLast * 2 ^ 56 + st.params.mode)])

def opRateClear (s : State) (p : Pkt) : State × Answer :=
  simply s p (streamRefusals s.dev p 1 ++ [(!within (p.w 1) (ones 9 3), stBadParam)]) fun s =>
    (keepRecords (·.onDev fun d => d.onStream p.target fun x => { x with rateCnt := clearCnt x.rateCnt (p.w 1) [3, 4, 5, 6, 7, 8, 9] }) s, [])

/-! ### REF -/

/-- The parameters that REF.CONFIG spells; zero fields as R193 says. -/
def refCfgOf (p : Pkt) : RefCfg :=
  { policy := p.f 1 63 62, refreshPics := if p.f 1 55 48 = 0 then 8 else p.f 1 55 48
    ackTmoMs := if p.f 1 31 0 = 0 then 500 else p.f 1 31 0, keyMinMs := p.f 2 63 32, recovKeyMinMs := p.f 2 31 0
    refreshMinMs := p.f 3 31 0 }

def refCfgOk (p : Pkt) : Bool :=
  let c := refCfgOf p
  within (p.w 1) (ones 63 62 ||| ones 55 48 ||| ones 31 0) && within (p.w 3) (ones 31 0) && decide (c.policy ≤ 1)
    && inRange c.refreshPics 2 32 && inRange c.ackTmoMs 50 10000 && decide (c.keyMinMs ≤ 60000)
    && decide (c.recovKeyMinMs ≤ 10000) && decide (c.refreshMinMs ≤ 60000)

def opRefConfig (s : State) (p : Pkt) : State × Answer :=
  simply s p (streamRefusals s.dev p 3 ++ [(!refCfgOk p, stBadParam)]) fun s =>
    (s.onDev fun d => stage d p.target (.refConfig (refCfgOf p)), [])

def opRefKey (s : State) (p : Pkt) : State × Answer :=
  simply s p (streamRefusals s.dev p 1 ++ [(!within (p.w 1) 1, stBadParam)]) fun s =>
    (keepRecords (·.onDev fun d => keyRequest d p.target (p.b 1 0)) s, [])

def opRefRefresh (s : State) (p : Pkt) : State × Answer :=
  simply s p (streamRefusals s.dev p 0) fun s => (keepRecords (·.onDev fun d => refreshRequest d p.target) s, [])

/-- The recipient in [45:32] of word 1 is not attached to the target stream. -/
def detached (d : Dev) (p : Pkt) : Bool := !((d.recip (p.f 1 45 32)).valid && (d.recip (p.f 1 45 32)).stream == p.target)

def opRefAck (s : State) (p : Pkt) : State × Answer :=
  simply s p (streamRefusals s.dev p 1 ++ [(!within (p.w 1) (ones 45 0) || detached s.dev p, stBadParam)]) fun s =>
    (keepRecords (·.onDev fun d => applyAck d (p.f 1 45 32) (p.f 1 31 0)) s, [])

def opRefLoss (s : State) (p : Pkt) : State × Answer :=
  simply s p
    (streamRefusals s.dev p 1 ++ [(!within (p.w 1) (ones 63 48 ||| ones 45 0) || detached s.dev p, stBadParam)]) fun s =>
    (keepRecords (·.onDev fun d => applyLoss d (p.f 1 45 32) (p.f 1 63 48) (p.f 1 31 0)) s, [])

/-- Result word 0 of REF.QUERY (R190). -/
def refWord0 (d : Dev) (n : Nat) : Word :=
  let r := (d.stream n).ref
  let mask := fun (f : Nat → Bool) => total ((List.range 8).map fun g => (f g).toNat * 2 ^ g)
  word ((anchorOf r).getD 0 % two32 * two32 + mask (markedIn d n) * 2 ^ 24 + mask (fun g => r.pending.getD g false) * 2 ^ 16
    + (anchorOf r).isSome.toNat)

def opRefQuery (s : State) (p : Pkt) : State × Answer :=
  let st := s.dev.stream p.target
  simply s p (streamQueryRefusals s.dev p) fun s => (s,
    refWord0 s.dev p.target :: [1, 2, 3, 4, 5, 6, 7, 8, 9].map fun w => st.refCnt.get 0 w)

def opRefClear (s : State) (p : Pkt) : State × Answer :=
  simply s p (streamRefusals s.dev p 1 ++ [(!within (p.w 1) (ones 9 5), stBadParam)]) fun s =>
    (keepRecords (·.onDev fun d => d.onStream p.target fun x => { x with refCnt := clearCnt x.refCnt (p.w 1) [5, 6, 7, 8, 9] }) s, [])

/-! ### Commands -/

/-- RATE_SET (R134, R165). -/
def execRateSet (fn : Master) (hdr : Word) (ps : List Word) (s : State) : Host.Outcome State Fault Refusal :=
  ok (submit opRateSet (mkPkt 0x0401 fn hdr ps) s)

/-- RATE_TARGET (R165). -/
def execRateTarget (fn : Master) (hdr : Word) (ps : List Word) (s : State) : Host.Outcome State Fault Refusal :=
  ok (submit opRateTarget (mkPkt 0x0402 fn hdr ps) s)

/-- RATE_LIMITS (R165). -/
def execRateLimits (fn : Master) (hdr : Word) (ps : List Word) (s : State) : Host.Outcome State Fault Refusal :=
  ok (submit opRateLimits (mkPkt 0x0403 fn hdr ps) s)

/-- RATE_ROI (R156, R157, R165). -/
def execRateRoi (fn : Master) (hdr : Word) (ps : List Word) (s : State) : Host.Outcome State Fault Refusal :=
  ok (submit opRateRoi (mkPkt 0x0404 fn hdr ps) s)

/-- RATE_MAP (R158, R165, R435). -/
def execRateMap (fn : Master) (hdr : Word) (ps : List Word) (s : State) : Host.Outcome State Fault Refusal :=
  ok (submit opRateMap (mkPkt 0x0405 fn hdr ps) s)

/-- RATE_REPORT (R161, R165). -/
def execRateReport (fn : Master) (hdr : Word) (ps : List Word) (s : State) : Host.Outcome State Fault Refusal :=
  ok (submit opRateReport (mkPkt 0x0406 fn hdr ps) s)

/-- RATE_QUERY (R162). -/
def execRateQuery (fn : Master) (hdr : Word) (ps : List Word) (s : State) : Host.Outcome State Fault Refusal :=
  ok (submit opRateQuery (mkPkt 0x0407 fn hdr ps) s)

/-- RATE_CLEAR (R162, R165). -/
def execRateClear (fn : Master) (hdr : Word) (ps : List Word) (s : State) : Host.Outcome State Fault Refusal :=
  ok (submit opRateClear (mkPkt 0x0408 fn hdr ps) s)

/-- REF_CONFIG (R192, R193). -/
def execRefConfig (fn : Master) (hdr : Word) (ps : List Word) (s : State) : Host.Outcome State Fault Refusal :=
  ok (submit opRefConfig (mkPkt 0x0501 fn hdr ps) s)

/-- REF_KEY (R184). -/
def execRefKey (fn : Master) (hdr : Word) (ps : List Word) (s : State) : Host.Outcome State Fault Refusal :=
  ok (submit opRefKey (mkPkt 0x0502 fn hdr ps) s)

/-- REF_REFRESH (R186). -/
def execRefRefresh (fn : Master) (hdr : Word) (ps : List Word) (s : State) : Host.Outcome State Fault Refusal :=
  ok (submit opRefRefresh (mkPkt 0x0503 fn hdr ps) s)

/-- REF_ACK (R174). -/
def execRefAck (fn : Master) (hdr : Word) (ps : List Word) (s : State) : Host.Outcome State Fault Refusal :=
  ok (submit opRefAck (mkPkt 0x0504 fn hdr ps) s)

/-- REF_LOSS (R180). -/
def execRefLoss (fn : Master) (hdr : Word) (ps : List Word) (s : State) : Host.Outcome State Fault Refusal :=
  ok (submit opRefLoss (mkPkt 0x0505 fn hdr ps) s)

/-- REF_QUERY (R190). -/
def execRefQuery (fn : Master) (hdr : Word) (ps : List Word) (s : State) : Host.Outcome State Fault Refusal :=
  ok (submit opRefQuery (mkPkt 0x0506 fn hdr ps) s)

/-- REF_CLEAR (R190, R193). -/
def execRefClear (fn : Master) (hdr : Word) (ps : List Word) (s : State) : Host.Outcome State Fault Refusal :=
  ok (submit opRefClear (mkPkt 0x0507 fn hdr ps) s)

end Sys2Proof.Machine
end

