-- ==== Sys2Proof/Machine/Ingest.lean ====
section
/-! DEFINITION. Ingest decoding and the DECODE commands (R16, R17, R130, R131, R208 to R225, R303, R420). -/

namespace Sys2Proof.Machine

/-! ### Internal writes of device memory (R434, R439) -/

/-- Stores bytes for a master that the access tables grant every window of the extent; otherwise the write is discarded
as a denied one. -/
def storeAs (s : State) (m a : Nat) (bs : List Byte) (stream : Option Nat := none) : State × Bool :=
  if memGranted s.dev m a bs.length true then (s.store a bs, true)
  else (s.onDev fun d => deny d m 1 (deniedWindow d m a bs.length true) 1 a stream, false)

/-- Stores bytes at an offset of a byte ring. -/
def storeRing (s : State) (m base size off : Nat) (bs : List Byte) : State :=
  let k := size - off % max 1 size
  let s := (storeAs s m (base + off % max 1 size) (bs.take k)).1
  if bs.length ≤ k then s else (storeAs s m base (bs.drop k)).1

/-! ### The input buffer (R209, R210, R303, R420) -/

/-- Bytes of an AU record: its 32-byte header and the unit padded to 16 bytes. -/
def auBytes (len : Nat) : Nat := 32 + ceilDiv len 16 * 16

/-- Bytes that the unit in progress holds. -/
def openBytes (x : Ctx) : Nat := match x.auOpen with | some (n, _) => if x.auDrop then 0 else auBytes n | none => 0

/-- The unit in progress would fit with n more bytes. -/
def auFits (x : Ctx) (n : Nat) : Bool :=
  let len := (x.auOpen.map fun a => a.1).getD 0
  decide (x.fill - openBytes x + auBytes (len + n) ≤ x.inSize)

/-- Begins a unit if none is in progress: its header takes room at once. -/
def auBegin (x : Ctx) : Ctx :=
  match x.auOpen with
  | some _ => x
  | none => { x with auOpen := some (0, false), auDrop := false, fill := x.fill + auBytes 0 }

/-- The unit in progress is marked LOST. -/
def auLose (x : Ctx) : Ctx := let x := auBegin x; { x with auOpen := x.auOpen.map fun a => (a.1, true) }

/-- A unit was dropped whole, of which nothing is decoded. -/
def AccessUnit.empty (u : AccessUnit) : Bool := u.lost && u.length == 0

/-- Master m appends bytes to the unit in progress. One that does not fit is dropped whole at its end. -/
def auAppend (s : State) (m c : Nat) (bs : List Byte) : State :=
  let x := auBegin (s.dev.ctx c)
  let len := (x.auOpen.map fun a => a.1).getD 0
  if x.auDrop || !auFits x bs.length then
    s.onDev fun d => d.setCtx c { x with auDrop := true, fill := x.fill - openBytes x }
  else
    let s := s.onDev fun d => d.setCtx c { x with
      auOpen := x.auOpen.map fun a => (a.1 + bs.length, a.2), fill := x.fill - openBytes x + auBytes (len + bs.length) }
    storeRing s m x.inBase x.inSize (x.wr + 32 + len) bs

/-- The unit in progress is complete: its header is written, or it is dropped, counted and reported (R210, R303). `net`:
network input, whose lost and dropped units R210 counts. -/
def auComplete (s : State) (m c : Nat) (net : Bool) (pts : Nat) : State :=
  let x := s.dev.ctx c
  match x.auOpen with
  | none => s
  | some (len, lost) =>
    let drop := x.auDrop || !auFits x 0
    let u : AccessUnit :=
      { number := x.auNumber, length := if drop then 0 else len, lost := lost || drop, pts := if net then pts else x.auNumber
        time := timeWord s.dev, size := if drop then 0 else auBytes len, at_ := s.dev.now, alone := x.units.all AccessUnit.empty }
    let hdr := [word (len * two32 + lost.toNat), word (u.pts % two32 * two32), timeWord s.dev, 0]
    let s' := s.onDev fun d =>
      let d := d.setCtx c { x with
        auOpen := none, auDrop := false, auNumber := x.auNumber + 1, units := x.units ++ [u]
        wr := if drop then x.wr else (x.wr + u.size) % max 1 x.inSize
        fill := if drop then x.fill - openBytes x else x.fill - openBytes x + u.size }
      if net && u.lost then raise (ctxErr d c 7 1) 1246 2 c else d
    let s' := if drop then s' else storeRing s' m x.inBase x.inSize x.wr ((hdr.map bytesLE).flatten)
    s'.onDev fun d => pauseUpdate d (192 + c)

/-! ### The ingest dispatcher (R212) -/

/-- The healthy Galleries, rising. -/
def healthyList (d : Dev) : List Nat := (List.range 26).filter fun g => healthy d g

/-- The superblocks of a piece of `len` thousandths from `pos` on, share by share: the later share is served first. A superblock that lies
across two shares counts on the share of its end (DESIGN CHOICE, notes/assumptions/22.md). -/
def piecesOf (fuel : Nat) (l : List Nat) (pos done len : Nat) : List (Nat × Nat) :=
  match fuel with
  | 0 => []
  | k + 1 =>
    if len = 0 then []
    else
      let t := min len (62500 - pos % 62500)
      piecesOf k l (pos + t) (done + t) (len - t) ++ [(l.getD (pos / 62500) (l.getLastD 0), (done + t) / 1000 - done / 1000)]

/-- After a lost AV1 access unit every slot is taken as not clean (R218). -/
def lostUnit (x : Ctx) : Ctx :=
  { x with gapSince := true, pics := if x.codec = 0 then x.pics.map fun q => { q with clean := false } else x.pics }

/-- Units without any data give no output: they leave the queue and count as lost before the next frame. -/
def skipLost (fuel : Nat) (x : Ctx) : Ctx :=
  match fuel with
  | 0 => x
  | k + 1 =>
    match x.units with
    | u :: rest => if u.empty then skipLost k (lostUnit { x with units := rest, fill := x.fill - u.size }) else x
    | [] => x

/-- A unit of the context waits for decoding. -/
def Ctx.hasInput (x : Ctx) : Bool := x.units.any fun u => !u.empty

/-- Lays the assured contexts over the shares of 62.5 superblocks: credits and positions in thousandths. The allotment of the period that
ends went into the frame in progress, or lapses for want of input. -/
def layContexts (d : Dev) : Dev :=
  let l := healthyList d
  ((List.range 96).foldl (fun st c =>
    let d : Dev := st.1
    let x := d.ctx c
    if x.phase == .free || !x.assured then st
    else
      let credit := x.credit + x.load
      let give := credit / 1000
      (d.setCtx c { x with
        credit := credit % 1000, given := give, lateRaised := false, pieces := piecesOf 3 l st.2 0 (give * 1000)
        work := if x.hasInput then x.work ++ x.pieces else [] }, st.2 + give * 1000))
    (d, 0)).1

/-- The next ingest period begins, at the next whole millisecond of device time not yet served (R574). -/
def ingestPeriod (d : Dev) : Dev :=
  layContexts { advance d ((d.ingestPeriods + 1) * 1000000) with ingestPeriods := d.ingestPeriods + 1 }

/-- What n superblocks of a frame use of the pieces laid for it, and what is left. -/
def takeWork (n : Nat) (l : List (Nat × Nat)) : List (Nat × Nat) × List (Nat × Nat) :=
  match l with
  | [] => ([], [])
  | (g, k) :: r =>
    if n = 0 then ([], l)
    else if n < k then ([(g, n)], (g, k - n) :: r)
    else let t := takeWork (n - k) r; ((g, k) :: t.1, t.2)

/-! ### Decoded frames (R213 to R221) -/

/-- The picture of the reference slots or the picture buffer at a position counted back in decode order from 1. -/
def picAt (x : Ctx) (r : Nat) : Option HeldPic := x.pics.find? fun p => p.inBuffer && p.number + r == x.decoded

/-- The substitute: the most recent clean picture of a size, in decode order. -/
def substitute (x : Ctx) (w h : Nat) : Option HeldPic := x.pics.find? fun q => q.clean && q.width == w && q.height == h

/-- The pictures held after a further one: those of the codec's reference slots or buffer, which others leave as the syntax says, and the
most recent clean one of each size. -/
def holdPic (x : Ctx) (f : DecodedFrame) (p : HeldPic) : List HeldPic :=
  let leaves := fun (q : HeldPic) => f.drops.any fun r => q.number + r == x.decoded
  let l := (p :: x.pics).map fun q => if leaves q then { q with inBuffer := false } else q
  let newest := fun (q : HeldPic) => l.find? fun y => y.clean && y.width == q.width && y.height == q.height
  l.filter fun q => q.inBuffer || q.clean && (newest q).map HeldPic.number == some q.number

/-- The picture that an AV1 show_existing_frame shows again. -/
def again (x : Ctx) (f : DecodedFrame) : Option HeldPic := f.existing.bind (picAt x)

/-- References that are not held: those the decoder reports and those that the slots or the buffer do not hold (R218). -/
def missingRefs (x : Ctx) (f : DecodedFrame) : Nat := f.missing + (f.refs.filter fun r => (picAt x r).isNone).length

/-- A sequence header, VPS or SPS lies within R130. -/
def headerOk (codec : Nat) (h : StreamHeader) : Bool :=
  decide (h.width ≤ 8192) && decide (h.height ≤ 8192) &&
    if codec = 0 then
      h.profile == 0 && (h.depth == 8 || h.depth == 10) && decide (h.chroma ≤ 1) && (decide (h.level ≤ 19) || h.level == 31) && !h.largeScale
    else if codec = 1 then
      (h.profile == 1 && h.depth == 8 || h.profile == 2 && decide (h.depth ≤ 10)) && h.chroma == 1 && decide (h.level ≤ 186) && !h.extension
    else
      (h.profile == 66 && h.constrained || h.profile == 77 || h.profile == 100) && h.depth == 8 && decide (h.chroma ≤ 1)
        && decide (h.level ≤ 52) && !h.fields && !h.flexible

/-- A header arrives: while it lies outside R130, the pictures that depend on it are undecodable (R131). -/
def headerSeen (x : Ctx) (f : DecodedFrame) : Ctx :=
  match f.header with
  | none => x
  | some h => if headerOk x.codec h then { x with badHeader := false, seqW := h.width, seqH := h.height } else { x with badHeader := true }

/-- The frame comes with a header outside R130. -/
def unsupported (x : Ctx) (f : DecodedFrame) : Bool := match f.header with | some h => !headerOk x.codec h | none => false

/-- The frame belongs to operating points that DECODE.OPEN has not selected: it is dropped (R130). -/
def offPoint (x : Ctx) (f : DecodedFrame) : Bool := x.codec == 0 && !f.points.isEmpty && !f.points.contains x.opPoint

/-- The picture cannot be decoded at all (R131, R220). -/
def cannotDecode (x : Ctx) (f : DecodedFrame) : Bool :=
  match f.existing with
  | some _ => (again x f).isNone
  | none => f.undecodable || x.badHeader || decide (x.maxW < f.width) || decide (x.maxH < f.height)

/-- Width and height of the frame: one that cannot be decoded has the size of the last valid sequence header (R220). -/
def frameSize (x : Ctx) (f : DecodedFrame) : Nat × Nat :=
  match again x f with
  | some p => (p.width, p.height)
  | none => if cannotDecode x f && x.seqW != 0 then (x.seqW, x.seqH) else (f.width, f.height)

/-- Superblocks concealed: those damaged, and those of unreadable memory lines. -/
def concealedSbs (x : Ctx) (f : DecodedFrame) : Nat := f.damaged.length + x.hurt

/-- Input damage within the picture (R219). -/
def damagedFrame (x : Ctx) (u : AccessUnit) (f : DecodedFrame) : Bool := u.lost || f.syntaxErrors != 0 || concealedSbs x f != 0

/-- The picture is clean: complete, without error, every reference clean. -/
def cleanFrame (x : Ctx) (u : AccessUnit) (f : DecodedFrame) : Bool :=
  !cannotDecode x f && !damagedFrame x u f && missingRefs x f == 0
    && (match again x f with
      | some p => p.clean
      | none => f.key || f.refs.all fun r => ((picAt x r).map fun q => q.clean).getD false)

/-- The frame missed its bound: one frame interval and 2 ms after the unit completed, for an assured context, a unit that
found none waiting, a frame within the maximum size and 24 healthy Galleries (R213). -/
def lateFrame (d : Dev) (x : Ctx) (y : Shown) : Bool :=
  x.assured && y.unit.alone && y.fits && decide (24 ≤ (healthyList d).length)
    && decide ((y.unit.at_ + 2000000) * x.rateNum + 1000000000 * x.rateDen < d.now * x.rateNum)

/-- Output depth of an OUT_FORMAT. -/
def outDepth (fmt : Nat) : Nat := if fmt = 1 then 8 else 10

/-! ### Output samples (R215, R219, R220) -/

/-- A mid-grey picture of a size and depth. -/
def greyPicture (w h depth : Nat) : Picture :=
  let plane := fun (n : Nat) => List.replicate n (2 ^ (depth - 1))
  { luma := plane (w * h), cb := plane (ceilDiv w 2 * ceilDiv h 2), cr := plane (ceilDiv w 2 * ceilDiv h 2) }

/-- What stands in for what is missing: the samples of the substitute, or mid-grey; width, height, depth and samples. -/
def standIn (x : Ctx) (f : DecodedFrame) : Nat × Nat × Nat × Picture :=
  let z := frameSize x f
  match substitute x z.1 z.2 with
  | some p => (z.1, z.2, p.depth, p.picture)
  | none => (z.1, z.2, f.depth, greyPicture z.1 z.2 f.depth)

def substitutePicture (x : Ctx) (f : DecodedFrame) : Nat × Picture := (standIn x f).2.2

/-- A plane of side w whose damaged superblocks are taken from the co-located samples of a plane q of w1 by h1; k is 64 in luma and 32 in
chroma. DESIGN CHOICE (notes/assumptions/93.md): a smaller reference continues its edge samples. -/
def patched (w k perRow : Nat) (damaged : List Nat) (p : List Nat) (w1 h1 : Nat) (q : List Nat) : List Nat :=
  p.mapIdx fun i v =>
    let c := i % max 1 w
    let r := i / max 1 w
    if damaged.contains (r / k * perRow + c / k) then q.getD (min r (h1 - 1) * w1 + min c (w1 - 1)) v else v

/-- The decoded picture with its damaged superblocks concealed from its first reference, or from the substitute: in an intra picture, and
where that reference was never received (R218, R219). -/
def concealedPicture (x : Ctx) (f : DecodedFrame) : Picture :=
  let q := match f.refs.head?.bind (picAt x) with
    | some p => (p.width, p.height, p.depth, p.picture)
    | none => standIn x f
  let n := ceilDiv f.width 64
  let chroma := patched (ceilDiv f.width 2) 32 n f.damaged
  { luma := patched f.width 64 n f.damaged f.picture.luma q.1 q.2.1 q.2.2.2.luma
    cb := chroma f.picture.cb (ceilDiv q.1 2) (ceilDiv q.2.1 2) q.2.2.2.cb
    cr := chroma f.picture.cr (ceilDiv q.1 2) (ceilDiv q.2.1 2) q.2.2.2.cr }

/-- The picture that stays as a reference, with its depth; monochrome ones carry mid-grey chroma. -/
def keptPicture (x : Ctx) (f : DecodedFrame) : Nat × Picture :=
  match again x f with
  | some p => (p.depth, p.picture)
  | none =>
  if cannotDecode x f then substitutePicture x f
  else
    let p := concealedPicture x f
    let g := greyPicture f.width f.height f.depth
    (f.depth, if f.mono then { p with cb := g.cb, cr := g.cr } else p)

/-- Film grain is applied on output: AV1, GRAIN 1, and signalled (R132). -/
def grainApplied (x : Ctx) (f : DecodedFrame) : Bool := x.grain && x.codec == 0 && !cannotDecode x f && f.grained.isSome

/-- The picture that is written out. -/
def shownPicture (x : Ctx) (f : DecodedFrame) : Nat × Picture :=
  let k := keptPicture x f
  match f.grained with
  | some g => if grainApplied x f then (k.1, if f.mono then { g with cb := k.2.cb, cr := k.2.cr } else g) else k
  | none => k

/-- Samples of a row in an output format: 8 bits; four samples of 10 bits in five bytes; 10 bits in bits [15:6] of a word. -/
def packRow (fmt : Nat) (l : List Nat) : List Byte :=
  if fmt = 1 then l.map fun v => BitVec.ofNat 8 v
  else if fmt = 2 then
    (List.range (ceilDiv l.length 4)).flatMap fun k =>
      let v := (List.range 4).foldl (fun a i => a + l.getD (4 * k + i) 0 * 2 ^ (10 * i)) 0
      (List.range 5).map fun i => BitVec.ofNat 8 (v / 256 ^ i)
  else l.flatMap fun v => [BitVec.ofNat 8 (64 * v), BitVec.ofNat 8 (v / 4)]

/-- Pitch of both planes of a slot, and the offset of its CbCr plane. -/
def outPitch (x : Ctx) : Nat := ceilDiv (rowBytes x.outFormat x.maxW) 256 * 256
def outChroma (x : Ctx) : Nat := ceilDiv (outPitch x * x.maxH) 4096 * 4096

/-- The rows that a frame writes into its slot: offset and bytes (R215). -/
def slotRows (x : Ctx) (f : DecodedFrame) : List (Nat × List Byte) :=
  let z := frameSize x f
  let p := shownPicture x f
  let w := min z.1 x.maxW
  let h := min z.2 x.maxH
  let cw := ceilDiv z.1 2
  let conv := fun (l : List Nat) => l.map (toDepth p.1 (outDepth x.outFormat))
  let luma := (List.range h).map fun y => (y * outPitch x, packRow x.outFormat (conv ((p.2.luma.drop (y * z.1)).take w)))
  let chroma := (List.range (ceilDiv h 2)).map fun y =>
    let cb := (p.2.cb.drop (y * cw)).take (ceilDiv w 2)
    let cr := (p.2.cr.drop (y * cw)).take (ceilDiv w 2)
    (outChroma x + y * outPitch x, packRow x.outFormat (conv ((cb.zip cr).flatMap fun v => [v.1, v.2])))
  luma ++ chroma

/-- A decoded frame as it will be output, once its turn in display order comes (R216). -/
def shownOf (x : Ctx) (u : AccessUnit) (f : DecodedFrame) : Shown :=
  let z := frameSize x f
  let un := cannotDecode x f
  let missing := missingRefs x f != 0
  let damaged := !un && damagedFrame x u f
  let used := un || missing || (damaged && f.refs.isEmpty)
  { epoch := x.epoch, order := f.order, unit := u, number := ((again x f).map HeldPic.number).getD x.decoded, clean := cleanFrame x u f, missing := missing, un := un, damaged := damaged, key := f.key
    grain := grainApplied x f, width := z.1, height := z.2, concealed := concealedSbs x f, totalSb := f.totalSb, used := used
    sub := (substitute x z.1 z.2).map HeldPic.number, gap := x.gapSince
    fits := decide (f.width ≤ x.maxW) && decide (f.height ≤ x.maxH), rows := slotRows x f }

/-- The words of a frame record (R217). -/
def frameRecord (d : Dev) (c : Nat) (x : Ctx) (y : Shown) (taken late : Bool) : List Word :=
  let sizeChange := x.lastW != 0 && (x.lastW != y.width || x.lastH != y.height)
  let flags := [!y.clean, y.missing, y.used && y.sub.isNone, y.un, y.damaged, y.key, y.grain, taken, late, sizeChange, y.gap]
  let w0 := x.frameSeq % two32 * two32 + x.nextSlot * 2 ^ 24 + c * 2 ^ 16
    + flags.foldr (fun b n => n * 2 + b.toNat) 0
  let sub := y.sub.bind fun k => (x.pics.find? fun p => p.number == k).map fun p => p.seq
  [ word w0, word (y.width % 65536 * 2 ^ 48 + y.height % 65536 * 2 ^ 32 + outDepth x.outFormat * 2 ^ 24)
  , word (y.unit.pts % two32 * two32 + y.unit.number % two32), y.unit.time, timeWord d
  , word (y.concealed % two32 * two32 + y.totalSb % two32)
  , word ((if y.used then sub.getD (two32 - 1) else two32 - 1) % two32 * two32), 0 ]

/-- The Galleries whose Echoes reconstruct a frame of n superblocks, with their shares of it: those of an assured context's pieces, what
the pieces do not hold on the last of them; for a best-effort context the spec leaves it open (notes/assumptions/22.md). -/
def frameEchoes (d : Dev) (x : Ctx) (n : Nat) : List (Nat × Nat) × Dev :=
  let l := healthyList d
  if x.assured then
    let laid := x.work ++ x.pieces
    let used := (takeWork n laid).1
    (used ++ [((laid.getLast?.map Prod.fst).getD (l.headD 0), n - total (used.map Prod.snd))], d)
  else let r := draw d; ([(l.getD (r.1.toNat % max 1 l.length) 0, n)], r.2)

/-- The pieces that a frame of n superblocks leaves to the rest of the period. -/
def piecesLeft (x : Ctx) (n : Nat) : List (Nat × Nat) :=
  let l := (takeWork n (x.work ++ x.pieces)).2
  l.drop (l.length - x.pieces.length)

/-- Counters and events of a decoded picture. -/
def decodeEvents (d : Dev) (c : Nat) (x : Ctx) (u : AccessUnit) (f : DecodedFrame) : Dev :=
  let un := cannotDecode x f
  let d := ctxErr (ctxErr (ctxStat d c 2 f.totalSb) c 4 (missingRefs x f)) c 6 f.syntaxErrors
  let d := if un then ctxErr d c 5 1 else d
  let d := if unsupported x f then raise d 1246 3 c else d
  let d := if !un && damagedFrame x u f then raise d 1246 1 c else d
  let e := frameEchoes d x f.totalSb
  each e.1 e.2 fun d g => if g.2 = 0 then d else incStat d (rGal g.1 oEchoIngestSb) g.2 (768 + 8 * g.1) g.1 oEchoIngestSb

/-- Counters and events of an output frame. -/
def frameEvents (d : Dev) (c : Nat) (x : Ctx) (y : Shown) (taken late : Bool) : Dev :=
  let d := ctxStat d c 1 1
  let d := if taken then raise (ctxErr d c 8 1) 1247 3 c else d
  let d := if late then
      let d := ctxErr d c 9 1
      if x.lateRaised then d else raise (d.onCtx c fun y => { y with lateRaised := true }) 1247 4 c
    else d
  if y.clean then (if x.concealed then raise (d.onCtx c fun y => { y with concealed := false }) 1247 2 c else d)
  else
    let d := ctxErr d c 3 1
    if x.concealed then d else raise (d.onCtx c fun y => { y with concealed := true }) 1247 1 c

/-- Writes the rows of a frame into its slot, as Echo's writes. -/
def storeSlot (s : State) (base : Nat) (rows : List (Nat × List Byte)) : State :=
  each rows s fun s r => (storeAs s 0xFA (base + r.1) r.2).1

/-- The next output slot holds a frame that is not released. -/
def slotTaken (x : Ctx) : Bool := x.slots.any fun e => e.1 == x.nextSlot

/-- Decoding waits for a free slot (R216). -/
def slotBlocked (x : Ctx) : Bool := slotTaken x && !x.overwrite

/-- Echo writes the waiting frame whose turn is next to its slot, and its record to the host. -/
def outputNext (s : State) (c : Nat) : State :=
  let x := s.dev.ctx c
  match x.waiting with
  | [] => s
  | y :: rest =>
    if slotBlocked x then s
    else
      let taken := slotTaken x
      let late := lateFrame s.dev x y
      let rec_ := frameRecord s.dev c x y taken late
      let s := storeSlot s (x.outBase + x.nextSlot * x.outStride) y.rows
      s.onDev fun d =>
        let d := d.setCtx c { x with
          phase := if x.phase == .admitted then .running else x.phase, waiting := rest, frameSeq := x.frameSeq + 1
          slots := (x.slots.filter fun e => e.1 != x.nextSlot) ++ [(x.nextSlot, x.frameSeq % two32)]
          nextSlot := (x.nextSlot + 1) % max 1 x.outSlots
          pics := x.pics.map fun p => if p.number = y.number then { p with seq := x.frameSeq % two32 } else p
          lastW := y.width, lastH := y.height
          ring := { x.ring with next := x.ring.next + 1 } }
        let d := frameEvents d c x y taken late
        if x.ring.en then emit d (.host (x.ring.base + x.ring.next % max 1 x.ring.records * 64) rec_) else d

/-- A frame takes its place among those that wait: after the frames of earlier key pictures and those before it in display order. -/
def queueFrame (l : List Shown) (y : Shown) : List Shown :=
  let first := fun (z : Shown) => decide (z.epoch < y.epoch) || (z.epoch == y.epoch && decide (z.order ≤ y.order))
  l.filter first ++ y :: l.filter fun z => !first z

/-- Waiting frames whose turn has come: those before the last key picture, and those past the number that may wait; all of them where a
DRAIN close has nothing left to decode. -/
def dueFrames (x : Ctx) (waits : Nat) : Nat :=
  if x.phase == .closing && x.units.isEmpty then x.waiting.length
  else max (x.waiting.filter fun y => y.epoch != x.epoch).length (x.waiting.length - waits)

/-- Echo decodes the next picture of the oldest access unit of context c: the picture is held, and waits for its turn in display order where
it is shown; the unit leaves the input buffer with its last picture (R209, R216, R218 to R220). -/
def decodeUnit (d : Dev) (c : Nat) (x : Ctx) (u : AccessUnit) (rest : List AccessUnit) (f : DecodedFrame) : Dev :=
  let x := headerSeen x f
  let x := if f.key && f.existing.isNone then { x with epoch := x.epoch + 1 } else x
  let z := frameSize x f
  let k := keptPicture x f
  let d := decodeEvents d c x u f
  let y := d.ctx c
  pauseUpdate (d.setCtx c { x with
    cnt := y.cnt, units := if f.more then u :: rest else rest, fill := if f.more then x.fill else x.fill - u.size, midUnit := f.more
    hurt := 0, gapSince := if f.shown then false else x.gapSince, waits := f.waits, work := [], pieces := piecesLeft x f.totalSb
    decoded := if f.existing.isSome then x.decoded else x.decoded + 1
    pics := if f.existing.isSome then x.pics else
      holdPic x f { number := x.decoded, unit := u.number, clean := cleanFrame x u f, width := z.1, height := z.2, seq := two32 - 1, depth := k.1, picture := k.2 }
    waiting := if f.shown then queueFrame x.waiting (shownOf x u f) else x.waiting }) (192 + c)

/-- The frames whose turn in display order has come are written out, as far as slots are free. -/
def outputDue (s : State) (c : Nat) : State :=
  each (List.range (dueFrames (s.dev.ctx c) (s.dev.ctx c).waits)) s fun s _ => outputNext s c

/-- A best-effort context has a picture to decode and a slot for it. -/
def wantsEcho (x : Ctx) : Bool := x.phase != .free && !x.assured && x.hasInput && !slotBlocked x

/-- The dispatcher may serve context c: an assured one, or the best-effort one whose turn it is among those that have a picture to decode
(R214). -/
def mayDecode (d : Dev) (c : Nat) : Bool :=
  (d.ctx c).assured || ((List.range 96).map fun i => (d.ingestTurn + i) % 96).find? (fun k => wantsEcho (d.ctx k)) == some c

/-- A picture of context c has been decoded: after its last one in a unit the turn passes on. -/
def passTurn (d : Dev) (c : Nat) : Dev := if (d.ctx c).assured then d else { d with ingestTurn := (c + 1) % 96 }

/-- INGEST_FRAME_OUTPUT: Echo decodes the next picture of context c, and the frames whose turn in display order has come are written
out. With no free slot and OVERWRITE 0 decoding waits; a picture of an operating point that is not selected leaves nothing (R130). A DRAIN
close with no unit left writes out what waits. -/
def outputFrame (s : State) (c : Nat) (f : DecodedFrame) : State :=
  let x0 := s.dev.ctx c
  let x := skipLost x0.units.length x0
  let s := s.onDev fun d => d.setCtx c x
  if x.phase == .free then s
  else
    match x.units with
    | [] => if x.phase == .closing then outputDue s c else s
    | u :: rest =>
      if slotBlocked x || !mayDecode s.dev c then s
      else if offPoint x f then s.onDev fun d =>
        pauseUpdate (d.setCtx c (if f.more then { x with midUnit := true } else { x with units := rest, fill := x.fill - u.size, midUnit := false }))
          (192 + c)
      else
        let x := if u.lost && !x.midUnit then { lostUnit x with gapSince := x0.gapSince || decide (1 < x0.units.length - rest.length) } else x
        outputDue (s.onDev fun d => passTurn (decodeUnit d c x u rest f) c) c

/-! ### DECODE commands (R224, R225) -/

/-- The context that the words of DECODE.OPEN spell. -/
def ctxOf (p : Pkt) : Ctx :=
  let c : Ctx :=
    { phase := .admitted, codec := p.f 1 63 60, inFormat := p.f 1 59 58, network := p.b 1 57, assured := p.b 1 56
      outFormat := p.f 1 55 48, outSlots := p.f 1 47 44, overwrite := p.b 1 43, grain := p.b 1 42, opPoint := p.f 1 36 32
      rateNum := p.f 1 31 16, rateDen := p.f 1 15 0, maxW := p.f 2 63 48, maxH := p.f 2 47 32
      inBase := (p.w 3).toNat, inSize := p.f 4 63 32, outBase := (p.w 5).toNat, outStride := p.f 6 63 32
      ring := ringOf (p.w 7) (p.w 8) }
  { c with load := ceilDiv (ceilDiv c.maxW 64 * ceilDiv c.maxH 64 * c.rateNum) (max 1 c.rateDen) }

/-- Bytes of one output slot's contents (R215). -/
def outSlotBytes (x : Ctx) : Nat :=
  let pitch := ceilDiv (rowBytes x.outFormat x.maxW) 256 * 256
  ceilDiv (pitch * x.maxH) 4096 * 4096 + pitch * ceilDiv x.maxH 2

/-- The words of DECODE.OPEN meet their limits. -/
def ctxOk (p : Pkt) : Bool :=
  let x := ctxOf p
  within (p.w 1) (ones 63 42 ||| ones 36 0) && within (p.w 2) (ones 63 32) && within (p.w 4) (ones 63 32)
    && within (p.w 6) (ones 63 32) && ringWordsOk (p.w 7) (p.w 8) 16 65536
    && (if x.codec = 0 then decide (x.inFormat ≤ 1) else decide (x.codec ≤ 2) && x.inFormat == 2)
    && !(x.network && x.inFormat == 1) && inRange x.outFormat 1 3 && inRange x.outSlots 2 15
    && decide (1 ≤ x.rateNum) && decide (1 ≤ x.rateDen) && decide (x.rateNum ≤ 240 * x.rateDen)
    && inRange x.maxW 16 8192 && inRange x.maxH 16 8192 && x.inBase % 4096 == 0 && x.inSize % 4096 == 0
    && inRange x.inSize 1048576 268435456 && x.outBase % 4096 == 0 && x.outStride % 4096 == 0
    && decide (outSlotBytes x ≤ x.outStride) && !(x.assured && decide (62500 < x.load))

/-- The context that DECODE.OPEN names: the target, or the lowest FREE context that the PF owns (R32). -/
def ctxTarget (d : Dev) (p : Pkt) : Option Nat :=
  if p.target ≠ 0xFFFF then some p.target
  else (List.range 96).find? fun c => d.ctxOwner c == 0 && (d.ctx c).phase == .free

/-- Loads of the assured contexts that are open (R17). -/
def assuredLoad (d : Dev) : Nat := total ((d.ctxs.filter fun e => e.2.phase != .free && e.2.assured).map fun e => e.2.load)

/-- The sizes that a context allocates from the ingest region (R455). -/
def ctxUnits (x : Ctx) : List Nat := 1048576 :: List.replicate (if x.codec = 0 then 9 else 17) (storeUnit x.maxW x.maxH)

/-- Opens context c; none: no capacity (R17, R31, R455). -/
def openCtx (d : Dev) (c : Nat) (x : Ctx) : Option Dev :=
  if x.assured && decide (1500000 < assuredLoad d + x.load) then none
  else (allocate d 2 (1000 + c) (ctxUnits x)).map fun d => d.setCtx c { x with cnt := (d.ctx c).cnt }

def opDecodeOpen (s : State) (p : Pkt) : State × Answer :=
  let d := s.dev
  let x := ctxOf p
  let inLen := x.inSize
  let outLen := x.outSlots * x.outStride
  match firstRefusal
    [ (hdrBadOpen p 8 96, stBadParam)
    , (p.target == 0xFFFF && p.fn != 0 || p.target != 0xFFFF && notOwner p (d.ctxOwner p.target), stDenied) ] with
  | some st => refuse s p st
  | none =>
    if !memGranted d p.fn x.inBase inLen true then denyCommand s p (deniedWindow d p.fn x.inBase inLen true)
    else if !memGranted d p.fn x.outBase outLen true then denyCommand s p (deniedWindow d p.fn x.outBase outLen true)
    else
      match firstRefusal
        [ (p.target != 0xFFFF && (d.ctx p.target).phase != .free, stBusy), (!ctxOk p, stBadParam)
        , ((ctxTarget d p).isNone, stNoContext) ] with
      | some st => refuse s p st
      | none =>
        match (ctxTarget d p).bind fun c => (openCtx d c x).map fun d => (c, d) with
        | none => refuse s p stNoCapacity
        | some (c, d) => ({ s with dev := d }, .now stOk [] c)

/-- The target context is neither ADMITTED nor RUNNING. -/
def ctxOff (d : Dev) (p : Pkt) : Bool := (d.ctx p.target).phase != .admitted && (d.ctx p.target).phase != .running

/-- The refusals of a command on one context, up to its parameter words. -/
def ctxRefusals (d : Dev) (p : Pkt) (count : Nat) : List (Bool × Nat) :=
  [(hdrBad p count 96, stBadParam), (notOwner p (d.ctxOwner p.target), stDenied), (ctxOff d p, stBadState)]

/-- DECODE.CLOSE is taken: its chain is abandoned; DRAIN completes the unit in progress, ABORT discards what waits. -/
def closeCtx (s : State) (c : Nat) (abort : Bool) : State :=
  let s := s.onDev fun d => closeChannel d (192 + c)
  let s := if abort then s else
    let x := s.dev.ctx c
    auComplete s (if x.network then 0xF9 else 0xF8) c x.network ((x.binding.map Binding.curTs).getD 0)
  s.onDev fun d => d.onCtx c fun x =>
    let x := { x with phase := .closing, abort := abort }
    if abort then { x with units := [], auOpen := none, auDrop := false, fill := 0, waiting := [], midUnit := false } else x

def opDecodeClose (s : State) (p : Pkt) : State × Answer :=
  let x := s.dev.ctx p.target
  match firstRefusal
    [ (hdrBad p 1 96, stBadParam), (notOwner p (s.dev.ctxOwner p.target), stDenied)
    , (x.phase == .free, stBadState), (x.phase == .closing, stBusy), (!within (p.w 1) 1, stBadParam) ] with
  | some c => refuse s p c
  | none => (closeCtx s p.target (p.b 1 0), .later p.target [])

/-- The close of context c completes once nothing of it waits for decoding. -/
def ctxCloseDone (d : Dev) (c : Nat) : Dev :=
  let x := d.ctx c
  if x.phase == .closing && (skipLost x.units.length x).units.isEmpty && x.waiting.isEmpty then
    let d := clearChannel (deallocate (d.setCtx c { cnt := x.cnt.filter fun e => decide (3 ≤ e.1) }) (1000 + c)) (192 + c)
    completeOutstanding d (fun o => fld o.hdr 63 48 == 0x0A02 && o.target == c) fun _ => stOk
  else d

/-- DECODE.RELEASE frees the slots whose frames are not after a FRAME_SEQ, and frames that waited for a slot are written (R216). -/
def opDecodeRelease (s : State) (p : Pkt) : State × Answer :=
  simply s p (ctxRefusals s.dev p 1 ++ [(!within (p.w 1) (ones 31 0), stBadParam)]) fun s =>
    (outputDue (s.onDev fun d => d.onCtx p.target fun x => { x with slots := x.slots.filter fun e => frameAfter e.2 (p.f 1 31 0) }) p.target, [])

/-- DECODE.RESYNC discards the input buffer and every reference picture (R224). -/
def opDecodeResync (s : State) (p : Pkt) : State × Answer :=
  simply s p (ctxRefusals s.dev p 0) fun s => (s.onDev fun d =>
    pauseUpdate (d.onCtx p.target fun x => { x with units := [], auOpen := none, auDrop := false, fill := 0, pics := [], midUnit := false }) (192 + p.target), [])

/-- Result word 0 of DECODE.QUERY (R223). DESIGN CHOICE (notes/assumptions/112.md): before the first output frame FRAME_SEQ reads 0. -/
def decodeWord0 (x : Ctx) : Word :=
  word ((x.frameSeq - 1) % two32 * two32 + x.concealed.toNat * 2 + x.assured.toNat)

def opDecodeQuery (s : State) (p : Pkt) : State × Answer :=
  let x := s.dev.ctx p.target
  simply s p [(hdrBad p 0 96, stBadParam), (notReader p (s.dev.ctxOwner p.target), stDenied)] fun s =>
    (s, decodeWord0 x :: [1, 2, 3, 4, 5, 6, 7, 8, 9].map fun w => x.cnt.get 0 w)

def opDecodeClear (s : State) (p : Pkt) : State × Answer :=
  simply s p (ctxRefusals s.dev p 1 ++ [(!within (p.w 1) (ones 9 3), stBadParam)]) fun s =>
    (s.onDev fun d => d.onCtx p.target fun x => { x with cnt := clearCnt x.cnt (p.w 1) [3, 4, 5, 6, 7, 8, 9] }, [])

/-! ### Commands -/

/-- DECODE_OPEN (R225). -/
def execDecodeOpen (fn : Master) (hdr : Word) (ps : List Word) (s : State) : Host.Outcome State Fault Refusal :=
  ok (submit opDecodeOpen (mkPkt 0x0A01 fn hdr ps) s)

/-- DECODE_CLOSE (R224). -/
def execDecodeClose (fn : Master) (hdr : Word) (ps : List Word) (s : State) : Host.Outcome State Fault Refusal :=
  ok (submit opDecodeClose (mkPkt 0x0A02 fn hdr ps) s)

/-- DECODE_RELEASE (R216). -/
def execDecodeRelease (fn : Master) (hdr : Word) (ps : List Word) (s : State) : Host.Outcome State Fault Refusal :=
  ok (submit opDecodeRelease (mkPkt 0x0A03 fn hdr ps) s)

/-- DECODE_RESYNC (R224). -/
def execDecodeResync (fn : Master) (hdr : Word) (ps : List Word) (s : State) : Host.Outcome State Fault Refusal :=
  ok (submit opDecodeResync (mkPkt 0x0A04 fn hdr ps) s)

/-- DECODE_QUERY (R223). -/
def execDecodeQuery (fn : Master) (hdr : Word) (ps : List Word) (s : State) : Host.Outcome State Fault Refusal :=
  ok (submit opDecodeQuery (mkPkt 0x0A05 fn hdr ps) s)

/-- DECODE_CLEAR (R223). -/
def execDecodeClear (fn : Master) (hdr : Word) (ps : List Word) (s : State) : Host.Outcome State Fault Refusal :=
  ok (submit opDecodeClear (mkPkt 0x0A06 fn hdr ps) s)

/-- INGEST_PERIOD (R212). -/
def execIngestPeriod (s : State) : Host.Outcome State Fault Refusal :=
  ok (if working s.dev then s.onDev ingestPeriod else s)

/-- INGEST_FRAME_OUTPUT (R217). -/
def execIngestFrameOutput (c : Fin 96) (f : DecodedFrame) (s : State) : Host.Outcome State Fault Refusal :=
  ok (if working s.dev then outputFrame s c f else s)

end Sys2Proof.Machine
end

