-- ==== Sys2Proof/Machine/Mouth.lean ====
section
/-! DEFINITION. Mouth in service: reading the output FIFOs, the resequencer's time limit, the calendar, the ports, sender
reports, host frames, link changes and the Sump auditor (R259 to R266, R282, R283, R305 to R307, R328, R329, R334 to
R342). -/

namespace Sys2Proof.Machine

/-! ### Reading the output FIFOs (R235, R259, R261) -/

/-- The Gallery whose FIFO is read next: the first from `turn` with a committed head entry (R101). -/
def fifoTurn (d : Dev) : Option Nat :=
  ((List.range 26).map fun i => (d.mouth.turn + i) % 26).find? fun g => (d.gal g).readable

/-- A band of a retired Gallery's FIFO that has not passed, or that has been resumed elsewhere, is dropped. -/
def fifoStale (d : Dev) (g : Nat) (it : FifoItem) : Bool :=
  retired d g && it.count == 0 && !it.passed &&
    !((bandAt (d.stream it.stream) it.seq).any fun b => b.gal == g && b.verdict == some 0)

/-- The bitstream behind a head entry of Gallery g's FIFO. -/
def readBody (s : State) (g : Nat) (it : FifoItem) : List Byte :=
  match it.place with
  | none => []
  | some p => ((List.range (ceilDiv it.len 64)).flatMap fun e => s.bytes (fifoAddr g (p + 1 + e)) 64).take it.len

/-- Mouth reads one head entry and the band or gap marker it heads, both variants of a Vein band in one turn (R259). -/
def fifoRead (s : State) : Dev :=
  let d := s.dev
  match fifoTurn d with
  | none => d
  | some g =>
    match (d.gal g).fifo with
    | [] => d
    | it :: rest =>
      let pair := if it.variant = 1 then rest.head? else none
      let left := if it.variant = 1 then rest.drop 1 else rest
      let gone := itemEntries it + ((pair.map itemEntries).getD 0)
      let d := d.onMouth fun m => { m with turn := (g + 1) % 26 }
      -- Mouth resets the FIFO of a retired Gallery that it has read to its end (R235)
      let ends := retired d g && left.isEmpty
      let d := d.onGal g fun x => { x with
        fifo := left, rd := if ends then 0 else x.rd + gone, wr := if ends then 0 else x.wr, lastRead := d.now, tmoRaised := false }
      if (d.stream it.stream).phase == .free || fifoStale d g it then d
      else if it.count ≠ 0 then reseqItem d it.stream it.seq it.count it.cause
      else storeBand d it (readBody s g it) ((pair.map (readBody s g)).getD [])

/-- NEXT has not arrived two frame times after the first item was held behind it (R264). -/
def reseqTmo (d : Dev) (n : Nat) : Dev :=
  let s := d.stream n
  let next := reseqNext d n
  if s.held.isEmpty || (s.held.any fun h => h.seq == next) then d
  else
    let d := advance d (s.heldSince + 2 * s.cfg.frameNs)
    let d := applyGap (raise d (4 * n + 1) 8) n 1 3 (frameOfSeq d n next)
    advanceNext 64 (d.onStream n fun s => { s with heldSince := d.now }) n

/-! ### The calendar (R334, R335) -/

/-- The calendar serves its next slot that lists a queue, once device time has reached it; with no queue listed, V moves
on by one slot. -/
def calendarSlot (d : Dev) : Dev :=
  let d := syncCal d
  match d.mouth.calendar.foldl (fun b e => some (match b with | none => e.1 | some s => min s e.1)) (none : Option Nat) with
  | none => syncCal (advance d (d.now / 250 * 250 + 250))
  | some s =>
    let d := (advance d (s * 250)).onMouth fun m => { m with calV := max m.calV s }
    let due := (d.mouth.calendar.filter fun e => e.1 == s).map fun e => e.2
    each due d fun d r => calendarMove d r

/-! ### The ports (R296, R328, R329, R338 to R342) -/

/-- Time on the wire of a frame of n bytes, with preamble and inter-frame gap. -/
def wireNs (d : Dev) (p n : Nat) : Nat := ceilDiv (8 * (n + 20)) (max 1 (d.port p).gbps)

/-- The packet on the wire has ended: its copy leaves the reference count, a recipient mirror records it. -/
def finishWire (d : Dev) (p : Nat) : Dev :=
  match (d.port p).wire with
  | none => d
  | some (r, e, t) =>
    let killed := (d.port p).wireKilled
    let d := advance d t
    let at_ := (d.port p).wireAt
    let d := d.setPort p { d.port p with wire := none, wireKilled := false }
    let d := mirrorCopy d r e false killed p at_
    let d := if e.idx + 1 = e.count ∧ !killed ∧ (d.recip r).stream = e.stream then sentLast d r e.seq else d
    deref d e.stream e.seq e.refs killed

/-- The learned slots of a recipient on port p. -/
def learnedOf (x : Recip) (p : Nat) : List Learned := if p = 0 then x.learned0 else x.learned1

/-- The valid learned slot with the latest LAST_SEEN. -/
def latestLearned (l : List Learned) : Option Learned :=
  (l.filter fun s => s.valid).foldl (fun b s => match b with
    | none => some s
    | some t => if t.lastSeen < s.lastSeen then some s else some t) none

/-- The destination of a packet on port p (R329). -/
def destOf (x : Recip) (p : Nat) : Source :=
  match if x.learn then latestLearned (learnedOf x p) else none with
  | some s => s.src
  | none => { ipv6 := x.ipv6, addrHi := x.addrHi, addrLo := x.addrLo, udp := x.dstUdp, mac := if p = 0 then x.mac0 else x.mac1 }

/-- The marks of queue latency that a sent packet leaves (R342). -/
def latencyMarks (d : Dev) (r : Nat) (e : QEntry) : Dev :=
  let x := d.recip r
  let l := d.now - e.admitAt
  let d := d.onRecip r fun x => { x with latHwm := max x.latHwm l }
  if regFld d (rQHwm x.cls) 31 0 < l then setReg d (rQHwm x.cls) (word (r % 16384 * 2 ^ 32 + min l (two32 - 1))) else d

/-- A packet at the head of a queue is discarded at dequeue and counted (R288). -/
def discardHead (d : Dev) (r : Nat) (e : QEntry) (w : Nat) : Dev :=
  let frame := (frameOfSeq d e.stream e.seq).getD 0
  requeue (dropCopy (removeEntry d r e) r e w frame) r

/-- The head packet of queue r begins on port p. -/
def startPacket (d : Dev) (p r : Nat) (e : QEntry) : Dev :=
  let x := d.recip r
  match storedAt d e.stream e.seq with
  | none => requeue (removeEntry d r e) r
  | some b =>
    let dst := destOf x p
    let sent := Out.packet p r e (b.last && e.idx + 1 == e.count) (rtpTime d e.stream b) dst b.digest4 b.epoch (packetFrame d p r e dst)
    -- the boundaries passed count before the packet takes its tokens (R336)
    let d := d.onRecip r fun x => if x.rate = 0 then x else
      let y := refill x (slotNow d)
      { y with tokens := y.tokens - (32000 * e.len : Nat) }
    let d := latencyMarks (removeEntry d r e) r e
    let d := recipStat (recipStat d r 16 1) r 17 e.len
    let d := incStat d (rMs e.stream oMsPackets) 1 (4 * e.stream) e.stream oMsPackets
    let d := emit d sent
    let d := d.onKey x.keySlot fun k => { k with sentPackets := k.sentPackets + 1, sentOctets := k.sentOctets + e.payload.length }
    let d := d.setPort p { d.port p with wire := some (r, e, d.now + wireNs d p e.len), wireKilled := false, wireAt := timeWord d }
    requeue d r

/-- A record waits in the host transmit ring. -/
def hostRecord (d : Dev) : Bool :=
  let size := regFld d (rMouthRing 2 8) 31 0
  size != 0 && regFld d (rMouthRing 2 0x18) 31 0 % size != regFld d (rMouthRing 2 0x10) 31 0 % size

/-- A port serves the queue at the head of its ready list, once a host frame has left it. Host frames go first: while a record waits and the
limit lets port p send one, the port waits for it (R306, R338). -/
def servePort (d : Dev) (p : Nat) : Dev :=
  if hostRecord d && decide ((d.port p).hostAt ≤ d.now) then d
  else
  let d := if (d.port p).ready.isEmpty then d else advance d (d.port p).hostEnd
  match (d.port p).ready with
  | [] => d
  | r :: _ =>
    let d := unplace d r
    let q := portOf d (d.recip r)
    if q ≠ p then joinReady d q r
    else
      let d := unlinkVoid d r
      match (d.recip r).queue with
      | [] => d
      | e :: _ =>
        if heldEntry d e then d.onRecip r fun x => { x with place := .held }
        else if !(d.port p).up then discardHead d r e 22
        else if (d.key (d.recip r).keySlot).kind ≠ 1 then discardHead d r e 21
        else startPacket d p r e

/-- The sender report of a stream under a transmit context (RFC 3550). -/
def reportBytes (d : Dev) (n : Nat) (k : Key) : List Byte :=
  let time := fld (timeWord d) 62 0
  [0x80, 200] ++ natBytesBE 2 6 ++ natBytesBE 4 (ssrcOf d n) ++ natBytesBE 8 (Config.ntpTime time).toNat
    ++ natBytesBE 4 ((regFld d (rMs n oMsRtp) 31 0 + time * 9 / 100000) % two32)
    ++ natBytesBE 4 k.sentPackets ++ natBytesBE 4 k.sentOctets

/-- The frame that carries an SRTCP packet of stream n to recipient r; with RTCP_MUX 0 it goes between the ports above those of RTP. -/
def reportFrame (d : Dev) (n r : Nat) (packet : List Byte) : List Byte :=
  let x := d.recip r
  let p := portOf d x
  let up := if regBit d (rMs n oMsCfg) 62 then 0 else 1
  let dst := destOf x p
  streamFrame d p .green { dst with udp := dst.udp + up } (srcUdp d n + up) packet

/-- The transmit context that recipient r stands for sends its report to each of its recipients whose port is up (R307);
one of a stream without SRC_UDP sends nothing (R313). -/
def senderReport (d : Dev) (r : Nat) : Dev :=
  let x := d.recip r
  if !x.valid || (d.key x.keySlot).kind ≠ 1 || srcUdp d x.stream == 0 then d
  else
    let d := advance d ((d.key x.keySlot).srAt + 1000000000)
    let k := d.key x.keySlot
    let packet := srtcpSeal k.material k.srIndex (reportBytes d x.stream k)
    let ups := (contextOf d x.stream x.keySlot).filter fun q => (d.port (portOf d (d.recip q))).up
    let d := d.onKey x.keySlot fun k => { k with srAt := d.now, srIndex := (k.srIndex + 1) % 2 ^ 31 }
    each ups d fun d q => emit d (.senderReport (portOf d (d.recip q)) x.keySlot (reportFrame d x.stream q packet))

/-- A record of the host transmit ring is read and its frame sent behind the packet on the wire, at no more than a hundredth of the port's
rate (R299, R306). A record of another KIND is passed over. -/
def hostTransmit (d : Dev) (hdr : List Word) (bytes : List Byte) : Dev :=
  let size := regFld d (rMouthRing 2 8) 31 0
  let cons := regFld d (rMouthRing 2 0x18) 31 0
  if !hostRecord d then d
  else
    let h := hdr.headD 0
    let len := fld h 63 48
    let p := fld h 38 38
    let d := setRegFld d (rMouthRing 2 0x18) 31 0 ((cons + recordBytes len) % size)
    if fld h 47 40 ≠ 4 || !(d.port p).up then d
    else
      let d := advance (finishWire d p) (max (d.port p).hostAt (d.port p).hostEnd)
      let d := emit d (.hostFrame p (bytes.take len ++ fcs (bytes.take len)))
      d.setPort p { d.port p with hostAt := d.now + 100 * wireNs d p (len + 4), hostEnd := d.now + wireNs d p (len + 4) }

/-! ### Links (R304, R311) -/

/-- The first link-up of port p after a boot runs the port's boot calibration pair (R512). -/
def portBootPair (d : Dev) (p : Nat) : Dev :=
  if p = 0 then
    if d.pwr.e0Seen then d else ({ d with pwr := { d.pwr with e0Seen := true } } : Dev).setCal 32 { stage := 2 }
  else if d.pwr.e1Seen then d
  else ({ d with pwr := { d.pwr with e1Seen := true } } : Dev).setCal 33 { stage := 2 }

/-- The rate of a link, in Gb/s; one that is down keeps the rate it had. -/
def LinkState.rate (x : LinkState) (old : Nat) : Nat := match x with | .down => old | .at50 => 50 | .at100 => 100

/-- The link of port p changes; one that comes up runs at 100 or at 50 Gb/s (R4). -/
def linkChange (d : Dev) (p : Nat) (link : LinkState) : Dev :=
  let up := link != .down
  let s := 1104 + 16 * p
  let d := if up then portBootPair d p else d
  let before := srcState d s
  let d := edge (d.setPort p { d.port p with up := up, gbps := LinkState.rate link (d.port p).gbps }) s before
  if !up && regFld d rPtpStatus 62 62 == p && regBit d rMouthCtrl 46 then setRegBit d rPtpStatus 62 (p == 0) else d

/-! ### The Sump auditor (R282, R283) -/

def stampKey (q i : Nat) : Nat := q * two32 + i

/-- A broken link has cut buffer i of pool q off: nothing references it. -/
def cutOff (d : Dev) (q i : Nat) : Bool := d.mouth.lost.any fun r => r.1 == q && inRange i r.2.1 r.2.2

/-- Buffer i of pool q belongs to a stored band, or is an entry block of a queue. -/
def inUse (d : Dev) (q i : Nat) : Bool :=
  (d.mouth.stored.any fun b => b.bufs.contains (q, i)) || d.recips.any fun x => x.2.blocks.contains (q, i)

/-- Buffer i of pool q is on its free list. -/
def onFreeList (d : Dev) (q i : Nat) : Bool := decide (i < poolSize d q) && !cutOff d q i && !inUse d q i

/-! #### Free-list links in device memory (R280) -/

/-- The pool and the number of the free buffer whose link holds the byte at an address, and which byte of the link it is. -/
def linkAt (d : Dev) (a : Nat) : Option (Nat × Nat × Nat) :=
  if !regBit d (rMemRegion 3) 63 then none
  else
    ((List.range 5).find? fun q => decide (bufferAddr d q 0 ≤ a) && decide (a < bufferAddr d q (poolSize d q))).bind fun q =>
      let o := a - bufferAddr d q 0
      let i := o / poolBytes q
      if o % poolBytes q < 8 ∧ onFreeList d q i then some (q, i, o % poolBytes q) else none

/-- The first 8 bytes of a free buffer: what has been written there, or its link. -/
def linkNow (d : Dev) (q i : Nat) : Word := ((freeList d q).spoilt.get none i).getD (linkWord d q i)

/-- A byte of device memory as the bus reads it: free buffers of Sump hold their links. -/
def busByte (s : State) (a : Nat) : Byte :=
  match linkAt s.dev a with
  | some (q, i, k) => BitVec.ofNat 8 ((linkNow s.dev q i).toNat / 256 ^ k)
  | none => s.byte a

/-- A byte written over the link of a free buffer stands there until the buffer is taken (R283). -/
def overLink (d : Dev) (a : Nat) (b : Byte) : Dev :=
  match linkAt d a with
  | some (q, i, k) =>
    let w := (linkNow d q i).toNat
    let w := w - w / 256 ^ k % 256 * 256 ^ k + b.toNat * 256 ^ k
    setFreeList d q { freeList d q with spoilt := (freeList d q).spoilt.set none i (some (word w)) }
  | none => d

/-- Bytes written over the bus. -/
def busStore (s : State) (a : Nat) (bs : List Byte) : State :=
  (s.store a bs).onDev fun d => (List.range bs.length).foldl (fun d i => overLink d (a + i) (bs.getD i 0)) d

/-- A reclaimed buffer is returned to its free list, and has no stamp any more. -/
def reclaim (d : Dev) (q i : Nat) : Dev :=
  let split := fun (r : Nat × Nat × Nat) =>
    if r.1 = q ∧ inRange i r.2.1 r.2.2 then
      [(q, r.2.1, i - 1), (q, i + 1, r.2.2)].filter fun x => decide (x.2.1 ≤ x.2.2) && !inRange i x.2.1 x.2.2
    else [r]
  pushFree (d.onMouth fun m => { m with stamps := m.stamps.set 0 (stampKey q i) 0, lost := m.lost.flatMap split }) q i

/-- An unreferenced buffer is stamped, or found leaked 250 ms after its stamp. -/
def auditUnreferenced (d : Dev) (q i : Nat) : Dev :=
  let t := d.mouth.stamps.get 0 (stampKey q i)
  if t = 0 then d.onMouth fun m => { m with stamps := m.stamps.set 0 (stampKey q i) (d.now + 1) }
  else if d.now + 1 < t + 250000000 then d
  else
    let d := raise (setReg (incErr d rLeaks) rLeakAddr (word (bufferAddr d q i))) 1221 1
    if regBit d rSumpCtrl 50 then reclaim d q i else d

/-- Buffers of the free list of pool q up to buffer i, itself included. -/
def placeOnList (d : Dev) (q i : Nat) : Nat :=
  (freeRuns d q).foldl (fun (a : Nat × Bool) r =>
    if a.2 then a else if inRange i r.1 r.2 then (a.1 + (i + 1 - r.1), true) else (a.1 + (r.2 + 1 - r.1), false)) (0, false) |>.1

/-- The auditor visits buffer i of pool q. A referenced buffer loses its stamp; the link of a free one is tested (R283). -/
def audit (d : Dev) (q i : Nat) (f : AuditFinding) : Dev :=
  if poolSize d q ≤ i then d
  else if cutOff d q i then auditUnreferenced d q i
  else
    let d := d.onMouth fun m => { m with stamps := m.stamps.set 0 (stampKey q i) 0 }
    if inUse d q i then d
    else
      let x := freeList d q
      let d := match f with
        | .asWritten => d
        | .link w => setFreeList d q { x with spoilt := x.spoilt.set none i (some w) }
      if linkBroken d q i then endList d q (placeOnList d q i) else d

/-! ### Commands -/

/-- FIFO_READ_TURN (R259, R261). -/
def execFifoReadTurn (s : State) : Host.Outcome State Fault Refusal :=
  ok (if working s.dev then keepRecords (fun s => s.onDev fun _ => fifoRead s) s else s)

/-- RESEQ_TMO (R264). -/
def execReseqTmo (n : Fin 192) (s : State) : Host.Outcome State Fault Refusal :=
  ok (if working s.dev then keepRecords (·.onDev fun d => reseqTmo d n) s else s)

/-- CALENDAR_SLOT (R334). -/
def execCalendarSlot (s : State) : Host.Outcome State Fault Refusal :=
  ok (if working s.dev then s.onDev calendarSlot else s)

/-- PORT_SERVE (R338). A stopped device completes the packet in transmission and sends no other (R477). -/
def execPortServe (p : Fin 2) (s : State) : Host.Outcome State Fault Refusal :=
  ok (if !alive s.dev then s
      else keepRecords (·.onDev fun d => let d := finishWire d p; if stopped d then d else servePort d p) s)

/-- SENDER_REPORT (R307). -/
def execSenderReport (r : Fin 16384) (s : State) : Host.Outcome State Fault Refusal :=
  ok (if working s.dev then s.onDev fun d => senderReport d r else s)

/-- HOST_TRANSMIT (R306). -/
def execHostTransmit (hdr : List Word) (bytes : List Byte) (s : State) : Host.Outcome State Fault Refusal :=
  ok (if working s.dev then s.onDev fun d => hostTransmit d hdr bytes else s)

/-- LINK_CHANGE (R311). -/
def execLinkChange (p : Fin 2) (link : LinkState) (s : State) : Host.Outcome State Fault Refusal :=
  ok (if alive s.dev then s.onDev fun d => linkChange d p link else s)

/-- AUDITOR_VISIT (R282). -/
def execAuditorVisit (pool : Fin 5) (buffer : Nat) (found : AuditFinding) (s : State) : Host.Outcome State Fault Refusal :=
  ok (if working s.dev then s.onDev fun d => audit d pool buffer found else s)

end Sys2Proof.Machine
end

