-- ==== Sys2Proof/Machine/Frames.lean ====
section
/-! DEFINITION. Frames received on a port: their check, and what lies in them of VLAN, IP and UDP (R300, R307). -/

namespace Sys2Proof.Machine

/-- A number of n bytes of a packet from byte i on, in network byte order; bytes past the end count as 0. -/
def netNum (bs : List Byte) (i n : Nat) : Nat := (List.range n).foldl (fun v k => v * 256 + (bs.getD (i + k) 0).toNat) 0

/-- A UDP datagram received: where it came from, its destination port and its payload. -/
structure Datagram where
  src : Source
  dstUdp : Nat
  payload : List Byte
deriving DecidableEq, Repr

/-- What a received frame is. -/
inductive RxFrame where
  /-- Runt, oversize or bad FCS (R300 rule 1), or a datagram whose UDP checksum fails; `fec`: the FCS is neither right nor its
  complement, which is what an uncorrectable FEC codeword leaves (R311, PRESUMED, notes/assumptions/110.md). -/
  | bad (fec : Bool)
  /-- PAUSE or PFC (R307). -/
  | pause
  /-- A PTP message over Ethernet (rule 2). -/
  | ptp (message : List Byte)
  /-- UDP: rules 2 to 5 by its destination port. -/
  | datagram (g : Datagram)
  /-- Anything else, IP fragments and extension headers included. -/
  | other
deriving DecidableEq, Repr

/-- A UDP datagram between the addresses of its IP packet; a zero checksum is accepted on IPv4 (R307). -/
def udpOf (ipv6 : Bool) (mac : Nat) (src dst udp : List Byte) : RxFrame :=
  let u := udp.take (netNum udp 4 2)
  let sum := src ++ dst ++ natBytesBE 4 17 ++ natBytesBE 4 u.length ++ u
  if u.length < 8 ∨ (if netNum u 6 2 = 0 then ipv6 else checksum sum != 0) then .bad false
  else
    .datagram { src := { ipv6 := ipv6, addrHi := if ipv6 then netNum src 0 8 else netNum src 0 4, addrLo := if ipv6 then netNum src 8 8 else 0
                         udp := netNum u 0 2, mac := mac }
                dstUdp := netNum u 2 2, payload := u.drop 8 }

/-- An IPv4 packet: a fragment, or another protocol than UDP, is nothing that Mouth looks into. -/
def ipv4Of (mac : Nat) (ip : List Byte) : RxFrame :=
  if netNum ip 0 1 / 16 ≠ 4 ∨ netNum ip 6 2 % 0x4000 ≠ 0 ∨ netNum ip 9 1 ≠ 17 then .other
  else udpOf false mac ((ip.drop 12).take 4) ((ip.drop 16).take 4) ((ip.take (netNum ip 2 2)).drop (netNum ip 0 1 % 16 * 4))

/-- An IPv6 packet without extension headers. -/
def ipv6Of (mac : Nat) (ip : List Byte) : RxFrame :=
  if netNum ip 0 1 / 16 ≠ 6 ∨ netNum ip 6 1 ≠ 17 then .other
  else udpOf true mac ((ip.drop 8).take 16) ((ip.drop 24).take 16) ((ip.drop 40).take (netNum ip 4 2))

/-- A frame without its FCS. -/
def frameBody (bytes : List Byte) : List Byte := bytes.take (bytes.length - 4)

/-- What a frame is, from destination MAC to FCS; it may bear one 802.1Q tag (R307). -/
def parseFrame (bytes : List Byte) : RxFrame :=
  let body := frameBody bytes
  let tail := bytes.drop (bytes.length - 4)
  if bytes.length < 64 ∨ 9022 < bytes.length then .bad false
  else if fcs body ≠ tail then .bad ((fcs body).map (255#8 - ·) != tail)
  else
    let mac := netNum body 6 6
    let off := if netNum body 12 2 = 0x8100 then 18 else 14
    let type := netNum body (off - 2) 2
    if type = 0x8808 then .pause
    else if type = 0x88F7 then .ptp (body.drop off)
    else if type = 0x0800 then ipv4Of mac (body.drop off)
    else if type = 0x86DD then ipv6Of mac (body.drop off)
    else .other

/-- The first that opens under a slot's keys of this kind: its own, or one of the old ones whose grace still runs (R363). -/
def openWith (d : Dev) (k kind : Nat) (f : Nat → Option (List Byte)) : Option (List Byte) :=
  let x := d.key k
  if x.kind ≠ kind then none
  else match f x.material with
    | some bs => some bs
    | none => (x.graceUntil.toList.map (fun _ => x.old) ++ x.older.map fun o => o.1).findSome? f

end Sys2Proof.Machine
end

