-- ==== Sys2Proof/Machine/Ptp.lean ====
section
/-! DEFINITION. The PTP client (R304, R305): the messages of IEEE 1588-2019 (PRESUMED, notes/assumptions/94.md), the choice of a master, the
measured offset and the servo. -/

namespace Sys2Proof.Machine

/-! ### Lock and servo -/

/-- The lock changes. -/
def setPtpLock (d : Dev) (l : Bool) : Dev :=
  let before := srcState d 1170
  let next := if l && !d.ptp.locked then ((d.now : Int) + d.ptp.offset).toNat / 1000000000 + 1 else d.ptp.ppsNext
  edge { d with ptp := { d.ptp with locked := l, ppsNext := next } } 1170 before

/-- The grandmaster that the client follows. -/
def setGm (d : Dev) (gm : Nat) : Dev :=
  let d := { d with ptp := { d.ptp with lastAt := d.now } }
  if d.ptp.gm = gm then d
  else raise (setReg { d with ptp := { d.ptp with gm := gm } } rPtpGm (word gm)) 1170 4

/-- The most that PTP time is slewed since the last Sync: 100 ppm. -/
def slewLimit (d : Dev) : Nat := (d.now - d.ptp.slewAt) / 10000

/-- A Sync interval with a measured offset from the master. -/
def ptpSync (d : Dev) (offset : Int) (gm : Nat) : Dev :=
  let slew := max (-(slewLimit d : Int)) (min (slewLimit d : Int) offset)
  let d := setReg (setGm d gm) rPtpOffset (word (signedBits 64 offset))
  if 10000 < offset.natAbs then
    let d := setPtpLock { d with ptp := { d.ptp with good := 0, bad := d.ptp.bad + 1 } } false
    if 8 ≤ d.ptp.bad then raise { d with ptp := { d.ptp with bad := 0, offset := d.ptp.offset - offset } } 1170 3 else d
  else
    let good := if offset.natAbs ≤ 500 then min 16 (d.ptp.good + 1) else 0
    let d := { d with ptp := { d.ptp with bad := 0, good := good, offset := d.ptp.offset - slew } }
    if good = 16 ∧ !d.ptp.locked then setPtpLock d true else d

/-- 3 s without a Sync or an Announce. -/
def ptpTimeout (d : Dev) : Dev :=
  if !d.ptp.locked then d
  else
    let d := advance d (d.ptp.lastAt + 3000000000)
    setPtpLock { d with ptp := { d.ptp with good := 0, bad := 0 } } false

/-- PPS_OUT rises at the next whole second of locked PTP time; a second that has passed unserved is served at once, and none is
skipped (R305, R574). -/
def ppsOut (d : Dev) : Dev :=
  if d.ptp.locked then
    let d := advance d ((d.ptp.ppsNext * 1000000000 : Nat) - d.ptp.offset).toNat
    emit { d with ptp := { d.ptp with ppsNext := d.ptp.ppsNext + 1 } } .pps
  else d

/-! ### Messages -/

/-- Message type and sequence number; the sender's port identity. -/
def ptpType (m : List Byte) : Nat := netNum m 0 1 % 16
def ptpSeq (m : List Byte) : Nat := netNum m 30 2
def ptpFrom (m : List Byte) : Nat := netNum m 20 10

/-- The correction field in whole ns, and the time stamp of the body in ns. -/
def ptpCorrection (m : List Byte) : Int := (word (netNum m 8 8)).toInt / 65536
def ptpStamp (m : List Byte) : Int := (netNum m 34 6 * 1000000000 + netNum m 40 4 : Nat)

/-- PTP time by the client's clock. -/
def clientTime (d : Dev) : Int := (d.now : Int) + d.ptp.offset

/-- The port identity of the client: its clock identity and port number 1. -/
def ownPort : Nat := Config.clockIdentity.toNat * 65536 + 1

/-- A Delay_Req with this sequence number. -/
def delayRequest (d : Dev) (seq : Nat) : List Byte :=
  [0x01, 0x12, 0, 44] ++ natBytesBE 1 (regFld d rMouthCtrl 39 32) ++ List.replicate 15 0 ++ natBytesBE 10 ownPort ++ natBytesBE 2 seq
    ++ [1, 0x7F] ++ List.replicate 10 0

/-! ### The master (R304: the best master clock algorithm) -/

/-- The order of the algorithm as one number, lower better: priority 1, class, accuracy and variance, priority 2, identity, steps
removed, sender. -/
def announceRank (m : List Byte) : Nat :=
  ((((netNum m 47 1 * 2 ^ 32 + netNum m 48 4) * 256 + netNum m 52 1) * 2 ^ 64 + netNum m 53 8) * 65536 + netNum m 61 2) * 2 ^ 80 + ptpFrom m

/-- The best of the masters heard. -/
def bestMaster (l : List PtpMaster) : Option PtpMaster :=
  l.foldl (fun b m => match b with | none => some m | some x => if m.rank < x.rank then some m else some x) none

/-- An Announce: its sender joins the masters heard in the last 3 s, and the client follows the best of them. -/
def announce (d : Dev) (m : List Byte) : Dev :=
  let new : PtpMaster := { port := ptpFrom m, gm := netNum m 53 8, rank := announceRank m, heard := d.now }
  let l := new :: d.ptp.masters.filter fun x => x.port != new.port && decide (d.now ≤ x.heard + 3000000000)
  let before := (bestMaster d.ptp.masters).map fun x => x.port
  let d := { d with ptp := { d.ptp with masters := l } }
  match bestMaster l with
  | none => d
  | some b =>
    let d := if before = some b.port then d else { d with ptp := { d.ptp with sync := none, request := none, path := none } }
    if b.port = new.port ∨ b.gm ≠ d.ptp.gm then setGm d b.gm else d

/-! ### Sync and delay -/

/-- A Sync whose times are known: the offset is judged once the path delay is known, and a Delay_Req leaves. -/
def syncTimes (d : Dev) (port gm : Nat) (udp : Bool) (t1 t2 : Int) : Dev :=
  let before := d.ptp.offset
  let d := match d.ptp.path with
    | some delay => ptpSync d (t2 - t1 - delay) gm
    | none => setGm d gm
  -- t2 as the clock reads that instant after the correction: t2 and t3 lie on one clock
  let t2 := t2 + (d.ptp.offset - before)
  let seq := d.ptp.requests % 65536
  emit { d with ptp := { d.ptp with t1 := t1, t2 := t2, slewAt := d.now, request := some (seq, clientTime d), requests := seq + 1 } } (.ptp port udp (delayRequest d seq))

/-- A message from the master that the client follows. -/
def masterMessage (d : Dev) (port gm : Nat) (udp : Bool) (m : List Byte) : Dev :=
  if ptpType m = 0 then
    if bit (word (netNum m 6 1)) 1 then
      let d := setGm d gm
      { d with ptp := { d.ptp with sync := some (ptpSeq m, clientTime d, ptpCorrection m) } }
    else syncTimes d port gm udp (ptpStamp m + ptpCorrection m) (clientTime d)
  else if ptpType m = 8 then
    match d.ptp.sync with
    | some (seq, t2, c) =>
      if seq = ptpSeq m then syncTimes { d with ptp := { d.ptp with sync := none } } port gm udp (ptpStamp m + ptpCorrection m + c) t2 else d
    | none => d
  else if ptpType m = 9 ∧ netNum m 44 10 = ownPort then
    match d.ptp.request with
    | some (seq, t3) =>
      if seq = ptpSeq m then
        { d with ptp := { d.ptp with
          request := none, path := some ((d.ptp.t2 - d.ptp.t1 + (ptpStamp m - ptpCorrection m - t3)) / 2) } }
      else d
    | none => d
  else d

/-- The client hears on another port than before: what it has heard on the old one is forgotten. -/
def hearOn (d : Dev) (port : Nat) : Dev :=
  if d.ptp.heardOn = port then d
  else { d with ptp := { d.ptp with heardOn := port, masters := [], sync := none, request := none, path := none } }

/-- A PTP message on the PTP port: of the client's domain, an Announce or a message of its master; others are not used. -/
def ptpMessage (d : Dev) (port : Nat) (udp : Bool) (m : List Byte) : Dev :=
  let d := hearOn d port
  if netNum m 4 1 ≠ regFld d rMouthCtrl 39 32 ∨ netNum m 1 1 % 16 ≠ 2 ∨ m.length < 44 then d
  else if ptpType m = 11 then announce d m
  else match bestMaster d.ptp.masters with
    | some b => if ptpFrom m = b.port then masterMessage d port b.gm udp m else d
    | none => d

end Sys2Proof.Machine
end

