-- ==== Sys2Proof/Machine/Uplink.lean ====
section
/-! DEFINITION. Uplink: SRTP packets of a bound decode context, their reordering, and the access units that their payloads make up
(R303). -/

namespace Sys2Proof.Machine

/-! ### RTP -/

/-- The length of an RTP header with its extension, which is accepted and ignored (R307). -/
def rtpHeaderLength (bs : List Byte) : Nat := 12 + (if netNum bs 0 1 / 16 % 2 = 1 then 4 + 4 * netNum bs 14 2 else 0)

/-- An RTP packet of the kind that Mouth supports: version 2, no padding, no CSRC (R307). -/
def rtpSupported (bs : List Byte) : Bool := netNum bs 0 1 / 64 == 2 && netNum bs 0 1 / 32 % 2 == 0 && netNum bs 0 1 % 16 == 0

/-- The SRTP index of a packet number, near the highest accepted (RFC 3711). -/
def indexNear (x : Key) (seq : Nat) : Nat :=
  if !x.accepted then seq
  else
    let last := x.index % 65536
    let roc := x.index / 65536
    let roc := if last < 32768 then (if 32768 < seq - last then (roc + two32 - 1) % two32 else roc)
      else (if seq < last - 32768 then (roc + 1) % two32 else roc)
    roc * 65536 + seq

/-! ### Payload formats -/

/-- The elements of an AV1 payload: W 0 gives each a length, else all but the last of W. -/
def av1Elements (fuel w : Nat) (bs : List Byte) : List (List Byte) :=
  match fuel with
  | 0 => []
  | k + 1 =>
    if bs.isEmpty then []
    else if w = 1 then [bs]
    else
      let sizeBytes := ((bs.takeWhile fun b => 128 ≤ b.toNat).length + 1)
      let n := (bs.take sizeBytes).reverse.foldl (fun v b => v * 128 + b.toNat % 128) 0
      (bs.drop sizeBytes).take n :: av1Elements k (if w = 0 then 0 else w - 1) (bs.drop (sizeBytes + n))

/-- An OBU in the low-overhead format: with its size field. -/
def withSize (o : List Byte) : List Byte :=
  let h := (o.headD 0).toNat
  if h / 2 % 2 = 1 then o
  else
    let n := if h / 4 % 2 = 1 then 2 else 1
    BitVec.ofNat 8 (h + 2) :: (o.take n).drop 1 ++ lebMin (o.length - n) ++ o.drop n

/-- What a payload adds to the access unit, and the unit whose fragments are still to come; `part` is the one begun before. -/
def av1Payload (part bs : List Byte) : List Byte × List Byte :=
  let h := netNum bs 0 1
  let els := av1Elements bs.length (h / 16 % 4) (bs.drop 1)
  let els := if h / 128 = 1 then (match els with | e :: r => if part.isEmpty then r else (part ++ e) :: r | [] => []) else els
  if h / 64 % 2 = 1 then ((els.dropLast).flatMap withSize, els.getLast?.getD []) else (els.flatMap withSize, [])

/-- The NAL units of an aggregation packet behind its header. -/
def aggregated (fuel : Nat) (bs : List Byte) : List (List Byte) :=
  match fuel with
  | 0 => []
  | k + 1 => if bs.length < 2 then [] else (bs.drop 2).take (netNum bs 0 2) :: aggregated k (bs.drop (2 + netNum bs 0 2))

/-- A NAL unit in the byte stream format. -/
def startCode (u : List Byte) : List Byte := [0, 0, 0, 1] ++ u

/-- The type of a NAL unit or packet. -/
def nalType (hevc : Bool) (bs : List Byte) : Nat := if hevc then netNum bs 0 1 / 2 % 64 else netNum bs 0 1 % 32

/-- A fragment: the unit's own header is rebuilt at its start. -/
def fragment (hevc : Bool) (part bs : List Byte) : List Byte × List Byte :=
  let h := netNum bs 0 1
  let fu := netNum bs (if hevc then 2 else 1) 1
  let data := bs.drop (if hevc then 3 else 2)
  let unit :=
    if fu / 128 = 1 then
      (if hevc then [BitVec.ofNat 8 (h / 128 * 128 + fu % 64 * 2 + h % 2), bs.getD 1 0] else [BitVec.ofNat 8 (h / 32 * 32 + fu % 32)]) ++ data
    else if part.isEmpty then [] else part ++ data
  if fu / 64 % 2 = 1 then (if unit.isEmpty then [] else startCode unit, []) else ([], unit)

/-- HEVC and AVC payloads: single NAL unit, aggregation and fragmentation packets. -/
def nalPayload (hevc : Bool) (part bs : List Byte) : List Byte × List Byte :=
  let t := nalType hevc bs
  if t = (if hevc then 49 else 28) then fragment hevc part bs
  else if t = (if hevc then 48 else 24) then ((aggregated bs.length (bs.drop (if hevc then 2 else 1))).flatMap startCode, [])
  else (startCode bs, [])

/-- An AVC packet of packetization-mode 2: STAP-B, MTAP16, MTAP24 and FU-B (RFC 6184). -/
def modeTwo (codec : Nat) (bs : List Byte) : Bool := 1 < codec && !bs.isEmpty && [25, 26, 27, 29].contains (nalType false bs)

/-- The payload formats that are accepted (R303): no PACI, no AVC packet of packetization-mode 2. -/
def formatOk (codec : Nat) (bs : List Byte) : Bool :=
  !bs.isEmpty &&
    (if codec = 0 then true else if codec = 1 then decide (nalType true bs < 50)
      else decide (0 < nalType false bs) && decide (nalType false bs ≤ 24) || nalType false bs == 28)

def payloadBytes (codec : Nat) (part bs : List Byte) : List Byte × List Byte :=
  if codec = 0 then av1Payload part bs else nalPayload (codec == 1) part bs

/-! ### The reorder window (R303) -/

/-- The decode context bound to a destination port on port p. -/
def boundCtx (d : Dev) (p udp : Nat) (ipv6 : Bool) : Option Nat :=
  (d.ctxs.find? fun e => match e.2.binding with
    | some b => b.dstUdp == udp && b.ipv6 == ipv6 && (if p = 0 then b.e0 else b.e1)
    | none => false).map fun e => e.1

def onBinding (d : Dev) (c : Nat) (f : Binding → Binding) : Dev := d.onCtx c fun x => { x with binding := x.binding.map f }

/-- A packet in order is depacketised. -/
def deliver (s : State) (c : Nat) (marker : Bool) (ts : Nat) (payload : List Byte) : State :=
  let b := (s.dev.ctx c).binding
  let cur := (b.map fun b => b.curTs).getD ts
  let x := payloadBytes (s.dev.ctx c).codec ((b.map fun b => b.part).getD []) payload
  let s := if (s.dev.ctx c).auOpen.isSome && cur != ts then auComplete s 0xF9 c true cur else s
  let s := auAppend s 0xF9 c x.1
  let s := s.onDev fun d => onBinding d c fun b => { b with curTs := ts, lastMarker := marker, part := x.2 }
  if marker then auComplete s 0xF9 c true ts else s

/-- Delivers what follows in order from the reorder window. -/
def deliverNext (fuel : Nat) (s : State) (c : Nat) : State :=
  match fuel with
  | 0 => s
  | k + 1 =>
    match (s.dev.ctx c).binding with
    | none => s
    | some b =>
      match b.nextRtp.bind fun n => b.window.find? fun e => e.1 == n with
      | none => s
      | some e =>
        let s := s.onDev fun d => onBinding d c fun b =>
          { b with window := b.window.filter fun x => x.1 != e.1, nextRtp := some ((e.1 + 1) % 65536), windowAt := d.now }
        deliverNext k (deliver s c e.2.1 e.2.2.1 e.2.2.2) c

/-- How far a packet number lies ahead of the one expected. -/
def rtpAhead (next seq : Nat) : Nat := (seq + 65536 - next % 65536) % 65536

/-- The reorder window closes with its gap still open: LOST is set on the unit in progress, or the gap is a record of its
own where it began right after a marker. -/
def closeWindow (s : State) (c : Nat) : State :=
  match (s.dev.ctx c).binding with
  | none => s
  | some b =>
    let next := b.nextRtp.getD 0
    match b.window.foldl (fun m e => match m with
        | none => some e.1
        | some k => if rtpAhead next e.1 < rtpAhead next k then some e.1 else some k) (none : Option Nat) with
    | none => s
    | some first =>
      let s := s.onDev fun d => d.onCtx c auLose
      let s := if b.lastMarker then auComplete s 0xF9 c true b.curTs else s
      let s := s.onDev fun d => onBinding d c fun b => { b with nextRtp := some first, lastMarker := false, part := [] }
      deliverNext (b.window.length + 1) s c

/-- A packet that has been decrypted enters the window. -/
def acceptRtp (s : State) (c : Nat) (b : Binding) (seq ts : Nat) (marker : Bool) (payload : List Byte) : State :=
  let next := b.nextRtp.getD seq
  if 32768 ≤ rtpAhead next seq ∨ (b.window.any fun e => e.1 == seq) then s
  else
    let s := s.onDev fun d => onBinding d c fun b =>
      { b with nextRtp := some next, window := b.window ++ [(seq, marker, ts, payload)]
               windowAt := if b.window.isEmpty then d.now else b.windowAt }
    let s := deliverNext (b.window.length + 2) s c
    let held := (((s.dev.ctx c).binding.map fun b => b.window.length)).getD 0
    if b.reorderPkts < held then closeWindow s c else s

/-- An uplink packet of a bound context: the binding's payload type and SSRC, decrypted with its key, in an accepted format. -/
def uplink (s : State) (c : Nat) (bytes : List Byte) : State :=
  let x := s.dev.ctx c
  match x.binding with
  | none => s
  | some b =>
    let ssrc := netNum bytes 8 4
    let seq := netNum bytes 2 2
    let n := rtpHeaderLength bytes
    let index := indexNear (s.dev.key b.keySlot) seq
    if (x.phase != .admitted && x.phase != .running) || !rtpSupported bytes || netNum bytes 1 1 % 128 ≠ b.pt
        || (!b.anySsrc && ssrc != b.ssrc) then s
    else
      match openWith s.dev b.keySlot 2 fun m => srtpOpen m ssrc index (bytes.take n) (bytes.drop n) with
      | none => s
      | some payload =>
        let s := s.onDev fun d => d.onKey b.keySlot fun k =>
          { k with index := if k.accepted then max k.index index else index, accepted := true }
        if formatOk x.codec payload then acceptRtp s c b seq (netNum bytes 4 4) (128 ≤ netNum bytes 1 1) payload
        else if modeTwo x.codec payload then s.onDev fun d => d.onCtx c fun x => { x with modeTwo := x.modeTwo + 1 }
        else s

/-- REORDER_US has passed since the first packet was held. -/
def reorderExpiry (s : State) (c : Nat) : State :=
  match (s.dev.ctx c).binding with
  | none => s
  | some b =>
    if b.window.isEmpty then s else closeWindow (s.onDev fun d => advance d (b.windowAt + b.reorderUs * 1000)) c

end Sys2Proof.Machine
end

