-- ==== Sys2Proof/Machine/Feedback.lean ====
section
/-! DEFINITION. What the ports receive: classification, feedback and its attribution, learning, the host receive ring; and the timers of
Mouth (R167 to R172, R300 to R302, R305, R318, R325, R330, R331, R363). -/

namespace Sys2Proof.Machine

/-! ### The host receive ring (R299, R300) -/

/-- A record of KIND 3; where the ring has no room the frame is lost. -/
def hostReceive (d : Dev) (p recip stream : Nat) (bytes : List Byte) : Dev :=
  let before := srcState d 1171
  match ringPut d 1 (recHdr0 bytes.length 3 (64 * p) recip stream) 0 (timeWord d) bytes with
  | some d => edge d 1171 before
  | none => d

/-- Rule 5 of R300. -/
def unclaimed (d : Dev) (p : Nat) (bytes : List Byte) : Dev :=
  if regBit d (rPort p 0) 5 then hostReceive d p 0xFFFF 0xFF bytes
  else raiseLim (d.onPort p fun q => { q with unclaimed := q.unclaimed + 1 }) 1000000 1168 1

/-- A frame dropped by rule 1 of R300, with FEC_UNCORR where an uncorrectable codeword is its cause (R311). -/
def badFrame (d : Dev) (p : Nat) (fec : Bool) : Dev :=
  let d := d.onPort p fun q => { q with badFrames := q.badFrames + 1 }
  if fec then raiseLim d 1000000 (1104 + 16 * p + 1) 1 else d

/-! ### RTCP packets (R167, R168, R325) -/

/-- A feedback item inside one authenticated RTCP packet (R167, R168). -/
inductive FbItem where
  /-- One 8-byte item of the device feedback payload (R168): type, byte 1, count, sequence number. -/
  | wlnf (type reserved count seq : Nat)
  /-- A Generic NACK and the RTP sequence numbers it lists. -/
  | nack (rtp : List Nat)
  | pli
  | fir
  | sli
  | rpsi
  /-- Any other RTCP packet, receiver reports included. -/
  | other
deriving DecidableEq, Repr

/-- The payload type of the first RTCP packet of a compound packet, and its sender SSRC. -/
def rtcpPt (bs : List Byte) : Nat := netNum bs 1 1
def rtcpSender (bs : List Byte) : Nat := netNum bs 4 4

/-- The lists of n bytes that a list holds, one after the other. -/
def chunks (fuel n : Nat) (bs : List Byte) : List (List Byte) :=
  match fuel with
  | 0 => []
  | k + 1 => if bs.length < n then [] else bs.take n :: chunks k n (bs.drop n)

/-- The packet numbers that an entry of a Generic NACK lists: PID, and PID + i + 1 for each bit i of BLP (RFC 4585). -/
def nackNumbers (e : List Byte) : List Nat :=
  let pid := netNum e 0 2
  pid :: ((List.range 16).filter fun i => netNum e 2 2 / 2 ^ i % 2 == 1).map fun i => (pid + i + 1) % 65536

/-- The identifier "WLNF" of the device feedback payload (R168). -/
def wlnf : Nat := 0x574C4E46

/-- The items of one RTCP packet: its payload type, its FMT and its FCI. -/
def packetItems (pt fmt : Nat) (fci : List Byte) : List FbItem :=
  if pt = 206 ∧ fmt = 15 ∧ netNum fci 0 4 = wlnf then
    (chunks fci.length 8 (fci.drop 4)).map fun e => .wlnf (netNum e 0 1) (netNum e 1 1) (netNum e 2 2) (netNum e 4 4)
  else if pt = 205 ∧ fmt = 1 then [.nack ((chunks fci.length 4 fci).flatMap nackNumbers)]
  else if pt = 206 ∧ fmt = 1 then [.pli]
  else if pt = 206 ∧ fmt = 4 then [.fir]
  else if pt = 206 ∧ fmt = 2 then [.sli]
  else if pt = 206 ∧ fmt = 3 then [.rpsi]
  else [.other]

/-- The items of a compound packet in order, each with the media source SSRC of its packet (RFC 3550, RFC 4585). -/
def rtcpItems (fuel : Nat) (bs : List Byte) : List (Nat × FbItem) :=
  match fuel with
  | 0 => []
  | k + 1 =>
    let len := 4 * (netNum bs 2 2 + 1)
    if bs.length < 8 ∨ bs.length < len then []
    else
      let pad := if netNum bs 0 1 / 32 % 2 = 1 then netNum bs (len - 1) 1 else 0
      let fci := ((bs.take (len - pad)).drop 12)
      ((packetItems (netNum bs 1 1) (netNum bs 0 1 % 32) fci).map fun i => (netNum bs 8 4, i)) ++ rtcpItems k (bs.drop len)

/-! ### Attribution and items (R301, R302, R325) -/

/-- The stream whose feedback port a datagram names (rule 3 of R300). -/
def feedbackStream (d : Dev) (udp pt : Nat) : Option Nat :=
  (List.range 192).find? fun n =>
    let c := reg d (rMs n oMsCfg)
    let src := fld c 31 16
    src != 0 && (if bit c 62 then udp == src && inRange pt 192 223 else udp == src + 1)

/-- What a Generic NACK number is to the context of a slot. -/
inductive NackRef where
  | unused
  | older
  | void
  | band (seq : Nat)
deriving DecidableEq, Repr

/-- Maps a packet number through the history of a slot's context (R302). -/
def nackRef (x : Key) (rtp : Nat) : NackRef :=
  let back := (x.index + 65535 - rtp % 65536) % 65536
  if 32768 ≤ back ∨ x.index ≤ back + x.firstIndex then .unused
  else
    let i := x.index - 1 - back
    match x.history.find? fun h => decide (h.2.1 ≤ i) && decide (i < h.2.1 + h.2.2.1) with
    | none => .older
    | some h => if h.2.2.2.2 then .void else .band h.1

/-- The packet numbers of one Generic NACK of recipient r. -/
def applyNack (d : Dev) (r : Nat) (l : List Nat) : Dev :=
  let refs := l.map fun i => nackRef (d.key (d.recip r).keySlot) i
  let n := (d.recip r).stream
  let d := recipErr d r 23 (refs.filter fun x => x == .void).length
  let d := refErr d n 6 (refs.filter fun x => x == .unused).length
  -- each number that can no longer be mapped is a LOSS with COUNT 0 (R170)
  let d := each (refs.filter fun x => x == .older) d fun d _ => mark d r none
  each (uniq (refs.filterMap fun x => match x with | .band s => some s | _ => none)) d fun d s => markSeq d r s

/-- One item of an authenticated packet of recipient r. -/
def applyItem (d : Dev) (r media : Nat) (i : FbItem) : Dev :=
  let n := (d.recip r).stream
  match i with
  | .wlnf type reserved count seq =>
    if media ≠ regFld d (rMs n oMsRtp) 63 32 ∨ reserved ≠ 0 then refErr d n 6 1
    else if type = 1 ∧ count = 0 then applyAck d r seq
    else if type = 2 then applyLoss d r count seq
    else if type = 3 ∧ count = 0 ∧ seq = 0 then keyRequest d n false
    else if type = 4 ∧ count = 0 ∧ seq = 0 then refreshRequest d n
    else refErr d n 6 1
  | .nack l => applyNack d r l
  | .pli => mark d r none
  | .fir => keyRequest d n false
  | .sli => refErr d n 6 1
  | .rpsi => refErr d n 6 1
  | .other => d

/-! ### Learning (R330, R331, R343) -/

def setLearned (d : Dev) (r p : Nat) (l : List Learned) : Dev :=
  d.onRecip r fun x => if p = 0 then { x with learned0 := l } else { x with learned1 := l }

/-- The four learned slots of a block. -/
def slots4 (l : List Learned) : List Learned := (List.range 4).map fun i => l.getD i ({} : Learned)

/-- Two sources are one learned key. -/
def sameKey (a b : Source) : Bool := a.ipv6 == b.ipv6 && a.addrHi == b.addrHi && a.addrLo == b.addrLo && a.udp == b.udp

/-- The slot with the oldest LAST_SEEN. -/
def oldestSlot (l : List Learned) : Nat :=
  ((List.range 4).foldl (fun b i => if (l.getD i ({} : Learned)).lastSeen < (l.getD b ({} : Learned)).lastSeen then i else b) 0)

/-- Learning from a feedback packet; the second result says that the packet is punted. -/
def learnAddr (d : Dev) (r p : Nat) (src : Source) : Dev × Bool :=
  let cfg := reg d (rPort p 0x28)
  if !(d.recip r).learn || !bit cfg 63 then (d, false)
  else
    let l := slots4 (learnedOf (d.recip r) p)
    let fill := fun i => setLearned d r p (l.set i { valid := true, src := src, lastSeen := d.now })
    match l.findIdx? fun s => s.valid && sameKey s.src src with
    | some i => (fill i, false)
    | none =>
      match l.findIdx? fun s => !s.valid with
      | some i => (fill i, false)
      | none =>
        if bit cfg 62 then (limited (incErr d (rPortPunts p)) (limKey 1168 4 p) 1000000 fun d => raise d 1168 4 r, true)
        else (incErr (fill (oldestSlot l)) (rPortEvicts p), false)

/-- An SRTCP packet of recipient r is not a replay: its index is new, and within 64 of the highest accepted. -/
def rtcpFresh (x : Recip) (index : Nat) : Bool := !x.rtcpSeen.contains index && decide (x.rtcpSeen.headD 0 < index + 64)

/-- An accepted SRTCP index. -/
def noteRtcp (x : Recip) (index : Nat) : Recip :=
  let top := max index (x.rtcpSeen.headD 0)
  { x with rtcpSeen := top :: ((index :: x.rtcpSeen).filter fun k => decide (top < k + 64) && k != top) }

/-- The compound packet that recipient r's SRTCP packet holds, where it authenticates and is no replay. -/
def openFeedback (d : Dev) (r : Nat) (packet : List Byte) : Option (List Byte) :=
  if rtcpFresh (d.recip r) (srtcpWord packet % 2 ^ 31) then openWith d (d.recip r).keySlot 1 fun m => srtcpOpen m packet else none

/-- The recipient of stream n to which a feedback packet is attributed. -/
def sentBy (d : Dev) (n : Nat) (packet : List Byte) : Option Nat :=
  (recipsOf d n).find? fun r => (d.recip r).clientSsrc == rtcpSender packet

/-- A feedback packet of stream n. -/
def feedback (d : Dev) (p n : Nat) (src : Source) (packet : List Byte) : Dev :=
  match sentBy d n packet with
  | none => raiseLim (d.onMouth fun m => { m with unattributed := m.unattributed + 1 }) 1000000 1168 3
  | some r =>
    match openFeedback d r packet with
    | none => raiseLim (d.onMouth fun m => { m with authFails := m.authFails + 1 }) 1000000 1168 2
    | some bytes =>
      let d := d.onRecip r fun x => noteRtcp x (srtcpWord packet % 2 ^ 31)
      let x := learnAddr d r p src
      if x.2 then hostReceive x.1 p r n bytes
      else
        let items := rtcpItems bytes.length bytes
        let d := each items x.1 fun d i => applyItem d r i.1 i.2
        if (items.any fun i => i.2 == .other) && regBit d rMouthCtrl 45 then hostReceive d p r n bytes else d

/-! ### Classification (R300) -/

/-- A UDP datagram on port p: feedback, uplink, or nothing that Mouth claims. -/
def receiveDatagram (s : State) (p : Nat) (g : Datagram) (body : List Byte) : State :=
  match feedbackStream s.dev g.dstUdp (rtcpPt g.payload) with
  | some n => s.onDev fun d => feedback d p n g.src g.payload
  | none =>
    match boundCtx s.dev p g.dstUdp g.src.ipv6 with
    | some c => uplink s c g.payload
    | none => s.onDev fun d => unclaimed d p body

/-- A frame received on a port. A stopped device keeps its PTP client alone (R477). -/
def receive (s : State) (p : Nat) (bytes : List Byte) : State :=
  let other := fun (s : State) => if stopped s.dev then s else s.onDev fun d => unclaimed d p (frameBody bytes)
  let onPtpPort := regFld s.dev rPtpStatus 62 62 == p
  if !(s.dev.port p).up then s
  else
    match parseFrame bytes with
    | .bad fec => s.onDev fun d => badFrame d p fec
    | .pause => s.onDev fun d => d.onPort p fun q => { q with pauseFrames := q.pauseFrames + 1 }
    | .ptp m => if onPtpPort then s.onDev fun d => landIfDue (ptpMessage d p false m) else other s
    | .datagram g =>
      if onPtpPort && (g.dstUdp == 319 || g.dstUdp == 320) then s.onDev fun d => landIfDue (ptpMessage d p true g.payload)
      else if stopped s.dev then s
      else receiveDatagram s p g (frameBody bytes)
    | .other => other s

/-! ### Timers of recipients and keys -/

/-- No ACK for ACK_TMO_MS (R172). -/
def silentExpiry (d : Dev) (r : Nat) : Dev :=
  let x := d.recip r
  if x.valid && x.reports && !x.silent then silence (advance d (silentAt d r)) r else d

/-- A learned slot ages out (R330). -/
def learnedExpiry (d : Dev) (r p i : Nat) : Dev :=
  let age := regFld d (rPort p 0x28) 31 0
  let l := slots4 (learnedOf (d.recip r) p)
  let x := l.getD i ({} : Learned)
  if age = 0 ∨ !x.valid then d
  else setLearned (advance d (x.lastSeen + age * 1000000 + 1)) r p (l.set i ({} : Learned))

/-- The old key of a slot whose grace ends first is no longer accepted (R363). -/
def graceEnd (d : Dev) (k : Nat) : Dev :=
  let x := d.key k
  match ((x.graceUntil.toList ++ x.older.map fun o => o.2).foldl (fun m t => some (min t (m.getD t))) (none : Option Nat)) with
  | none => d
  | some t =>
    (advance d t).onKey k fun x =>
      let x := { x with older := x.older.filter fun o => t < o.2 }
      if x.graceUntil = some t then { x with graceUntil := none, old := 0 } else x

/-! ### Commands -/

/-- FRAME_RECEIVE (R300). -/
def execFrameReceive (p : Fin 2) (bytes : List Byte) (s : State) : Host.Outcome State Fault Refusal :=
  ok (if alive s.dev then keepRecords (fun s => receive s p bytes) s else s)

/-- REORDER_WINDOW_CLOSE (R303). -/
def execReorderWindowClose (c : Fin 96) (s : State) : Host.Outcome State Fault Refusal :=
  ok (if working s.dev then reorderExpiry s c else s)

/-- UNLOCKED (R304). -/
def execUnlocked (s : State) : Host.Outcome State Fault Refusal :=
  ok (if alive s.dev then s.onDev ptpTimeout else s)

/-- PPS_OUT_SECOND (R305). -/
def execPpsOutSecond (s : State) : Host.Outcome State Fault Refusal :=
  ok (if alive s.dev then s.onDev ppsOut else s)

/-- PPS_IN_EDGE (R305). -/
def execPpsInEdge (s : State) : Host.Outcome State Fault Refusal :=
  ok (if alive s.dev then s.onDev fun d => setReg d rPpsIn (timeWord d) else s)

/-- SILENT (R172). -/
def execSilent (r : Fin 16384) (s : State) : Host.Outcome State Fault Refusal :=
  ok (if working s.dev then keepRecords (fun s => s.onDev fun d => silentExpiry d r) s else s)

/-- LEARNED_SLOT_EXPIRY (R330). -/
def execLearnedSlotExpiry (r : Fin 16384) (p : Fin 2) (i : Fin 4) (s : State) : Host.Outcome State Fault Refusal :=
  ok (if working s.dev then s.onDev fun d => learnedExpiry d r p i else s)

/-- GRACE_END (R363). -/
def execGraceEnd (k : Fin 20480) (s : State) : Host.Outcome State Fault Refusal :=
  ok (if working s.dev then s.onDev fun d => graceEnd d k else s)

end Sys2Proof.Machine
end

