-- ==== Sys2Proof/Machine/Recips.lean ====
section
/-! DEFINITION. Recipients and QUEUE commands: the entry, RECIP commands, the operations of `RECIP_CMD`, bindings,
mirrors and the egress fields of a stream (R298, R303, R312 to R327, R332, R337, R342, R365). -/

namespace Sys2Proof.Machine

/-! ### The entry (R315, R318) -/

/-- Word 0 of an entry. -/
def entryWord0 (x : Recip) : Word :=
  word (x.valid.toNat * 2 ^ 63 + x.stream % 256 * 2 ^ 55 + x.group % 8 * 2 ^ 52 + x.reports.toNat * 2 ^ 51
    + x.silent.toNat * 2 ^ 50 + x.marked.toNat * 2 ^ 49 + x.cls % 4 * 2 ^ 47 + x.dup % 4 * 2 ^ 45 + x.ports % 4 * 2 ^ 43
    + x.ipv6.toNat * 2 ^ 42 + x.learn.toNat * 2 ^ 41 + x.keySlot % 65536 * 2 ^ 16 + x.dstUdp % 65536)

/-- Word w of an entry. -/
def entryWord (x : Recip) (w : Nat) : Word :=
  if w = 0 then entryWord0 x
  else if w = 1 then word x.addrHi
  else if w = 2 then word x.addrLo
  else if w = 3 then word x.mac0
  else if w = 4 then word x.mac1
  else if w = 5 then word (x.clientSsrc * two32)
  else if w = 6 then word (x.rate * two32 + x.burst)
  else if w = 8 then word (x.countFrom % two32 * two32 + x.lastAck % two32)
  else if w = 9 then word x.lastAckTime
  else if w = 10 then word (x.lost % two32 * two32)
  else if w = 11 then word (min x.latHwm (two32 - 1) * two32 + min x.depthHwm (two32 - 1))
  else if w = 12 then word (x.qlen % two32)
  else if 16 ≤ w ∧ w ≤ 23 then x.cnt.get 0 w
  else 0

/-- The configuration fields that entry words 0 to 6 spell, over the other fields of an entry. -/
def withWords (x : Recip) (ws : Nat → Word) : Recip :=
  { x with
    stream := fld (ws 0) 62 55, group := fld (ws 0) 54 52, reports := bit (ws 0) 51, cls := fld (ws 0) 48 47
    dup := fld (ws 0) 46 45, ports := fld (ws 0) 44 43, ipv6 := bit (ws 0) 42, learn := bit (ws 0) 41
    keySlot := fld (ws 0) 31 16, dstUdp := fld (ws 0) 15 0, addrHi := (ws 1).toNat, addrLo := (ws 2).toNat
    mac0 := fld (ws 3) 47 0, mac1 := fld (ws 4) 47 0, clientSsrc := fld (ws 5) 63 32, rate := fld (ws 6) 63 32
    burst := fld (ws 6) 23 0 }

/-- Reserved bits of words 0 to 6 are zero. -/
def entryBitsOk (ws : Nat → Word) : Bool :=
  within (ws 0) (ones 63 41 ||| ones 31 0) && within (ws 3) (ones 47 0) && within (ws 4) (ones 47 0)
    && within (ws 5) (ones 63 32) && within (ws 6) (ones 63 32 ||| ones 23 0)

/-- A unicast address of its family (R327). -/
def unicast (x : Recip) : Bool :=
  if x.ipv6 then x.addrHi / 2 ^ 56 != 0xFF && !(x.addrHi == 0 && x.addrLo == 0)
  else decide (x.addrHi < two32) && x.addrLo == 0 && inRange (x.addrHi / 2 ^ 24) 1 223

/-- The configuration fields are within R327. -/
def fieldsOk (x : Recip) : Bool :=
  decide (1 ≤ x.dstUdp) && unicast x && (x.rate == 0 || (inRange x.rate 64 100000000 && inRange x.burst 1024 16777215))
    && decide (x.dup ≤ 2)

/-! ### The key-slot policy (R365) -/

/-- The lowest-numbered enabled range that holds slot k. -/
def policyOf (d : Dev) (k : Nat) : Option Word :=
  ((List.range 16).map fun r => reg d (rKeyPolicy r)).find? fun w => bit w 63 && decide (fld w 15 0 ≤ k) && decide (k ≤ fld w 31 16)

/-- Valid recipients that name slot k. -/
def naming (d : Dev) (k : Nat) : List Nat := (d.recips.filter fun e => e.2.valid && e.2.keySlot == k).map fun e => e.1

/-- Recipient r of stream n may name slot k: a TX range governs it, its share is not exceeded, and every other recipient
that names it belongs to the stream. -/
def slotOk (d : Dev) (r n k : Nat) : Bool :=
  let others := (naming d k).filter fun o => o != r
  match policyOf d k with
  | some w => fld w 62 60 == 1 && decide (others.length + 1 ≤ fld w 51 39) && others.all fun o => (d.recip o).stream == n
  | none => false

/-! ### RECIP.ADD, RECIP.REMOVE (R31, R324, R326) -/

/-- The ports that a policy may use. -/
def portsOf (p : Nat) : List Nat := if p = 0 then [0] else if p = 1 then [1] else [0, 1]

/-- The entry that RECIP.ADD creates. -/
def newRecip (d : Dev) (p : Pkt) : Recip :=
  let x := withWords ({ valid := true, countNext := true, lastAckTime := d.now } : Recip) fun w => p.w (w + 1)
  { x with tokens := bucket x, tokenSlot := slotNow d }

/-- RECIP.ADD is refused with BAD_PARAM for its words. -/
def addBad (d : Dev) (p : Pkt) (r : Nat) : Bool :=
  let x := newRecip d p
  let n := x.stream
  let st := d.stream n
  !entryBitsOk (fun w => p.w (w + 1)) || p.b 1 63 || p.b 1 50 || p.b 1 49 || decide (192 ≤ n)
    || (st.phase != .admitted && st.phase != .running) || !fieldsOk x || (d.recip r).valid
    || ((recipsOf d n).any fun o => (d.recip o).clientSsrc == x.clientSsrc)
    || (regFld d (rMs n oMsCfg) 31 16 == 0 && !st.srcUdpSet)
    || ((portsOf x.ports).any fun q => (if q = 0 then x.mac0 else x.mac1) == 0) || !slotOk d r n x.keySlot

/-- The entry that RECIP.ADD names: the target, or the lowest free one. -/
def addTarget (d : Dev) (p : Pkt) : Option Nat :=
  if p.target ≠ 0xFFFF then some p.target else (List.range 16384).find? fun r => !(d.recip r).valid

def opRecipAdd (s : State) (p : Pkt) : State × Answer :=
  let d := s.dev
  let x := newRecip d p
  let tgt := addTarget d p
  let r := tgt.getD 16384
  match firstRefusal
    [ (hdrBadOpen p 7 16384, stBadParam)
    , ((p.target == 0xFFFF && p.fn != 0) || notOwner p (d.streamOwner x.stream), stDenied) ] with
  | some st => refuse s p st
  | none =>
    if tgt.isSome && !recipGranted d p.fn r x.stream true then denyCommand s p (320 + r / 64) (some x.stream)
    else if x.keySlot < 20480 ∧ !keyGranted d p.fn x.keySlot true then denyCommand s p (576 + x.keySlot / 64) (some x.stream)
    else
      match firstRefusal
        [ (addBad d p r, stBadParam), (tgt.isNone || decide (4096 ≤ (recipsOf d x.stream).length), stNoRecipient) ] with
      | some st => refuse s p st
      | none => (keepRecords (fun s => s.onDev fun d => d.setRecip r x) s, .now stOk [] r)

/-- The refusals of a command on an existing entry, up to its parameter words: a free entry is no target (DEDUCED). -/
def recipRefusals (d : Dev) (p : Pkt) (count : Nat) (query : Bool) : List (Bool × Nat) :=
  [ (hdrBad p count 16384, stBadParam), (notOwner p (d.streamOwner (d.recip p.target).stream), stDenied)
  , (!query && !(d.recip p.target).valid, stBadParam) ]

/-- A command on an entry: the access table of its range is checked after the issuer. -/
def onEntry (s : State) (p : Pkt) (count : Nat) (query : Bool) (more : List (Bool × Nat))
    (effect : State → State × List Word) : State × Answer :=
  let x := s.dev.recip p.target
  match firstRefusal ((recipRefusals s.dev p count query).take 2) with
  | some st => refuse s p st
  | none =>
    if !recipGranted s.dev p.fn p.target x.stream (!query) then denyCommand s p (320 + p.target / 64) (some x.stream)
    else simply s p (recipRefusals s.dev p count query ++ more) effect

def opRecipRemove (s : State) (p : Pkt) : State × Answer :=
  onEntry s p 0 false [] fun s => (keepRecords (fun s => s.onDev fun d => freeRecip d p.target) s, [])

/-! ### MODIFY (R322, R323, R337) -/

/-- The entry that words 0 to 6 make of recipient r. -/
def modified (d : Dev) (r : Nat) (ws : Nat → Word) : Recip := withWords (d.recip r) ws

/-- MODIFY is refused for its words. -/
def modifyBad (d : Dev) (r : Nat) (ws : Nat → Word) : Bool :=
  let x := d.recip r
  let y := modified d r ws
  !entryBitsOk ws || x.stream != y.stream || x.group != y.group || x.reports != y.reports || !fieldsOk y
    || !slotOk d r x.stream y.keySlot

/-- The entry blocks of a queue belong to its class (R279). -/
def moveBlocks (d : Dev) (l : List (Nat × Nat)) (a b : Nat) : Dev :=
  if a = b then d
  else each l d fun d x =>
    let q := x.1
    let d := setUsed d q (classOwner a) (usedBy d q (classOwner a) - 1)
    setUsed d q (classOwner b) (usedBy d q (classOwner b) + 1)

/-- The MODIFY lands. A change of RATE or BURST fills the shaper, and a queue in the calendar enters it again. -/
def modify (d : Dev) (r : Nat) (ws : Nat → Word) : Dev :=
  let x := d.recip r
  let y := modified d r ws
  let d := (moveBlocks d x.blocks x.cls y.cls).setRecip r y
  if x.rate = y.rate ∧ x.burst = y.burst then d
  else
    let d := d.onRecip r fun y => { y with tokens := bucket y, tokenSlot := slotNow d }
    match y.place with
    | .calendar _ => enterCalendar d r
    | _ => d

def opRecipModify (s : State) (p : Pkt) : State × Answer :=
  let ws := fun w => p.w (w + 1)
  let k := fld (p.w 1) 31 16
  let x := s.dev.recip p.target
  match firstRefusal ((recipRefusals s.dev p 7 false).take 2) with
  | some st => refuse s p st
  | none =>
    if recipGranted s.dev p.fn p.target x.stream true && decide (k < 20480) && !keyGranted s.dev p.fn k true then
      denyCommand s p (576 + k / 64) (some x.stream)
    else onEntry s p 7 false [(modifyBad s.dev p.target ws, stBadParam)] fun s => (s.onDev fun d => modify d p.target ws, [])

/-! ### QUERY, CLEAR, FLUSH -/

/-- LAT_HWM and DEPTH_HWM are cleared after a read. -/
def clearHwm (d : Dev) (r : Nat) : Dev := d.onRecip r fun x => { x with latHwm := 0, depthHwm := 0 }

def opRecipQuery (s : State) (p : Pkt) : State × Answer :=
  let x := s.dev.recip p.target
  let half := p.f 1 0 0
  onEntry s p 1 true [(!within (p.w 1) (ones 1 0), stBadParam)] fun s =>
    (if p.b 1 1 then s.onDev fun d => clearHwm d p.target else s, (List.range 16).map fun i => entryWord x (16 * half + i))

/-- Error counters of the entry whose bits are set are cleared, words 18 to 23. -/
def clearEntry (d : Dev) (r : Nat) (v : Word) : Dev := d.onRecip r fun x => { x with cnt := clearCnt x.cnt v [18, 19, 20, 21, 22, 23] }

def opRecipClear (s : State) (p : Pkt) : State × Answer :=
  onEntry s p 1 false [(!within (p.w 1) (ones 23 18), stBadParam)] fun s => (s.onDev fun d => clearEntry d p.target (p.w 1), [])

/-- Every learned slot of a port becomes free (R332). -/
def flushPort (d : Dev) (r p : Nat) : Dev := setLearned d r p []

def opRecipFlush (s : State) (p : Pkt) : State × Answer :=
  onEntry s p 1 false [(!within (p.w 1) 1, stBadParam)] fun s => (s.onDev fun d => flushPort d p.target (p.f 1 0 0), [])

/-! ### `RECIP_CMD` (R319 to R322) -/

/-- The operation ends with a RESULT. -/
def cmdResult (d : Dev) (r result : Nat) : Dev :=
  setRegFld (setRegFld d rRecipStatus 55 48 result) rRecipStatus 13 0 r

/-- Writes the window from word 0. -/
def setWindow (d : Dev) (f : Nat → Word) : Dev := each (List.range 32) d fun d w => setReg d (rRecipData w) (f w)

/-- Words of a learned block. -/
def learnedWord (l : List Learned) (w : Nat) : Word :=
  let s := l.getD (w / 4) ({} : Learned)
  if 16 ≤ w then 0
  else if w % 4 = 0 then word s.src.addrHi
  else if w % 4 = 1 then word s.src.addrLo
  else if w % 4 = 2 then word (s.src.udp % 65536 * 2 ^ 48 + s.src.mac % 2 ^ 48)
  else word (s.valid.toNat * 2 ^ 63 + s.src.ipv6.toNat * 2 ^ 62 + s.lastSeen % 2 ^ 62)

/-- An operation of `RECIP_CMD` by master m on recipient r (R320, R322): it completes in the happening that starts it
(notes/assumptions/23.md). -/
def recipOp (s : State) (m r op port : Nat) : State :=
  let x := s.dev.recip r
  if !recipGranted s.dev m r x.stream (op != 1 && op != 2) then
    s.onDev fun d => cmdResult (deny d m 2 (320 + r / 64) 3 r (some x.stream)) r 3
  else
    s.onDev fun d =>
      if op = 1 then cmdResult (setWindow d (entryWord x)) r 0
      else if op = 0 ∨ 6 < op then cmdResult d r 2
      else if !x.valid then cmdResult d r 1
      else if op = 2 then cmdResult (setWindow d (learnedWord (slots4 (learnedOf x port)))) r 0
      else if op = 3 then
        let ws := fun w => reg d (rRecipData w)
        let k := fld (ws 0) 31 16
        if k < 20480 ∧ !keyGranted d m k true then cmdResult (deny d m 2 (576 + k / 64) 3 r (some x.stream)) r 3
        else if modifyBad d r ws then cmdResult d r 2
        else cmdResult (modify d r ws) r 0
      else if op = 4 then cmdResult (clearEntry d r (reg d (rRecipData 0))) r 0
      else if op = 5 then cmdResult (flushPort d r port) r 0
      else cmdResult (clearHwm (setWindow d (entryWord x)) r) r 0


/-- A write of `RECIP_CMD` (R321): discarded while BUSY is 1. The operation that an accepted write starts sets BUSY and clears it in one
happening, with its result (notes/assumptions/23.md). -/
def recipCmd (s : State) (m r op port : Nat) : State :=
  if regBit s.dev rRecipStatus 63 then s.onDev fun d => setRegFld d rRecipStatus 62 62 1 else recipOp s m r op port

/-- A write of `RECIP_CMD` over BAR0. -/
def recipCmdWrite (s : State) (m : Nat) (v : Word) : State := recipCmd s m (fld v 13 0) (fld v 63 60) (fld v 56 56)

/-! ### QUEUE commands (R298, R303, R312, R313) -/

/-- UDP ports that a `MOUTH_STREAM_CFG` value takes. -/
def srcPorts (c : Word) : List Nat :=
  if fld c 31 16 = 0 then [] else if bit c 62 then [fld c 31 16] else [fld c 31 16, fld c 31 16 + 1]

/-- UDP ports that stream n holds, in force or captured. -/
def streamPorts (d : Dev) (n : Nat) : List Nat :=
  srcPorts (reg d (rMs n oMsCfg)) ++ (d.captured.filter fun c => c.addr == rMs n oMsCfg).flatMap fun c => srcPorts c.value

/-- A UDP port is the DST_UDP of a binding. -/
def bindingPort (d : Dev) (u : Nat) : Bool := d.ctxs.any fun e => match e.2.binding with | some b => b.dstUdp == u | none => false

/-- The binding that QUEUE.BIND spells. -/
def bindingOf (p : Pkt) : Binding :=
  { e1 := p.b 1 63, e0 := p.b 1 62, ipv6 := p.b 1 61, anySsrc := p.b 1 60, pt := p.f 1 54 48, dstUdp := p.f 1 47 32
    ssrc := p.f 1 31 0, reorderPkts := if p.f 2 63 56 = 0 then 32 else p.f 2 63 56
    reorderUs := if p.f 2 31 0 = 0 then 20000 else p.f 2 31 0, keySlot := p.f 3 15 0 }

def bindBad (d : Dev) (p : Pkt) : Bool :=
  let b := bindingOf p
  !within (p.w 1) (ones 63 60 ||| ones 54 0) || !within (p.w 2) (ones 63 56 ||| ones 31 0) || !within (p.w 3) (ones 15 0)
    || !(b.e0 || b.e1) || !inRange b.reorderUs 100 100000 || !(d.ctx p.target).network || decide (20480 ≤ b.keySlot)
    || bindingPort d b.dstUdp || ((List.range 192).any fun n => (streamPorts d n).contains b.dstUdp)

def opQueueBind (s : State) (p : Pkt) : State × Answer :=
  simply s p (ctxRefusals s.dev p 3 ++ [(bindBad s.dev p, stBadParam)]) fun s =>
    (s.onDev fun d => d.onCtx p.target fun x => { x with binding := some (bindingOf p) }, [])

def opQueueUnbind (s : State) (p : Pkt) : State × Answer :=
  simply s p (ctxRefusals s.dev p 0) fun s => (s.onDev fun d => d.onCtx p.target fun x => { x with binding := none }, [])

/-- The mirror that QUEUE.MIRROR names. -/
def mirrorOf (p : Pkt) : Mirror := { stream := p.target, recip := if p.b 1 62 then some (p.f 1 45 32) else none }

def sameMirror (a b : Mirror) : Bool := a.stream == b.stream && a.recip == b.recip

/-- Turns a mirror on or off. The first number of its own context is a free value (R298, notes/assumptions/12.md). -/
def setMirror (d : Dev) (m : Mirror) (en : Bool) : Dev :=
  let l := d.mouth.mirrors.filter fun x => !sameMirror m x
  if !en then d.onMouth fun mo => { mo with mirrors := l }
  else if d.mouth.mirrors.any (sameMirror m) then d
  else
    let r := draw d
    r.2.onMouth fun mo => { mo with mirrors := l ++ [{ m with next := r.1.toNat % 65536 }] }

def opQueueMirror (s : State) (p : Pkt) : State × Answer :=
  let m := mirrorOf p
  let known := s.dev.mouth.mirrors.any (sameMirror m)
  simply s p
    [ (hdrBad p 1 192, stBadParam), (p.fn != 0, stDenied), (streamOff s.dev p, stBadState)
    , (!within (p.w 1) (ones 63 62 ||| ones 45 32) || (p.b 1 62 && detached s.dev p), stBadParam)
    , (p.b 1 63 && !known && decide (16 ≤ s.dev.mouth.mirrors.length), stNoCapacity) ]
    fun s => (s.onDev fun d => setMirror d m (p.b 1 63), [])

/-- QUEUE.STREAM is refused for its words. -/
def queueStreamBad (d : Dev) (p : Pkt) : Bool :=
  !within (p.w 1) (ones 63 45 ||| ones 31 16) || !shadowOk (rMs p.target oMsCfg) (p.w 1)
    || (srcPorts (p.w 1)).any fun u => bindingPort d u ||
      ((List.range 192).any fun n => n != p.target && (streamPorts d n).contains u)

def opQueueStream (s : State) (p : Pkt) : State × Answer :=
  match firstRefusal (streamRefusals s.dev p 2 ++ [(queueStreamBad s.dev p, stBadParam)]) with
  | some c => refuse s p c
  | none =>
    let r := guideCommit s [(rMs p.target oMsCfg, p.w 1), (rMs p.target oMsRtp, p.w 2)]
    if r.2 then
      accept (r.1.onDev fun d => d.onStream p.target fun x => { x with srcUdpSet := x.srcUdpSet || fld (p.w 1) 31 16 != 0 }) p
    else refuse r.1 p stBadParam

/-! ### Commands -/

/-- RECIP_ADD (R324). -/
def execRecipAdd (fn : Master) (hdr : Word) (ps : List Word) (s : State) : Host.Outcome State Fault Refusal :=
  ok (submit opRecipAdd (mkPkt 0x0601 fn hdr ps) s)

/-- RECIP_REMOVE (R326). -/
def execRecipRemove (fn : Master) (hdr : Word) (ps : List Word) (s : State) : Host.Outcome State Fault Refusal :=
  ok (submit opRecipRemove (mkPkt 0x0602 fn hdr ps) s)

/-- RECIP_MODIFY (R322). -/
def execRecipModify (fn : Master) (hdr : Word) (ps : List Word) (s : State) : Host.Outcome State Fault Refusal :=
  ok (submit opRecipModify (mkPkt 0x0603 fn hdr ps) s)

/-- RECIP_QUERY (R324). -/
def execRecipQuery (fn : Master) (hdr : Word) (ps : List Word) (s : State) : Host.Outcome State Fault Refusal :=
  ok (submit opRecipQuery (mkPkt 0x0604 fn hdr ps) s)

/-- RECIP_CLEAR (R320). -/
def execRecipClear (fn : Master) (hdr : Word) (ps : List Word) (s : State) : Host.Outcome State Fault Refusal :=
  ok (submit opRecipClear (mkPkt 0x0605 fn hdr ps) s)

/-- RECIP_FLUSH (R332). -/
def execRecipFlush (fn : Master) (hdr : Word) (ps : List Word) (s : State) : Host.Outcome State Fault Refusal :=
  ok (submit opRecipFlush (mkPkt 0x0606 fn hdr ps) s)

/-- QUEUE_BIND (R303, R312). -/
def execQueueBind (fn : Master) (hdr : Word) (ps : List Word) (s : State) : Host.Outcome State Fault Refusal :=
  ok (submit opQueueBind (mkPkt 0x0620 fn hdr ps) s)

/-- QUEUE_UNBIND (R312). -/
def execQueueUnbind (fn : Master) (hdr : Word) (ps : List Word) (s : State) : Host.Outcome State Fault Refusal :=
  ok (submit opQueueUnbind (mkPkt 0x0621 fn hdr ps) s)

/-- QUEUE_MIRROR (R298). -/
def execQueueMirror (fn : Master) (hdr : Word) (ps : List Word) (s : State) : Host.Outcome State Fault Refusal :=
  ok (submit opQueueMirror (mkPkt 0x0622 fn hdr ps) s)

/-- QUEUE_STREAM (R313). -/
def execQueueStream (fn : Master) (hdr : Word) (ps : List Word) (s : State) : Host.Outcome State Fault Refusal :=
  ok (submit opQueueStream (mkPkt 0x0623 fn hdr ps) s)

/-- READ of `RECIP_CMD` (R320). -/
def execRead (m : Master) (r : Fin 16384) (s : State) : Host.Outcome State Fault Refusal :=
  ok (barGate s m rRecipCmd true fun s => recipCmd s m r 1 0)

/-- READ_LEARNED (R320). -/
def execReadLearned (m : Master) (r : Fin 16384) (p : Fin 2) (s : State) : Host.Outcome State Fault Refusal :=
  ok (barGate s m rRecipCmd true fun s => recipCmd s m r 2 p)

/-- MODIFY (R322). -/
def execModify (m : Master) (r : Fin 16384) (s : State) : Host.Outcome State Fault Refusal :=
  ok (barGate s m rRecipCmd true fun s => recipCmd s m r 3 0)

/-- CLEAR (R320). -/
def execClear (m : Master) (r : Fin 16384) (s : State) : Host.Outcome State Fault Refusal :=
  ok (barGate s m rRecipCmd true fun s => recipCmd s m r 4 0)

/-- FLUSH_LEARNED (R332). -/
def execFlushLearned (m : Master) (r : Fin 16384) (p : Fin 2) (s : State) : Host.Outcome State Fault Refusal :=
  ok (barGate s m rRecipCmd true fun s => recipCmd s m r 5 p)

/-- READ_HWM (R342). -/
def execReadHwm (m : Master) (r : Fin 16384) (s : State) : Host.Outcome State Fault Refusal :=
  ok (barGate s m rRecipCmd true fun s => recipCmd s m r 6 0)

end Sys2Proof.Machine
end

