-- ==== Sys2Proof/Machine/Keys.lean ====
section
/-! DEFINITION. KEY and VEIN commands (R344 to R348, R359 to R366, R372, R576). -/

namespace Sys2Proof.Machine

/-! ### KEY -/

/-- The KEK that the words of KEY.KEK wrap: the wrapping key follows from the ECDH secret, which stands beside the packet (R361). -/
def kekUnwrapped (p : Pkt) : Option Nat :=
  p.kek.bind fun secret => unwrapPlain (kekWrapping secret (p.f 1 2 0)) ((List.range 5).map fun i => p.w (14 + i))

/-- KEY.KEK: a failed integrity check is refused and leaves the KEK slot unchanged (R361). -/
def opKeyKek (s : State) (p : Pkt) : State × Answer :=
  simply s p
    [ (hdrBad p 18 1, stBadParam), (p.fn != 0, stDenied)
    , (!within (p.w 1) (ones 2 0) || (kekUnwrapped p).isNone, stBadParam) ]
    fun s => (s.onDev fun d => { d with keks := d.keks.set none (p.f 1 2 0) (kekUnwrapped p) }, [])

/-- The policy admits a kind and a KEK for slot k. -/
def policyAdmits (d : Dev) (k kind kek : Nat) : Bool :=
  match policyOf d k with
  | some w => fld w 62 60 == kind && bit (word (fld w 59 52)) kek
  | none => false

/-- The key material in words 4 to 10, unwrapped under the named KEK: 32 bytes of key and 12 of salt (R362). -/
def unwrapped (d : Dev) (p : Pkt) : Option Nat :=
  match d.keks.get none (p.f 1 59 57) with
  | none => none
  | some kek => unwrapPad kek ((List.range 7).map fun i => p.w (4 + i)) 44

/-- The words that KEY.LOAD and KEY.ROLL share meet their limits, the unwrap among them. -/
def keyWordsOk (d : Dev) (p : Pkt) : Bool :=
  let kind := p.f 1 63 60
  within (p.w 1) (ones 63 57) && inRange kind 1 3 && p.w 2 != 0 && (kind == 1 || p.w 3 == 0)
    && (match unwrapped d p with
      | none => false
      | some m => kind != 3 || m % 2 ^ 96 == 0)

/-- The refusals with DENIED that KEY commands share: the slot's access table, then its policy. -/
def keyDenied (s : State) (p : Pkt) (count : Nat) (policy : Bool) (rest : State × Answer) : State × Answer :=
  if hdrBad p count 20480 then refuse s p stBadParam
  else if !keyGranted s.dev p.fn p.target true then denyCommand s p (576 + p.target / 64)
  else if policy && !policyAdmits s.dev p.target (p.f 1 63 60) (p.f 1 59 57) then refuse s p stDenied
  else rest

/-- The first SEQ that no band dispatched so far has reached: a band that waits to be coded again has been dispatched before. -/
def nextFresh (s : Stream) : Nat :=
  match (s.bands.filter fun b => b.stage != .waiting || b.resend).getLast? with
  | some b => seqAdd b.seq 1
  | none => ((s.bands.head?).map fun b => b.seq).getD s.nextSeq

/-- The first SEQ of the next Vein period of a stream that none of its dispatched bands lies in (R364). -/
def nextPeriod (s : Stream) : Nat :=
  let seq := nextFresh s
  let p := 2 ^ s.vein.f
  ceilDiv seq p * p % two32

/-- Streams whose Vein slot is k. -/
def veinUsers (d : Dev) (k : Nat) : List Nat := (d.streams.filter fun e => e.2.vein.en && e.2.vein.slot == k).map fun e => e.1

/-- A Vein slot of the fleet profile changes (R519, R523). -/
def keyDrift (d : Dev) (k : Nat) : Dev := if inRange k 20448 20479 then drift d else d

/-- Slot k is loaded. The first packet number of a transmit context is a free value: the spec gives none (R267,
notes/assumptions/12.md). -/
def loadKey (d : Dev) (p : Pkt) (m : Nat) : Dev :=
  let k := p.target
  let tx := decide (p.f 1 63 60 = 1)
  let r := if tx then draw d else (0, d)
  let first := r.1.toNat % 65536
  let d := r.2.setKey k
    { kind := p.f 1 63 60, material := m, w := p.w 3, keyId := p.w 2, loader := p.fn, srAt := d.now, index := first, firstIndex := first }
  let d := each (veinUsers d k) d fun d n => d.onStream n fun s =>
    if s.veinNoKey then { s with veinResume := some (nextPeriod s) } else s
  keyDrift d k

def opKeyLoad (s : State) (p : Pkt) : State × Answer :=
  keyDenied s p 10 true <|
    if (s.dev.key p.target).kind ≠ 0 then refuse s p stBusy
    else if !keyWordsOk s.dev p then refuse s p stBadParam
    else accept (s.onDev fun d => loadKey d p ((unwrapped d p).getD 0)) p

/-- GRACE_MS of KEY.ROLL: word 11, or 2,000 where the packet ends at word 10 (R363; DESIGN CHOICE, notes/assumptions/111.md: the spec
gives a default and, 0 being a value, no other packet that leaves the field out). -/
def graceOf (p : Pkt) : Nat := if p.count = 10 then 2000 else p.f 11 31 0

/-- The pending key of KEY.ROLL: a TX slot switches at its next release, an RX slot at once (R363). -/
def rollKey (d : Dev) (p : Pkt) (m : Nat) : Dev :=
  let x := d.key p.target
  let grace := graceOf p
  if x.kind = 1 then d.setKey p.target { x with pending := some (m, p.w 2), pendingGraceMs := grace }
  else
    let d := d.setKey p.target (switchKey d x m (p.w 2) grace)
    raise d 1265 2 p.target

def opKeyRoll (s : State) (p : Pkt) : State × Answer :=
  let x := s.dev.key p.target
  let okay := keyWordsOk s.dev p && (p.count == 10 || within (p.w 11) (ones 31 0)) && decide (graceOf p ≤ 10000)
    && (x.kind == 1 || x.kind == 2) && x.kind == p.f 1 63 60
  keyDenied s p (if p.count = 10 then 10 else 11) true <|
    if !okay then refuse s p stBadParam else accept (s.onDev fun d => rollKey d p ((unwrapped d p).getD 0)) p

/-- Slot k is emptied, its pending key with it; streams that it served lose their Vein key (R364). -/
def eraseKey (d : Dev) (k : Nat) : Dev :=
  if (d.key k).kind = 0 then d
  else
    let d := d.setKey k ({} : Key)
    let d := each (veinUsers d k) d fun d n =>
      let d := if (d.stream n).veinNoKey && (d.stream n).veinResume.isNone then d else raise d 1266 1 n
      d.onStream n fun s => { s with veinNoKey := true, veinResume := none }
    keyDrift d k

def opKeyErase (s : State) (p : Pkt) : State × Answer :=
  keyDenied s p 0 false <| accept (s.onDev fun d => eraseKey d p.target) p

/-- The result words of KEY.QUERY (R576). -/
def keyResults (d : Dev) (fn k : Nat) : List Word :=
  let x := d.key k
  if x.kind = 0 then [0, 0, 0, 0, 0]
  else
    [ word (x.kind * 2 ^ 60 + x.pending.isSome.toNat * 2 ^ 59 + x.graceUntil.isSome.toNat * 2 ^ 58 + x.loader % 256 * 2 ^ 48
        + (naming d k).length % 8192)
    , x.keyId, (x.pending.map fun q => q.2).getD 0, word (if x.kind = 3 then 0 else min x.index (2 ^ 48 - 1)), if fn = 0 then x.w else 0 ]

def opKeyQuery (s : State) (p : Pkt) : State × Answer :=
  if hdrBad p 0 20480 then refuse s p stBadParam
  else if !keyGranted s.dev p.fn p.target false then denyCommand s p (576 + p.target / 64)
  else accept s p (keyResults s.dev p.fn p.target)

/-! ### VEIN -/

/-- The parameters that VEIN.CONFIG sets; EN 0 keeps every other field. -/
def veinOf (st : Stream) (p : Pkt) : VeinCfg :=
  if p.b 1 63 then
    { en := true, f := p.f 1 59 56, sb := p.f 1 55 52, delta := p.f 1 51 48, slot := p.f 1 47 32, salt := p.f 1 31 0 }
  else { st.vein with en := false }

def veinOk (d : Dev) (p : Pkt) : Bool :=
  within (p.w 1) (ones 63 63 ||| ones 59 0) && (!p.b 1 63 ||
    (inRange (p.f 1 59 56) 2 6 && inRange (p.f 1 55 52) 1 8 && inRange (p.f 1 51 48) 1 8 && decide (p.f 1 47 32 < 20480)
      && (d.key (p.f 1 47 32)).kind == 3))

/-- The load of a stream under Vein parameters. -/
def veinLoad (st : Stream) (v : VeinCfg) : Nat := if v.en then st.cfg.loadOf 1 (2 ^ v.f) else st.cfg.loadOf 0 1

/-- A raised load fits: it needs no more parts than the stream has, and each part fits on its Gallery (R348). -/
def veinFits (d : Dev) (n load : Nat) : Bool :=
  let st := d.stream n
  let k := st.parts.length
  (match splitOf load st.cfg.bands with | some j => decide (j ≤ k) | none => false) &&
    (st.parts.zip (partLoads load st.cfg.bands k)).all fun x =>
      decide (x.2 + total (placedOn d x.1.gal) ≤ Config.galleryCapacity + x.1.load)

def opVeinConfig (s : State) (p : Pkt) : State × Answer :=
  let st := s.dev.stream p.target
  let v := veinOf st p
  let load := veinLoad st v
  let raised := decide (st.load < load)
  simply s p (streamRefusals s.dev p 1 ++ [(!veinOk s.dev p, stBadParam), (raised && !veinFits s.dev p.target load, stNoCapacity)])
    fun s => (s.onDev fun d =>
      (if raised then setLoads d p.target load else d).onStream p.target fun x => { x with veinNext := some (v, load), veinWord := p.w 1 }, [])

def opVeinRecord (s : State) (p : Pkt) : State × Answer :=
  simply s p (streamRefusals s.dev p 2 ++ [(!ringWordsOk (p.w 1) (p.w 2) 16 65536, stBadParam)]) fun s =>
    (s.onDev fun d => d.onStream p.target fun x => { x with veinRing := ringOf (p.w 1) (p.w 2) }, [])

/-- The parameters in force, laid out as word 1 of VEIN.CONFIG. -/
def veinCfgWord (v : VeinCfg) : Word :=
  word (v.en.toNat * 2 ^ 63 + v.f % 16 * 2 ^ 56 + v.sb % 16 * 2 ^ 52 + v.delta % 16 * 2 ^ 48 + v.slot % 65536 * 2 ^ 32 + v.salt % two32)

def opVeinQuery (s : State) (p : Pkt) : State × Answer :=
  let st := s.dev.stream p.target
  simply s p [(hdrBad p 0 192, stBadParam), (notOwner p (s.dev.streamOwner p.target), stDenied)] fun s => (s,
    [ st.veinCnt.get 0 0, st.veinCnt.get 0 1, veinPos s.dev st ((st.nextSeq + two32 - 1) % two32), veinCfgWord st.vein
    , st.veinWord, word st.veinNext.isSome.toNat ])

/-! ### Commands -/

/-- KEY_KEK (R361). -/
def execKeyKek (fn : Master) (hdr : Word) (ps : List Word) (kek : Option Nat) (s : State) : Host.Outcome State Fault Refusal :=
  ok (submit opKeyKek (mkPkt 0x0701 fn hdr ps none kek) s)

/-- KEY_LOAD (R362). -/
def execKeyLoad (fn : Master) (hdr : Word) (ps : List Word) (s : State) : Host.Outcome State Fault Refusal :=
  ok (submit opKeyLoad (mkPkt 0x0702 fn hdr ps) s)

/-- KEY_ROLL (R363). -/
def execKeyRoll (fn : Master) (hdr : Word) (ps : List Word) (s : State) : Host.Outcome State Fault Refusal :=
  ok (submit opKeyRoll (mkPkt 0x0703 fn hdr ps) s)

/-- KEY_ERASE (R364). -/
def execKeyErase (fn : Master) (hdr : Word) (ps : List Word) (s : State) : Host.Outcome State Fault Refusal :=
  ok (submit opKeyErase (mkPkt 0x0704 fn hdr ps) s)

/-- KEY_QUERY (R576). -/
def execKeyQuery (fn : Master) (hdr : Word) (ps : List Word) (s : State) : Host.Outcome State Fault Refusal :=
  ok (submit opKeyQuery (mkPkt 0x0705 fn hdr ps) s)

/-- VEIN_CONFIG (R344, R348). -/
def execVeinConfig (fn : Master) (hdr : Word) (ps : List Word) (s : State) : Host.Outcome State Fault Refusal :=
  ok (submit opVeinConfig (mkPkt 0x0710 fn hdr ps) s)

/-- VEIN_RECORD (R358). -/
def execVeinRecord (fn : Master) (hdr : Word) (ps : List Word) (s : State) : Host.Outcome State Fault Refusal :=
  ok (submit opVeinRecord (mkPkt 0x0711 fn hdr ps) s)

/-- VEIN_QUERY (R576). -/
def execVeinQuery (fn : Master) (hdr : Word) (ps : List Word) (s : State) : Host.Outcome State Fault Refusal :=
  ok (submit opVeinQuery (mkPkt 0x0712 fn hdr ps) s)

end Sys2Proof.Machine
end

