-- ==== Sys2Proof/Machine/Control.lean ====
section
/-! DEFINITION. The fleet profile and its activation (R519 to R532, R537), the persistent record (R489, R490, R492) and the
DIAG commands (R237, R493). -/

namespace Sys2Proof.Machine

/-! ### Staged profiles (R519 to R524) -/

/-- The pacing words a staged profile would have. -/
def stagedPacing (d : Dev) (p : Profile) : List Word := if p.pacingEn then p.pacing else pacingNow d

/-- The digest that a staged profile would have now (R524, R529). -/
def stagedDigest (d : Dev) (p : Profile) : List Word :=
  digestWords (sha256 (profile d p.epoch p.tableSet (stagedPacing d p)))

/-- Epoch a is newer than epoch b (R521). -/
def newer (a b : Nat) : Bool := if b = 0 then a != 0 else a != 0 && inRange ((a + 65536 - b) % 65536) 1 32767

/-! ### FLEET.STAGE, FLEET.CANCEL, FLEET.QUERY -/

/-- The staged profile and its activation are discarded. -/
def discardStaged (d : Dev) : Dev :=
  let d := { d with fleet := { d.fleet with staged := none, armed := none, waiting := false } }
  setRegBit (setRegBit (setRegFld d rFleetStatus 47 32 0) rFleetStatus 15 false) rFleetStatus 13 false

/-- The profile that FLEET.STAGE carries. -/
def profileOf (p : Pkt) : Profile :=
  { epoch := p.f 1 63 48, pacingEn := p.b 1 47, tableSet := p.f 1 42 40,
    expect := (List.range 4).map fun k => p.w (2 + k), pacing := (List.range 16).map fun k => p.w (6 + k) }

/-- Pacing words meet the limits of their registers (R293). -/
def pacingOk (ws : List Word) : Bool :=
  (pacingAddrs.zip ws).all fun x => shadowOk x.1 x.2 && within x.2 (((regAt x.1).2.map fun i => i.rw).getD 0)

/-- FLEET.STAGE carries values out of limits (R524). -/
def stageBad (d : Dev) (p : Pkt) : Bool :=
  let q := profileOf p
  q.epoch == 0 || !within (p.w 1) (ones 63 46 ||| ones 42 40 ||| ones 17 0)
    || decide (((d.boot.img.map fun i => i.tableIds.length).getD 0) ≤ q.tableSet)
    || (if q.pacingEn then !pacingOk q.pacing else q.pacing.any fun w => w != 0)
    || stagedDigest d q != q.expect

/-- The issuer of a FLEET command or of DIAG.FAULTREC is neither the PF nor the SMBus endpoint (R388). -/
def notFleet (p : Pkt) : Bool := p.fn != 0 && p.fn != 0xFE

def opFleetStage (s : State) (p : Pkt) : State × Answer :=
  simply s p
    [ (hdrBad p 21 1, stBadParam), (notFleet p, stDenied), (stageBad s.dev p, stBadParam)
    , (!newer (p.f 1 63 48) (regFld s.dev rFleetStatus 63 48), stStaleEpoch) ]
    fun s =>
      let q := profileOf p
      let s := s.onDev fun d =>
        let d := discardStaged d
        setRegFld { d with fleet := { d.fleet with staged := some q } } rFleetStatus 47 32 q.epoch
      (if p.b 1 46 then { s with nv := { s.nv with ordinal := p.f 1 17 0, ordValid := true } } else s, [])

/-- The staged epoch is not this one. -/
def notStaged (d : Dev) (epoch : Nat) : Bool := !(d.fleet.staged.any fun q => q.epoch == epoch)

def opFleetCancel (s : State) (p : Pkt) : State × Answer :=
  simply s p
    [ (hdrBad p 1 1, stBadParam), (notFleet p, stDenied), (!within (p.w 1) (ones 63 48) || p.f 1 63 48 == 0, stBadParam)
    , (notStaged s.dev (p.f 1 63 48), stStaleEpoch) ]
    fun s => (s.onDev discardStaged, [])

/-- `FLEET_STATUS` as it reads: ORD_VALID lies in non-volatile storage (R532). -/
def fleetStatus (s : State) : Word := setBit (reg s.dev rFleetStatus) 12 s.nv.ordValid

/-- `FLEET_ACT_TIME` as it reads: T while armed, else the time of the last landing (R536). -/
def actTime (d : Dev) : Word :=
  match d.fleet.armed with
  | some t => setFld (reg d rFleetActTime) 62 0 t
  | none => reg d rFleetActTime

/-- The fleet ordinal as it reads: zero while its flag is 0 (R532). -/
def ordinalOf (s : State) : Nat := if s.nv.ordValid then s.nv.ordinal else 0

def opFleetQuery (s : State) (p : Pkt) : State × Answer :=
  simply s p [(hdrBad p 0 1, stBadParam), (notFleet p, stDenied)] fun s =>
    (s, [fleetStatus s] ++ (List.range 4).map (fun k => reg s.dev (rFleetDigest k))
      ++ [actTime s.dev, word (s.nv.ordValid.toNat * 2 ^ 63 + ordinalOf s)])

/-! ### Activation (R525 to R530) -/

/-- 30 days in ns. -/
def thirtyDays : Nat := 30 * 86400 * 1000000000

def opFleetActivate (s : State) (p : Pkt) : State × Answer :=
  let e := p.f 1 63 48
  match firstRefusal
    [ (hdrBad p 2 1, stBadParam), (notFleet p, stDenied)
    , (!within (p.w 1) (ones 63 48) || e == 0 || decide (fleetTime s.dev + thirtyDays < (p.w 2).toNat), stBadParam) ] with
  | some st => refuse s p st
  | none =>
    -- the device missed FLEET.STAGE: it says so although the command is refused (R530)
    if notStaged s.dev e then
      refuse (s.onDev fun d => raise (setRegFld d rFleetStatus 31 16 e) 1238 2 0 e) p stStaleEpoch
    else
      accept (s.onDev fun d =>
        landIfDue (setRegBit { d with fleet := { d.fleet with armed := some (p.w 2).toNat } } rFleetStatus 15 true)) p

/-- ACTIVATION_LANDING (R526): PTP time reaches T, whether or not a Guide pair runs (R528). -/
def activationLanding (d : Dev) : Dev :=
  match d.fleet.armed with
  | none => d
  | some t => landIfDue (advance d ((t : Int) - d.ptp.offset).toNat)

/-- DIGEST_RECOMPUTE (R522, R529): the new digest is published, and an armed activation whose EXPECT no longer holds is
discarded. -/
def recompute (d : Dev) : Dev :=
  if !d.fleet.digestDue then d
  else
    let d := publish d
    match d.fleet.armed, d.fleet.staged with
    | some _, some q => if stagedDigest d q = q.expect then d else raise (discardStaged d) 1238 3 0 q.epoch
    | _, _ => d

/-! ### The persistent record (R489, R490) -/

/-- The words of an entry, its CRC the last. -/
def entryWords (e : RecEntry) : List Word :=
  let ws := [word (e.seq % two32 * 2 ^ 32 + e.kind % 256 * 2 ^ 24 + e.cls % 4 * 2 ^ 22 + e.injected.toNat * 2 ^ 21
      + e.repeats % 32 * 2 ^ 16 + e.boot % 65536), e.hdr, e.addr, e.time, e.raster]
  ws ++ [word (crc32c (ws.flatMap bytesLE))]

/-- Newest and oldest SEQ held: `FLT_REC_STATUS`. -/
def recRange (n : NonVol) : Word :=
  word (((n.record.getLast?.map fun e => e.seq).getD 0) % two32 * 2 ^ 32 + (n.record.head?.map fun e => e.seq).getD 0 % two32)

/-- SOURCE and CAUSE in the header word of an entry, by its kind. -/
def entrySource (e : RecEntry) : Nat := if e.kind = 1 then fld e.hdr 60 42 else fld e.hdr 63 45

/-- An earlier entry that a new one repeats (R489). -/
def repeatsOf (e x : RecEntry) : Bool :=
  (e.kind == 1 || e.kind == 4) && x.kind == e.kind && x.cls == e.cls && entrySource x == entrySource e
    && inRange e.at_ x.at_ (x.at_ + 10000000)

/-- Raises REPEATS of the latest entry that a test picks. -/
def bumpLast (l : List RecEntry) (pick : RecEntry → Bool) : List RecEntry :=
  match l with
  | [] => []
  | x :: r => if pick x && !r.any pick then { x with repeats := min 31 (x.repeats + 1) } :: r else x :: bumpLast r pick

/-- Roost writes an entry: it may repeat an earlier one; at most 100 are written in any one second. -/
def writeEntry (s : State) (e : RecEntry) : State :=
  if s.nv.record.any (repeatsOf e) then { s with nv := { s.nv with record := bumpLast s.nv.record (repeatsOf e) } }
  else
    let recent := s.dev.roost.written.filter fun t => decide (s.dev.upTime < t + 1000000000)
    if 100 ≤ recent.length then
      s.onDev fun d =>
        raiseLim (incErr { d with roost := { d.roost with written := recent } } rRecDropped) 1000000000 1237 3
    else
      let l := s.nv.record ++ [{ e with seq := s.nv.nextSeq }]
      let s := { s with nv := { s.nv with record := if 1024 < l.length then l.drop 1 else l, nextSeq := (s.nv.nextSeq + 1) % two32 } }
      s.onDev fun d =>
        let d := { d with roost := { d.roost with written := recent ++ [d.upTime] } }
        if regBit d rFltAlert 62 then setPend d else d

/-- Roost writes every entry that waits, in the order of their happenings. -/
def writeWaiting (s : State) : State :=
  let l := s.dev.roost.entries
  each l (s.onDev fun d => { d with roost := { d.roost with entries := [] } }) writeEntry

/-- An entry of a kind that carries no more than its time. -/
def plainEntry (d : Dev) (kind : Nat) : RecEntry :=
  { kind := kind, boot := d.roost.bootCount % 65536, hdr := 0, addr := 0, time := timeWord d, at_ := d.upTime }

/-! ### DIAG -/

def opDiagRetire (s : State) (p : Pkt) : State × Answer :=
  let g := p.f 1 63 0
  simply s p
    [ (hdrBad p 1 1, stBadParam), (p.fn != 0, stDenied), (decide (26 ≤ g) || retired s.dev g, stBadParam)
    , (!canRetire s.dev g, stNoCapacity) ]
    fun s => (keepRecords (·.onDev fun d => retire d g 5) s, [])

/-- The class of the row that DIAG.INJECT names, if there is one that it may inject (R493). -/
def injectClass (p : Pkt) : Option Nat :=
  let rows := faultRows (p.f 1 63 53) (p.f 1 52 45)
  match rows[(p.b 1 43).toNat]? with
  | some 3 => if p.b 1 44 then none else some 3
  | r => r

/-- An injected fault: its event, the collector, INJECTED; MODE 1 adds the device stop of class F. -/
def inject (d : Dev) (p : Pkt) (k : Nat) : Dev :=
  let src := p.f 1 63 53
  let cause := p.f 1 52 45
  let subj := p.f 1 31 16
  let d := collect (raise d src cause subj) k src cause subj 0 { blockOrigin d src cause with injected := true }
  let d := raise d 1237 2 0 src
  if p.b 1 44 ∧ k = 2 then deviceStop d else d

def opDiagInject (s : State) (p : Pkt) : State × Answer :=
  simply s p
    [ (hdrBad p 1 1, stBadParam), (p.fn != 0, stDenied)
    , (!within (p.w 1) (ones 63 43 ||| ones 31 16) || (injectClass p).isNone, stBadParam) ]
    fun s => (restartMet (s.onDev fun d => inject d p ((injectClass p).getD 0)), [])

/-- ERASE: what waits is written first, every entry goes, and one KIND 0x03 entry is written. -/
def eraseRecord (s : State) : State :=
  let s := writeWaiting s
  writeEntry { s with nv := { s.nv with record := [] } } (plainEntry s.dev 3)

def opDiagFaultrec (s : State) (p : Pkt) : State × Answer :=
  let erase := p.b 1 63
  simply s p
    [ (hdrBad p 1 1, stBadParam), (notFleet p, stDenied), (erase && regBit s.dev rFltStatus 63, stBusy)
    , (!within (p.w 1) (ones 63 63 ||| ones 34 0) || (!erase && !inRange (p.f 1 34 32) 1 5), stBadParam) ]
    fun s =>
      if erase then (eraseRecord s, [recRange (eraseRecord s).nv])
      else
        let l := (s.nv.record.filter fun e => decide (p.f 1 31 0 ≤ e.seq)).take (p.f 1 34 32)
        (s, recRange s.nv :: l.flatMap entryWords)

/-! ### Commands -/

def execFleetStage (fn : Master) (hdr : Word) (ps : List Word) (s : State) : Host.Outcome State Fault Refusal :=
  ok (submit opFleetStage (mkPkt 0x0801 fn hdr ps) s)

def execFleetActivate (fn : Master) (hdr : Word) (ps : List Word) (s : State) : Host.Outcome State Fault Refusal :=
  ok (submit opFleetActivate (mkPkt 0x0802 fn hdr ps) s)

def execFleetQuery (fn : Master) (hdr : Word) (ps : List Word) (s : State) : Host.Outcome State Fault Refusal :=
  ok (submit opFleetQuery (mkPkt 0x0803 fn hdr ps) s)

def execFleetCancel (fn : Master) (hdr : Word) (ps : List Word) (s : State) : Host.Outcome State Fault Refusal :=
  ok (submit opFleetCancel (mkPkt 0x0804 fn hdr ps) s)

def execDiagRetire (fn : Master) (hdr : Word) (ps : List Word) (s : State) : Host.Outcome State Fault Refusal :=
  ok (submit opDiagRetire (mkPkt 0x0901 fn hdr ps) s)

def execDiagInject (fn : Master) (hdr : Word) (ps : List Word) (s : State) : Host.Outcome State Fault Refusal :=
  ok (submit opDiagInject (mkPkt 0x0902 fn hdr ps) s)

def execDiagFaultrec (fn : Master) (hdr : Word) (ps : List Word) (s : State) : Host.Outcome State Fault Refusal :=
  ok (submit opDiagFaultrec (mkPkt 0x0903 fn hdr ps) s)

/-- ACTIVATION_LANDING (R526). -/
def execActivationLanding (s : State) : Host.Outcome State Fault Refusal :=
  ok (if alive s.dev then s.onDev activationLanding else s)

/-- DIGEST_RECOMPUTE (R522). -/
def execDigestRecompute (s : State) : Host.Outcome State Fault Refusal :=
  ok (if alive s.dev then s.onDev recompute else s)

/-- PERSISTENT_ENTRY_WRITE (R489): Roost writes the first entry that waits. -/
def execPersistentEntryWrite (s : State) : Host.Outcome State Fault Refusal :=
  ok (match s.dev.roost.entries with
    | [] => s
    | e :: r => if !s.dev.roost.up then s else writeEntry (s.onDev fun d => { d with roost := { d.roost with entries := r } }) e)

end Sys2Proof.Machine
end

