-- ==== Sys2Proof/Machine/Power.lean ====
section
/-! DEFINITION. Supplies, reset, boot sequence up to the boot ROM, sleep and wake, thermal (R469, R478, R479, R495 to R503,
R505, R506, R508, R512). -/

namespace Sys2Proof.Machine

def Dev.onPwr (d : Dev) (f : Pwr → Pwr) : Dev := { d with pwr := f d.pwr }

/-- Roost's time is carried forward while the die is down. -/
def advanceUp (d : Dev) (t : Nat) : Dev := { d with upTime := max d.upTime t }

/-! ### Start of the die (R503, R512) -/

/-- The blocks whose boot pair runs before WAIT: the memory channels and the sensors. -/
def bootBlocks : List Nat := List.range 32 ++ [35]

/-- The die leaves reset: the boot ROM runs, and with it the boot pairs; a reserved boot mode halts it with a class F fault
(R367, R503, R512). -/
def startDie (s : State) : State :=
  s.onDev fun d =>
    let d := d.onPwr fun p => { p with die := .running }
    let d : Dev := { d with roost := { d.roost with sleepLow := false }, boot := { d.boot with pairs := bootBlocks } }
    let d := each bootBlocks d fun d b => d.setCal b { stage := 2 }
    if d.pwr.bootMode = 3 then blockFault d 2 1234 8 else d

/-- The power-up sequence resumes: the die runs once PERST_N is high. -/
def resumeUp (s : State) : State :=
  if s.dev.pwr.perst then s.onDev fun d => d.onPwr fun p => { p with die := .waiting } else startDie s

/-- The wake sequence (R508). -/
def wake (s : State) : State := resumeUp (s.onDev fun d => d.onPwr fun p => { p with resetKind := 7, wakeDue := none })

/-- Every needed supply is in range. -/
def railsOk (p : Pwr) : Bool := decide (2900 ≤ p.sb) && decide (10800 ≤ p.vin)

/-- SUPPLY_IN_RANGE (R495, R501, R503): V3P3_SB starts Roost, VIN12 the rest; after a brown-out VIN12 must stay. The grave
hold is not touched (R479), and the rise of V3P3_SB resets the TAP (R564). -/
def supplyInRange (s : State) (rail mv : Nat) : State :=
  let s := s.onDev fun d => d.onPwr fun p =>
    if rail = 0 then { p with vin := mv } else if rail = 1 then { p with core := mv } else { p with sb := mv }
  let s := if rail = 2 ∧ !s.dev.roost.up ∧ 2900 ≤ mv then s.onDev fun d => { d with roost := { d.roost with up := true }, tap := ({} : Tap) } else s
  let p := s.dev.pwr
  if s.dev.roost.grave then s
  else if p.die = .unpowered ∧ s.dev.roost.up ∧ railsOk p then resumeUp (s.onDev fun d => d.onPwr fun p => { p with resetKind := 0 })
  else if p.die = .reset ∧ (p.resetKind = 4 ∨ p.resetKind = 5) ∧ 10800 ≤ p.vin ∧ p.backAt.isNone then
    s.onDev fun d => d.onPwr fun p => { p with backAt := some d.upTime }
  else s

/-- RESET_EXIT (R501): the leave condition of the reset in force is met. Cause 6 asks for PERST_N asserted and released,
and for the sensors, whose readings this happening stands for. -/
def resetExit (s : State) : State :=
  let p := s.dev.pwr
  if p.die ≠ .reset then s
  else if p.resetKind = 2 ∨ p.resetKind = 3 then resumeUp (s.onDev fun d => advanceUp d (p.resetAt + 100000))
  else if p.resetKind = 4 ∨ p.resetKind = 5 then
    match p.backAt with
    | some t => resumeUp (s.onDev fun d => advanceUp d (t + 10000000))
    | none => s
  else if p.resetKind = 6 then (if p.rePerst && !p.perst then startDie s else s)
  else s

/-- PERST_N low for at least 1 µs resets the main die; the grave hold ignores it (R478, R501). -/
def perstAssert (s : State) (lowNs : Nat) : State :=
  if lowNs < 1000 ∨ s.dev.roost.grave then s
  else
    let s := if s.dev.pwr.die = .running then enterReset s 1 .reset else s
    s.onDev fun d => d.onPwr fun p => { p with perst := true, rePerst := true }

/-- Release of PERST_N (R501, R503, R508, R562). -/
def perstRelease (s : State) (mode : Nat) : State :=
  if s.dev.roost.grave then s
  else
    let p := s.dev.pwr
    let s := s.onDev fun d => d.onPwr fun p => { p with perst := false, bootMode := mode }
    if p.die = .waiting ∨ (p.die = .reset ∧ p.resetKind = 1) then startDie s
    else if p.die = .asleep ∧ p.perst then wake s
    else s

/-- PCIe hot reset or link disable (R501). -/
def hotReset (s : State) : State := if alive s.dev then enterReset s 3 .reset else s

/-- The delayed reset of DEVICE.RESET (R395, R501). -/
def resetFire (s : State) : State :=
  match s.dev.pwr.resetDue with
  | none => s
  | some t => if alive s.dev then enterReset (s.onDev fun d => advance d t) 2 .reset else s

/-- V3P3_SB below its reset level: Roost resets, the die is held; the WAKE set goes, the grave hold stays (R495, R501). -/
def standbyReset (s : State) : State :=
  let s := enterReset s 0 (if s.dev.roost.grave then .grave else .unpowered)
  s.onDev fun d =>
    { d with
      pwr := { d.pwr with sb := 0 }
      roost := { up := false, bootCount := d.roost.bootCount, grave := d.roost.grave, alert := d.roost.alert } }

/-- The grave hold ends; the next power-up runs the normal sequence (R479). -/
def graveEnd (s : State) : State :=
  if !s.dev.roost.grave then s
  else
    s.onDev fun d =>
      { d with pwr := { d.pwr with die := .unpowered, sb := 0 }, roost := { d.roost with grave := false, alert := false, up := false } }

/-! ### Supply warning (R496 to R500) -/

/-- The Galleries a supply warning holds: the four healthy ones with parts and the least placed load, ties to the higher
number (R497). -/
def heldSelection (d : Dev) : List Nat :=
  let l := (List.range 26).filter fun g => healthy d g && !(placedOn d g).isEmpty
  (sortBy (fun a b => decide (galLoad d a < galLoad d b) || (galLoad d a == galLoad d b && decide (b ≤ a))) l).take 4

def setHold (d : Dev) (g : Nat) (h : Bool) : Dev := setRegBit d (rGal g oGalStatus) 62 h

/-- Galleries with ADMIT_HOLD. -/
def heldGals (d : Dev) : List Nat := (List.range 26).filter fun g => admitHold d g

/-- The lowest VIN12 read is kept (R516). -/
def noteLow (d : Dev) (rail mv : Nat) : Dev :=
  let d := d.onPwr fun p =>
    if rail = 0 then { p with vin := mv, minVin := min p.minVin mv } else { p with core := mv, minCore := min p.minCore mv }
  if rail = 0 ∧ mv < regFld d rPwrStatus 47 32 then setRegFld d rPwrStatus 47 32 mv else d

/-- The level at which a rail enters warning (R495). -/
def warnLevel (rail : Nat) : Nat := if rail = 0 then 10200 else 705

/-- A rail enters warning; the first one begins a supply warning (R496, R497, R499, R500). -/
def warn (d : Dev) (rail mv : Nat) : Dev :=
  let inWarn := if rail = 0 then d.pwr.vinWarn else d.pwr.coreWarn
  if warnLevel rail ≤ mv then d
  else if inWarn then noteLow d rail mv
  else
    let first := !supplyWarning d
    let src := 1248 + rail
    let d := d.onPwr fun p => if rail = 0 then { p with vinWarn := true, minVin := mv } else { p with coreWarn := true, minCore := mv }
    let d := collect (edge (noteLow d rail mv) src false) 0 src 1 0 0 (blockOrigin d src 1)
    if !first then d
    else
      let d := incErr (d.onPwr fun p => { p with warnAt := some d.now, moved := false, stableAt := none }) rPwrWarns
      let sel := heldSelection d
      each (List.range 26) d fun d g => if admitHold d g = sel.contains g then d else setHold d g (sel.contains g)

/-- A calibration pair of block b may start now: no supply warning, at most 4 memory channels at once, and never a channel
with its partner (R510). -/
def calFree (d : Dev) (b : Nat) : Bool :=
  let busy := fun c => decide (2 ≤ (d.calBlk c).stage)
  !supplyWarning d && (decide (32 ≤ b) ||
    (decide (((List.range 32).filter busy).length < 4) && !busy (if b < 16 then b + 16 else b - 16)))

/-- A run of a memory channel pauses it: RETRAINED, with the pause of at most 1,800 ns in DATA; RETRAIN is 1 until the pause ends (R453,
R511, R518). -/
def retrained (d : Dev) (b : Nat) : Dev :=
  if b < 32 then
    let r := draw d
    let pause := r.1.toNat % 1801
    raise (r.2.setCal b { r.2.calBlk b with pausedUntil := r.2.now + pause }) (976 + 4 * b + 3) 1 0 pause
  else d

/-- Pairs that wait start as the limits allow, in ascending block order (R510). -/
def startCal (d : Dev) : Dev :=
  each (List.range 36) d fun d b =>
    if (d.calBlk b).stage = 1 ∧ calFree d b then retrained (d.setCal b { d.calBlk b with stage := 2 }) b else d

/-- A rail leaves warning; with the last one the supply warning ends, and an entry is written (R496, R499, R500). -/
def recovered (d : Dev) (rail mv : Nat) : Dev :=
  let inWarn := if rail = 0 then d.pwr.vinWarn else d.pwr.coreWarn
  if !inWarn ∨ mv ≤ (if rail = 0 then 10500 else 720) then d
  else
    let src := 1248 + rail
    let low := if rail = 0 then d.pwr.minVin else d.pwr.minCore
    let d := noteLow d rail mv
    let d := edge (d.onPwr fun p => if rail = 0 then { p with vinWarn := false } else { p with coreWarn := false }) src true 0 low
    if supplyWarning d then d
    else
      let dur := (d.now - d.pwr.warnAt.getD d.now) / 1000
      let d := addEntry d (powerEntry d (powerHdr src 2 low) (word dur))
      startCal (d.onPwr fun p => { p with warnAt := none, stableAt := some (d.now + 1000000) })

/-- The parts of a held Gallery move (R498). -/
def moveHeld (d : Dev) (g : Nat) : Dev :=
  let parts := partsOn d g
  let r : Dev × List (Nat × Nat × Nat) × List (Nat × Nat) :=
    match (List.range 26).find? fun t => isReserve d t && !admitHold d t with
    | some t => (each parts d fun d x => movePart d x.1 x.2.1 t, [], parts.map fun x => (x.1, t))
    | none => placeEach d (fun t => !admitHold d t) (byLoad parts)
  let d := each r.2.2 r.1 fun d x => d.onGal x.2 fun y => { y with busyUntil := max y.busyUntil d.now + 2000 }
  let d := if r.2.1.isEmpty then d else setHold d g false
  if r.2.2.isEmpty then d else raise (rephase d) 1250 1 g r.2.2.length

/-- The move that a supply warning of 500 µs makes; a takeover in progress defers it (R498). -/
def holdMove (d : Dev) : Dev :=
  match d.pwr.warnAt with
  | none => d
  | some t =>
    if d.pwr.moved then d
    else
      let d := advance d (t + 500000)
      if d.guide.takeoverAt.isSome then d
      else each (heldGals d) (d.onPwr fun p => { p with moved := true }) moveHeld

/-- ADMIT_HOLD clears 1 ms after the end of the warning (R499). -/
def admitHoldClear (d : Dev) : Dev :=
  match d.pwr.stableAt with
  | none => d
  | some t => each (heldGals d) ((advance d t).onPwr fun p => { p with stableAt := none }) fun d g => setHold d g false

/-- PEND, where ON_POWER enables the power causes (R488, R518). -/
def powerAlert (d : Dev) (on : Bool) : Dev := if on then setPend d else d

/-- A rail reaches its reset level (R495, R501, R502). -/
def brownout (s : State) (rail mv : Nat) : State :=
  if !alive s.dev ∨ (if rail = 0 then 9000 else 660) ≤ mv then s
  else
    let s := s.onDev fun d => noteLow d rail mv
    let on := regBit s.dev rFltAlert 59
    let e := powerEntry s.dev (powerHdr (1248 + rail) 3 0) 0
    (enterReset s (4 + rail) .reset).onDev fun d => powerAlert (addEntry d e) on

/-! ### Thermal (R505, R506) -/

/-- A sensor reaches TJ_WARN. -/
def tjWarn (d : Dev) (sensor degC : Nat) : Dev :=
  if regBit d rPwrStatus 61 || decide (degC < regFld d rPwrCtrl 63 56) then d
  else
    let d := edge (setRegBit d rPwrStatus 61 true) 1251 false sensor degC
    powerAlert d (regBit d rFltAlert 59)

/-- Every sensor is 3 °C below TJ_WARN again. -/
def tjOk (d : Dev) : Dev := if regBit d rPwrStatus 61 then edge (setRegBit d rPwrStatus 61 false) 1251 true else d

/-- A sensor above 105 °C: class F. -/
def thermalTrip (d : Dev) (degC : Nat) : Dev := if 105 < degC then blockFault d 2 1252 1 else d

/-- A sensor above 115 °C: Roost turns the regulators off. -/
def shutdown (s : State) (degC : Nat) : State :=
  if degC ≤ 115 then s else enterReset (s.onDev fun d => addEntry d (powerEntry d (powerHdr 1252 2 0) 0)) 6 .reset

/-! ### Sleep and wake (R469, R508) -/

/-- Sleep: only Roost stays powered. -/
def sleep (s : State) (wakeMs : Nat) : State :=
  let st := reg s.dev rFltStatus
  let low := (bit st 63 && regBit s.dev rFltCtrl 63) || bit st 62 || bit st 61
  (enterReset s 7 .asleep).onDev fun d =>
    { d.onPwr fun p => { p with wakeDue := if wakeMs = 0 then none else some (d.upTime + wakeMs * 1000000) } with
      roost := { d.roost with sleepLow := low } }

/-- The rails of the die are down, so that the wake watcher is in charge. -/
def railsDown (d : Dev) : Bool :=
  d.pwr.die == .asleep || d.pwr.die == .unpowered || (d.pwr.die == .reset && decide (4 ≤ d.pwr.resetKind))

/-- A source with SENSE n reports a cause: only a state source's edges are told apart (R463). -/
def senseTakes (s sense cause : Nat) : Bool :=
  if isStateSource s then (sense == 3 || (sense == 2 && cause == 2) || (sense ≤ 1 && cause == 1)) else true

/-- Roost latches at most one record of each WAKE source that it observes (R469, R518). -/
def latchWake (d : Dev) (s cause : Nat) : Dev :=
  if d.roost.up && [1248, 1249, 1251, 1255].contains s && !d.roost.wakeRecs.any (fun r => r.1 == s)
      && d.roost.wakeSet.any (fun w => w.1 == s && senseTakes s w.2 cause) then
    { d with roost := { d.roost with wakeRecs := d.roost.wakeRecs ++ [(s, cause, d.upTime)] } }
  else d

/-- WAKE_LATCH: a latched record starts the wake of a sleeping device. -/
def wakeLatch (s : State) (src cause : Nat) : State :=
  if !railsDown s.dev then s
  else
    let s' := s.onDev fun d => latchWake d src cause
    if s'.dev.roost.wakeRecs.length ≠ s.dev.roost.wakeRecs.length ∧ s.dev.pwr.die = .asleep then wake s' else s'

/-- WAKE_MS has elapsed (R508). -/
def timerWake (s : State) : State :=
  match s.dev.pwr.wakeDue with
  | none => s
  | some t => if s.dev.pwr.die = .asleep then wake (s.onDev fun d => latchWake (advanceUp d t) 1255 1) else s

/-- The latched records are written to the PF's queue, in latching order, with WOKE set (R469). -/
def deliverWake (d : Dev) : Dev :=
  if ready d && regBit d (rEq 0 oEqCtrl) 63 then
    each d.roost.wakeRecs { d with roost := { d.roost with wakeRecs := [] } } fun d r =>
      post d 0 r.1 r.2.1 0 0 (word (2 ^ 63 + r.2.2 % 2 ^ 63)) false true
  else d

/-! ### Commands -/

/-- DEVICE_RESET_FIRE (R395). -/
def execDeviceResetFire (s : State) : Host.Outcome State Fault Refusal := ok (resetFire s)

/-- HOT_RESET (R501). -/
def execHotReset (s : State) : Host.Outcome State Fault Refusal := ok (hotReset s)

/-- GRAVE_HOLD_END (R479). -/
def execGraveHoldEnd (s : State) : Host.Outcome State Fault Refusal := ok (graveEnd s)

/-- WARN (R497). -/
def execWarn (rail : Fin 2) (mv : Nat) (s : State) : Host.Outcome State Fault Refusal :=
  ok (if alive s.dev then s.onDev fun d => warn d rail.val mv else s)

/-- RECOVERED (R498). -/
def execRecovered (rail : Fin 2) (mv : Nat) (s : State) : Host.Outcome State Fault Refusal :=
  ok (if alive s.dev then s.onDev fun d => recovered d rail.val mv else s)

/-- HOLD_MOVE (R498). -/
def execHoldMove (s : State) : Host.Outcome State Fault Refusal := ok (if working s.dev then s.onDev holdMove else s)

/-- ADMIT_HOLD_CLEAR (R499). -/
def execAdmitHoldClear (s : State) : Host.Outcome State Fault Refusal := ok (if alive s.dev then s.onDev admitHoldClear else s)

/-- BROWNOUT (R501). -/
def execBrownout (rail : Fin 2) (mv : Nat) (s : State) : Host.Outcome State Fault Refusal := ok (brownout s rail.val mv)

/-- STANDBY_RESET (R495). -/
def execStandbyReset (s : State) : Host.Outcome State Fault Refusal := ok (standbyReset s)

/-- SUPPLY_IN_RANGE (R503). -/
def execSupplyInRange (rail : Fin 3) (mv : Nat) (s : State) : Host.Outcome State Fault Refusal := ok (supplyInRange s rail.val mv)

/-- PERST_N_ASSERT (R501). -/
def execPerstNAssert (lowNs : Nat) (s : State) : Host.Outcome State Fault Refusal := ok (perstAssert s lowNs)

/-- PERST_N_RELEASE (R503). -/
def execPerstNRelease (bootMode : Fin 4) (s : State) : Host.Outcome State Fault Refusal := ok (perstRelease s bootMode.val)

/-- RESET_EXIT (R501). -/
def execResetExit (s : State) : Host.Outcome State Fault Refusal := ok (resetExit s)

/-- TJ_WARN (R505). -/
def execTjWarn (sensor : Fin 32) (degC : Nat) (s : State) : Host.Outcome State Fault Refusal :=
  ok (if alive s.dev then s.onDev fun d => tjWarn d sensor.val degC else s)

/-- TJ_OK (R505). -/
def execTjOk (s : State) : Host.Outcome State Fault Refusal := ok (if alive s.dev then s.onDev tjOk else s)

/-- THERMAL_TRIP (R506): the sensor takes no part in what is recorded. -/
def execThermalTrip (_ : Fin 32) (degC : Nat) (s : State) : Host.Outcome State Fault Refusal :=
  ok (if alive s.dev then s.onDev fun d => thermalTrip d degC else s)

/-- SHUTDOWN (R506). -/
def execShutdown (_ : Fin 32) (degC : Nat) (s : State) : Host.Outcome State Fault Refusal :=
  ok (if alive s.dev then shutdown s degC else s)

/-- WAKE_LATCH (R469). -/
def execWakeLatch (src : Fin 1280) (cause : Nat) (s : State) : Host.Outcome State Fault Refusal := ok (wakeLatch s src.val cause)

/-- WAKE_RECORD_DELIVERY (R469). -/
def execWakeRecordDelivery (s : State) : Host.Outcome State Fault Refusal := ok (s.onDev deliverWake)

/-- TIMER (R508). -/
def execTimer (s : State) : Host.Outcome State Fault Refusal := ok (timerWake s)

end Sys2Proof.Machine
end

