-- ==== Sys2Proof/Machine/Boot.lean ====
section
/-! DEFINITION. Calibration and telemetry (R510 to R517), and the boot from WAIT to READY (R94, R365 to R371, R437, R454,
R467, R502). -/

namespace Sys2Proof.Machine

/-! ### Calibration -/

/-- A boot pair has ended; with the last one the boot ROM waits for an image (R503, R512). -/
def bootPairEnd (d : Dev) (b : Nat) : Dev :=
  if !d.boot.pairs.contains b then d
  else
    let d := { d with boot := { d.boot with pairs := d.boot.pairs.filter fun c => c != b } }
    if d.boot.pairs.isEmpty ∧ bootState d = 0 then setBootState d 1 else d

/-- An attempt of block b is complete: its reference temperature is the sensor's reading (R510). A pair commanded or
triggered meanwhile may follow (R513). -/
def calEnd (d : Dev) (b : Nat) (tj : Int) : Dev :=
  let again := (d.calBlk b).again
  let d := setRegFld d (rCal b 0) 47 32 (signedBits 16 tj)
  startCal (bootPairEnd (d.setCal b { d.calBlk b with stage := if again then 1 else 0, startAt := 0, again := false }) b)

/-- The calibration block that trains a unit of the indirect space (R514, R553). -/
def unitBlock (space unit : Nat) : Option Nat :=
  if space = 2 then some unit else if space = 3 then some (32 + unit / 2) else if space = 4 then some 34 else none

/-- The block's trained words take new values, which the spec does not give. -/
def newTraining (d : Dev) (b : Nat) : Dev :=
  { d with
    ind := d.ind.filter fun e => unitBlock (e.1 / 2 ^ 32) (e.1 / 2 ^ 24 % 256) != some b
    indGen := d.indGen.set 0 b (d.freeCtr + 1)
    freeCtr := d.freeCtr + 1 }

/-- The values of the repeat run are applied (R511). -/
def calAccept (d : Dev) (b : Nat) (tj : Int) : Dev :=
  let d := newTraining d b
  let d := incStat (setRegBit d (rCal b 0) 62 false) (rCal b 8) 1 1253 b (rCal b 8 - 0x7C0000)
  calEnd (setReg d (rCal b 0x10) (timeWord d)) b tj

/-- RETRAINED of a run in service; before READY no traffic is paused (R512). -/
def pauseRun (d : Dev) (b : Nat) : Dev := if d.boot.pairs.contains b then d else retrained d b

/-- The repeat run of a pair ends: accepted, or retried 1 ms later. -/
def calPairDone (d : Dev) (b : Nat) (agrees : Bool) (tj : Int) : Dev :=
  if (d.calBlk b).stage ≠ 2 then d
  else
    let d := pauseRun d b
    if agrees then calAccept d b tj
    else startCal (d.setCal b { d.calBlk b with stage := 3, startAt := d.now + 1000000 })

/-- A memory channel whose boot pair fails twice fails the boot (R512). -/
def bootFailed (d : Dev) (error : Nat) : Dev := blockFault (setRegFld d rBootStatus 7 0 error) 2 1234 8

/-- The retry, a run and its repeat: accepted, or the previous values stay in use (R511). -/
def calRetry (d : Dev) (b : Nat) (agrees : Bool) (tj : Int) : Dev :=
  if (d.calBlk b).stage ≠ 3 then d
  else
    let d := pauseRun (pauseRun (advance d (d.calBlk b).startAt) b) b
    if agrees then calAccept d b tj
    else
      let boot := d.boot.pairs.contains b && decide (b < 32)
      let d := incErr (setRegBit d (rCal b 0) 62 true) (rCal b 0x18)
      let d := calEnd (blockFault d 0 1253 1 b) b tj
      if boot then bootFailed d 4 else d

/-- A pair of block b is asked for: it waits for its limits, or follows the attempt in progress (R510, R513). -/
def askCal (d : Dev) (b : Nat) : Dev :=
  if (d.calBlk b).stage = 0 then d.setCal b { d.calBlk b with stage := 1 } else d.setCal b { d.calBlk b with again := true }

/-- The temperature of a block has drifted (R510); a trigger during an attempt is dropped (R513). -/
def calTrigger (d : Dev) (b : Nat) (tj : Int) : Dev :=
  let ref := signedOf 16 (regFld d (rCal b 0) 47 32)
  if regBit d rPwrCtrl 47 ∧ (d.calBlk b).stage = 0 ∧ 16 * regFld d rPwrCtrl 55 48 < (tj - ref).natAbs then startCal (askCal d b)
  else d

/-! ### Telemetry -/

/-- One telemetry register at tick k: a sensor under auto-zero keeps its last value, with STALE (R515, R517). -/
def telReg (d : Dev) (i k value : Nat) (stale : Bool) : Dev :=
  if stale then setRegBit d (rTel i) 63 true else setReg d (rTel i) (word (k % 2 ^ 31 * 2 ^ 32 + value % two32))

/-- The next telemetry tick: tick k falls at device time k × 1 ms, an overdue one at once, and none is skipped (R515, R574). -/
def telemetryTick (d : Dev) (values : List (Nat × Bool)) : Dev :=
  let k := d.tick + 1
  let d := { advance d (k * 1000000) with tick := k }
  let d := setReg (setReg d rTelTick (word (k % 2 ^ 31))) rTelTickPtp (timeWord d)
  each (List.range 40) d fun d i =>
    let v := values.getD i (0, true)
    if i = 6 ∨ i = 7 then telReg d i k 0 false else telReg d i k v.1 v.2

/-! ### The image -/

/-- The boot ROM takes the image from PCIe, or from SMBus: by mode, and whether the primary source has failed (R367,
R369). -/
def fromPcie (d : Dev) : Bool := (d.pwr.bootMode == 0 && !d.boot.recovery) || d.pwr.bootMode == 2

def fromSmbus (d : Dev) : Bool := (d.pwr.bootMode == 0 && d.boot.recovery) || d.pwr.bootMode == 1

/-- Verification starts on an image of n bytes from a source, at an offset of the memory window (R371). -/
def startVerify (d : Dev) (source offset n : Nat) : Dev :=
  let d := setRegBit (setRegFld (setBootState d 2) rBootStatus 59 58 source) rBootStatus 57 d.boot.recovery
  { d with boot := { d.boot with received := n, offset := offset } }

/-- A write of `BOOT_IMAGE` while the boot ROM waits. -/
def bootImage (d : Dev) (v : Word) : Dev :=
  if bootState d = 1 ∧ fromPcie d then startVerify d 1 (4096 * fld v 63 32) (fld v 31 0) else d

/-- A boot image block over SMBus (R400): the last one starts verification. -/
def imageBlock (d : Dev) (off : Nat) (bytes : List Byte) (last : Bool) : Dev :=
  if !alive d ∨ bootState d ≠ 1 ∨ !fromSmbus d ∨ bytes.isEmpty ∨ 1024 < bytes.length then d
  else
    let n := max d.boot.received (off + bytes.length)
    if last then startVerify d 2 0 n else { d with boot := { d.boot with received := n } }

/-- Largest image of a source (R368). -/
def imageLimit (d : Dev) : Nat := if regFld d rBootStatus 59 58 = 1 then 67108864 else 4194304

/-- The ERROR of an image: what verification found, an image too long or not within device memory (DESIGN CHOICE,
notes/assumptions/113.md), a version below SVN_MIN (R368, R371). -/
def imageError (s : State) (r : ImageResult) : Nat :=
  if r.error ≠ 0 then r.error
  else if imageLimit s.dev < s.dev.boot.received ∨ Config.memBytes < s.dev.boot.offset + s.dev.boot.received then 4
  else if r.svn < s.nv.svnMin then 2
  else 0

/-- An image fails (R369): the recovery source takes over, or the boot has failed. -/
def imageFails (s : State) (error : Nat) : State :=
  let s := s.onDev fun d => setRegFld d rBootStatus 7 0 error
  if s.dev.boot.recovery then graveHold (s.onDev fun d => blockFault d 3 1236 2)
  else if s.dev.pwr.bootMode = 0 then
    s.onDev fun d =>
      blockFault { setRegFld (setBootState d 1) rBootStatus 59 58 0 with boot := { d.boot with recovery := true, received := 0 } } 0 1264 1
  else s.onDev fun d => blockFault d 2 1234 8

/-- Bits of a match register that exist (R106). -/
def matchBits : Word := ones 63 63 ||| ones 45 32 ||| ones 9 0

/-- The patch is written to Gallery g and locked; one whose patch or self-test fails is not healthy (R94, R236). DESIGN CHOICE
(notes/assumptions/114.md): a Gallery whose patch fails has PATCH_EN, its match registers, patch RAM and identity zero, and is locked. -/
def loadPatch (d : Dev) (r : ImageResult) (g : Nat) : Dev :=
  let good := !r.badPatch.contains g
  let d := setRegBit (d.onGal g fun x => { x with unwell := !good || r.failedTest.contains g, patch := if good then (r.patchRam.take 1024).map BitVec.toNat else [] }) (rGal g oGalStatus) 61 good
  let d := setReg d (rGal g oUcPatchId) (if good then r.patchId else 0)
  let d := each (List.range 32) d fun d m => setReg d (rGal g (0x400 + 8 * m)) (if good then r.matchRegs.getD m 0 &&& matchBits else 0)
  setRegBit (setRegBit d (rGal g oUcCtrl) 63 good) (rGal g oUcCtrl) 62 true

/-- The windows of the memory regions of the standard image (R454): region, first and last. -/
def stdRegions : List (Nat × Nat × Nat) :=
  [(0, 0, 135), (1, 136, 183), (2, 184, 215), (3, 216, 231), (4, 232, 235), (5, 236, 237)]

/-- Sources that the standard image puts into the fast class (R467). -/
def stdFast : List Nat :=
  ((List.range 26).flatMap fun g => [768 + 8 * g + 3, 768 + 8 * g + 5, 768 + 8 * g + 6]) ++ [1232, 1234, 1236, 1252]

/-- What boot firmware writes into the device: patch, policy, access tables, regions, fast sources, locks (R94, R365,
R369, R437, R454, R467). -/
def writeImage (d : Dev) (r : ImageResult) : Dev :=
  let d := each (List.range 26) d fun d g => loadPatch d r g
  let d := each (List.range 16) d fun d k => setReg d (rKeyPolicy k) (r.policy.getD k 0)
  let d := match r.access with
    | none => { d with accStd := true }
    | some l => each l d fun d x => { d with acc := d.acc.set none (rAccWord x.1 x.2.1) (some x.2.2) }
  let d := each stdRegions d fun d x => setReg d (rMemRegion x.1) (word (2 ^ 63 + x.2.1 * 2 ^ 48 + x.2.2 * 2 ^ 32))
  let d := each stdFast d fun d s => setRegBit d (rSrcCfg s) 60 true
  setRegFld d rSecLocks 63 61 7

/-- The image loads and the device is READY (R369, R371, R502): LOAD lasts no time of its own, what it takes being at most 5 ms
(notes/assumptions/113.md). -/
def becomeReady (s : State) (r : ImageResult) : State :=
  let raises := r.raisesSvn && decide (s.nv.svnMin < r.svn)
  let s := if raises then { s with nv := { s.nv with svnMin := r.svn } } else s
  s.onDev fun d =>
    let d := writeImage d r
    let d := { d with
      boot := { d.boot with img := some { svn := r.svn, firmwareId := r.firmwareId, patchId := r.patchId, tableIds := r.tableIds } }
      roost := { d.roost with bootCount := d.roost.bootCount + 1 } }
    let d := setReg d rBootStatus (word (4 * 2 ^ 60 + regFld d rBootStatus 59 58 * 2 ^ 58 + d.boot.recovery.toNat * 2 ^ 57
      + r.svn % 65536 * 2 ^ 16 + r.keyIndex % 256 * 2 ^ 8))
    let d := setRegBit d rGuideStatus 62 (d.guide.pairA && d.guide.pairB)
    let d := addEntry (publish d) (plainEntry d 2)
    let d := if raises then raise d 1264 2 else d
    raise d 1254 1 0 d.pwr.resetKind

/-- IMAGE_VERIFIED (R368, R369). -/
def imageVerified (s : State) (r : ImageResult) : State :=
  if !alive s.dev ∨ bootState s.dev ≠ 2 then s
  else if imageError s r = 0 then becomeReady s r
  else imageFails s (imageError s r)

/-! ### Commands -/

/-- BOOT_IMAGE (R371). -/
def execBootImage (m : Master) (v : Word) (s : State) : Host.Outcome State Fault Refusal :=
  ok (barGate s m rBootImage true fun s => s.onDev fun d => bootImage d v)

/-- IMAGE_VERIFIED (R368). -/
def execImageVerified (r : ImageResult) (s : State) : Host.Outcome State Fault Refusal := ok (imageVerified s r)

/-- CAL_TRIGGER (R510). -/
def execCalTrigger (b : Fin 36) (tj : Int) (s : State) : Host.Outcome State Fault Refusal :=
  ok (if ready s.dev then s.onDev fun d => calTrigger d b.val tj else s)

/-- CAL_PAIR_DONE (R511). -/
def execCalPairDone (b : Fin 36) (agrees : Bool) (tj : Int) (s : State) : Host.Outcome State Fault Refusal :=
  ok (if alive s.dev then s.onDev fun d => calPairDone d b.val agrees tj else s)

/-- CAL_RETRY (R511). -/
def execCalRetry (b : Fin 36) (agrees : Bool) (tj : Int) (s : State) : Host.Outcome State Fault Refusal :=
  ok (if alive s.dev then s.onDev fun d => calRetry d b.val agrees tj else s)

/-- TELEMETRY_TICK (R515). -/
def execTelemetryTick (values : List (Nat × Bool)) (s : State) : Host.Outcome State Fault Refusal :=
  ok (if alive s.dev then s.onDev fun d => telemetryTick d values else s)

end Sys2Proof.Machine
end

