-- ==== Sys2Proof/Machine/Device.lean ====
section
/-! DEFINITION. DEVICE commands (R393 to R395, R491, R507), Guide takeover (R253 to R256, R402), and the happenings of the
fault collector (R480 to R488). -/

namespace Sys2Proof.Machine

/-! ### DEVICE -/

/-- `BOOT_STATUS` as it reads: SVN_MIN is fused, STATE is GRAVE in the grave hold (R371, R478). -/
def bootStatus (s : State) : Word :=
  let w := setFld (reg s.dev rBootStatus) 47 32 s.nv.svnMin
  if s.dev.roost.grave then setFld w 63 60 9 else w

def opDeviceNop (s : State) (p : Pkt) : State × Answer := simply s p [(hdrBad p 0 1, stBadParam)] fun s => (s, [])

/-- Result words 2 to 4 of DEVICE.QUERY (R393). -/
def queryCounts (d : Dev) : List Word :=
  let n := (d.streams.filter fun e => e.2.phase != .free).length
  let c := (d.ctxs.filter fun e => e.2.phase != .free).length
  let r := (d.recips.filter fun e => e.2.valid).length
  let h := ((List.range 26).filter fun g => healthy d g).length
  let gone := (List.range 26).foldl (fun w g => if retired d g then w + 2 ^ g else w) 0
  [reg d rGuideStatus, word (h * 2 ^ 56 + reserves d * 2 ^ 48 + n * 2 ^ 32 + c * 2 ^ 24 + r), word gone]

/-- The five result words of DEVICE.QUERY; before READY Roost answers, with zero in words 2 to 4 (R393, R401). -/
def queryWords (s : State) : List Word :=
  [bootStatus s, word (0x0192 * 2 ^ 48 + 0xB1 * 2 ^ 40 + ordinalOf s)]
    ++ (if ready s.dev || stopped s.dev then queryCounts s.dev else [0, 0, 0])

def opDeviceQuery (s : State) (p : Pkt) : State × Answer :=
  simply s p [(hdrBad p 0 1, stBadParam)] fun s => (s, queryWords s)

/-- Byte i of the certificate, zero after its end (R394). -/
def certAt (i : Nat) : Byte := if i < Config.certLength then Config.certByte i else 0

def opDeviceIdentity (s : State) (p : Pkt) : State × Answer :=
  let chunk := p.f 1 15 0
  simply s p
    [ (hdrBad p 1 1, stBadParam)
    , (!within (p.w 1) (ones 15 0) || decide (Config.certLength < 240 * chunk), stBadParam) ]
    fun s =>
      (s, word (Config.certLength % two32 * 2 ^ 32 + chunk) ::
        (List.range 30).map fun k => word (natBE ((List.range 8).map fun i => certAt (240 * chunk + 8 * k + i))))

/-- The reply is written, and the reset follows no earlier than 100 µs after it (R395). -/
def opDeviceReset (s : State) (p : Pkt) : State × Answer :=
  simply s p [(hdrBad p 0 1, stBadParam), (p.fn != 0, stDenied)] fun s =>
    (s.onDev fun d => d.onPwr fun q => { q with resetDue := some (d.now + 100000) }, [])

/-- A retirement or a takeover is being handled (R491). -/
def handling (d : Dev) : Bool := !d.guide.moves.isEmpty || d.guide.takeoverAt.isSome

/-- The classes that drive FAULT_N low are all cleared (R485). -/
def noneAsserts (d : Dev) : Bool :=
  !(regBit d rFltStatus 63 && regBit d rFltCtrl 63) && !regBit d rFltStatus 62 && !regBit d rFltStatus 61

/-- The capture of class k is free, MORE cleared (R482). -/
def freeCapture (d : Dev) (k : Nat) : Dev := setRegBit (setRegBit d (rCap k 0) 63 false) (rCap k 0) 61 false

/-- DEVICE.CLEAR_FAULT takes effect: bit 0 REARM_C, bit 1 CLEAR_D. In LEVEL mode firmware clears DRIVE_LOW once no asserting
class is left (R485, R491). -/
def clearFault (d : Dev) (rearmC clearD : Bool) : Dev :=
  let d := if rearmC then freeCapture d 0 else d
  let d := if clearD then freeCapture (setRegBit d rFltStatus 63 false) 1 else d
  let d := raise d 1237 1 0 (rearmC.toNat + 2 * clearD.toNat)
  if !regBit d rFltCtrl 62 && noneAsserts d then setRegBit d rFltCtrl 61 false else d

def opDeviceClearFault (s : State) (p : Pkt) : State × Answer :=
  simply s p
    [ (regBit s.dev rFltStatus 62 || regBit s.dev rFltStatus 61, stNotReady)
    , (hdrBad p 1 1, stBadParam), (p.fn != 0, stDenied)
    , (handling s.dev, stBusy), (!within (p.w 1) (ones 1 0), stBadParam) ]
    fun s => (s.onDev fun d => clearFault d (p.b 1 0) (p.b 1 1), [])

/-- A stream or decode context is not FREE. -/
def anyInUse (d : Dev) : Bool := (d.streams.any fun e => e.2.phase != .free) || d.ctxs.any fun e => e.2.phase != .free

/-- The pairs that CALIBRATE names are asked for in ascending block order (R507, R511). -/
def calibrate (d : Dev) (mask : Word) : Dev :=
  startCal (each (List.range 36) d fun d b => if bit mask b then askCal d b else d)

/-- DEVICE.POWER (R507): SLEEP writes its reply before the rails go. -/
def opDevicePower (s : State) (p : Pkt) : State × Answer :=
  let op := p.f 1 63 60
  if hdrBad p 1 1 then refuse s p stBadParam
  else if p.fn ≠ 0 then refuse s p stDenied
  else if op = 1 then
    if anyInUse s.dev then refuse s p stBusy
    else if !within (p.w 1) (ones 63 60 ||| ones 31 0) || decide (86400000 < p.f 1 31 0) then refuse s p stBadParam
    else accept (sleep (s.onDev fun d => reply d p.fn p.hdr p.tag stOk [] p.target) (p.f 1 31 0)) p
  else if op = 2 then
    if supplyWarning s.dev then refuse s p stBusy
    else if !within (p.w 1) (ones 63 60 ||| ones 35 0) then refuse s p stBadParam
    else accept (s.onDev fun d => calibrate d (p.w 1)) p
  else refuse s p stBadParam

/-! ### Guide pairs (R253 to R256, R402) -/

/-- Pair B is in control. -/
def pairBInControl (d : Dev) : Bool := regBit d rGuideStatus 63

/-- The last pair is lost: no Guide pair runs, so no reply is written any more and the fallback applies (R256, R404,
R486). -/
def lastPairLost (s : State) (divergence : Bool) : State :=
  let s := s.onDev fun d =>
    setRegBit { d with guide := { d.guide with pairA := false, pairB := false, takeoverAt := none }, rings := [] } rFltStatus 60 true
  if divergence then graveHold (s.onDev fun d => blockFault d 3 1236 3) else s.onDev fun d => blockFault d 2 1234 7

/-- A fault of the primary pair (R253, R254): the standby pair takes control; packets that have no reply yet are
replayed. -/
def takeover (s : State) (cause : Nat) : State :=
  if cause = 0 then s
  else if !(s.dev.guide.pairA && s.dev.guide.pairB) then
    (if s.dev.guide.pairA || s.dev.guide.pairB then lastPairLost s (cause = 1) else s)
  else
    s.onDev fun d =>
      let b := pairBInControl d
      let d := collect d 1 1232 1 0 0 (blockOrigin d 1232 1)
      let d := { d with
        guide := { d.guide with pairA := b, pairB := !b, takeoverAt := some d.now }
        rings := d.rings.map fun o => { o with replayed := true } }
      setRegBit (setRegBit d rGuideStatus 63 (!b)) rGuideStatus 62 false

/-- Every retirement that waits is handled, oldest first. -/
def failAll (fuel : Nat) (d : Dev) : Dev :=
  match fuel with
  | 0 => d
  | k + 1 => if d.guide.moves.isEmpty then d else failAll k (failover d)

/-- A supply warning of 500 µs whose move a takeover deferred. -/
def deferredMove (d : Dev) : Dev :=
  match d.pwr.warnAt with
  | some t => if t + 500000 ≤ d.now then holdMove d else d
  | none => d

/-- The takeover completes (R254): outstanding retirements and moves, then TAKEOVER. -/
def takeoverEnd (d : Dev) : Dev :=
  match d.guide.takeoverAt with
  | none => d
  | some t =>
    let d := setRegFld { d with guide := { d.guide with takeoverAt := none } } rGuideStatus 31 0 (max 1 (ceilDiv (d.now - t) 1000))
    raise (deferredMove (failAll d.guide.moves.length d)) 1232 1

/-! ### The collector's happenings -/

/-- The pair that owns a Guide core runs. -/
def coreRuns (d : Dev) (m : Nat) : Bool := if m ≤ 0xF1 then d.guide.pairA else d.guide.pairB

/-- A heartbeat ends the fallback, whose level FAULT_N keeps until `FLT_CTRL` is written (R486). -/
def heartbeat (d : Dev) (m : Nat) : Dev :=
  if !isGuide m || !coreRuns d m then d
  else
    let st := reg d rFltStatus
    let low := (bit st 63 && regBit d rFltCtrl 63) || bit st 62 || bit st 61
    let d := { d with flt := { d.flt with
      heartbeatAt := some d.now, keepLevel := d.flt.keepLevel || bit st 60, keptLow := if bit st 60 then low else d.flt.keptLow } }
    setRegBit d rFltStatus 60 false

/-- No heartbeat for 500 µs: the fallback applies (R486). -/
def heartbeatTimeout (d : Dev) : Dev :=
  match d.flt.heartbeatAt with
  | none => d
  | some t =>
    let d := advance d (t + 500000)
    setRegBit { d with flt := { d.flt with heartbeatAt := none, keepLevel := false } } rFltStatus 60 true

/-- The pulse on FAULT_N ends (R485). -/
def pulseEnd (d : Dev) : Dev :=
  match d.flt.pulseEnd with
  | none => d
  | some t => let d := advance d t; { d with flt := { d.flt with pulseEnd := none } }

/-- A write of `FLT_CTRL`; after a fallback FAULT_N follows DRIVE_LOW from the first one on (R486). -/
def fltCtrl (d : Dev) (v : Word) : Dev :=
  let d := setRegFld d rFltCtrl 63 61 (fld v 63 61)
  { d with flt := { d.flt with keepLevel := false } }

/-- A class G fault (R478, R480). -/
def fuse (s : State) (cause : Nat) : State := if cause = 0 then s else graveHold (s.onDev fun d => blockFault d 3 1236 cause)

/-- SHARED_UE and SHARED_CE: causes 1 to 6 name a block without a spare (R481). -/
def shared (d : Dev) (k src cause : Nat) : Dev := if inRange cause 1 6 then blockFault d k src cause else d

/-- The device answers the Alert Response Address while it drives ALERT_N; winning the arbitration clears PEND (R488,
R562). -/
def alertResponse (d : Dev) (wins : Bool) : Dev :=
  if !alertLow d || !wins then d
  else
    let d := emit (setRegBit d rFltAlert 63 false) (.alertAddress (0x58 + d.pwr.smbAddr))
    { d with roost := { d.roost with alert := false } }

/-! ### Commands -/

def execDeviceNop (fn : Master) (hdr : Word) (ps : List Word) (s : State) : Host.Outcome State Fault Refusal :=
  ok (submit opDeviceNop (mkPkt 0x0100 fn hdr ps) s)

def execDeviceQuery (fn : Master) (hdr : Word) (ps : List Word) (s : State) : Host.Outcome State Fault Refusal :=
  ok (submit opDeviceQuery (mkPkt 0x0101 fn hdr ps) s)

def execDeviceIdentity (fn : Master) (hdr : Word) (ps : List Word) (s : State) : Host.Outcome State Fault Refusal :=
  ok (submit opDeviceIdentity (mkPkt 0x0102 fn hdr ps) s)

def execDeviceReset (fn : Master) (hdr : Word) (ps : List Word) (s : State) : Host.Outcome State Fault Refusal :=
  ok (submit opDeviceReset (mkPkt 0x0103 fn hdr ps) s)

/-- Sets OP of a DEVICE.POWER packet to that of its row. -/
def withOp (op : Nat) (ps : List Word) : List Word :=
  match ps with
  | [] => []
  | w :: r => setFld w 63 60 op :: r

/-- SLEEP (R507, R508). -/
def execSleep (fn : Master) (hdr : Word) (ps : List Word) (s : State) : Host.Outcome State Fault Refusal :=
  ok (submit opDevicePower (mkPkt 0x0104 fn hdr (withOp 1 ps)) s)

/-- CALIBRATE (R507). -/
def execCalibrate (fn : Master) (hdr : Word) (ps : List Word) (s : State) : Host.Outcome State Fault Refusal :=
  ok (submit opDevicePower (mkPkt 0x0104 fn hdr (withOp 2 ps)) s)

def execDeviceClearFault (fn : Master) (hdr : Word) (ps : List Word) (s : State) : Host.Outcome State Fault Refusal :=
  ok (submit opDeviceClearFault (mkPkt 0x0105 fn hdr ps) s)

/-- TAKEOVER (R253). -/
def execTakeover (cause : Fin 5) (s : State) : Host.Outcome State Fault Refusal :=
  ok (if alive s.dev then takeover s cause.val else s)

/-- FUSE (R480). -/
def execFuse (cause : Fin 4) (s : State) : Host.Outcome State Fault Refusal := ok (if alive s.dev then fuse s cause.val else s)

/-- SHARED_UE (R481). -/
def execSharedUe (cause : Fin 9) (s : State) : Host.Outcome State Fault Refusal :=
  ok (if alive s.dev then s.onDev fun d => shared d 2 1234 cause.val else s)

/-- SHARED_CE (R481). -/
def execSharedCe (cause : Fin 7) (s : State) : Host.Outcome State Fault Refusal :=
  ok (if alive s.dev then s.onDev fun d => shared d 0 1235 cause.val else s)

/-- FLT_HEARTBEAT (R486). -/
def execFltHeartbeat (m : Master) (_ : Word) (s : State) : Host.Outcome State Fault Refusal :=
  ok (barGate s m rFltHeartbeat true fun s => s.onDev fun d => heartbeat d m)

/-- HEARTBEAT_TIMEOUT (R486). -/
def execHeartbeatTimeout (s : State) : Host.Outcome State Fault Refusal := ok (if alive s.dev then s.onDev heartbeatTimeout else s)

/-- FAULT_PULSE_END (R485). -/
def execFaultPulseEnd (s : State) : Host.Outcome State Fault Refusal := ok (if alive s.dev then s.onDev pulseEnd else s)

/-- FLT_CTRL_WRITE (R485). -/
def execFltCtrlWrite (m : Master) (v : Word) (s : State) : Host.Outcome State Fault Refusal :=
  ok (barGate s m rFltCtrl true fun s => s.onDev fun d => fltCtrl d v)

/-- CAPTURE_FREE (R482). -/
def execCaptureFree (m : Master) (k : Fin 4) (s : State) : Host.Outcome State Fault Refusal :=
  ok (barGate s m (rCap k.val 0) true fun s => s.onDev fun d => freeCapture d k.val)

/-- ALERT_RESPONSE (R488). -/
def execAlertResponse (wins : Bool) (s : State) : Host.Outcome State Fault Refusal := ok (s.onDev fun d => alertResponse d wins)

end Sys2Proof.Machine
end

