-- ==== Sys2Proof/Machine/Dma.lean ====
section
/-! DEFINITION. Shaft at work: posts, the start and the completion of descriptors, tail errors and abandonment by host errors
(R415 to R429). -/

namespace Sys2Proof.Machine

/-! ### Planes (R61, R64, R68, R158, R215, R418) -/

/-- A plane that a descriptor may name: rows, bytes of a row, pitch, device address of row 0. -/
structure Plane where
  rows : Nat
  bytes : Nat
  pitch : Nat
  base : Nat
deriving DecidableEq, Repr

/-- The QP map that chains write: the latest one accepted (DEDUCED, notes/assumptions/25.md). -/
def latestMap (st : Stream) : QpMap :=
  st.staged.foldl (fun m x => match x with | .map y => y | _ => m) st.map

/-- The planes of a stream channel in the ring slot of a frame. -/
def streamPlane (st : Stream) (frame plane : Nat) : Option Plane :=
  let c := st.cfg
  let slot := c.ringBase + frame % max 1 c.slotCount * c.slotStride
  let m := latestMap st
  match plane with
  | 0 => some { rows := c.height, bytes := rowBytes c.srcFormat c.width, pitch := c.lumaPitch, base := slot }
  | 1 =>
    if planar c.srcFormat then
      some { rows := c.height / 2, bytes := rowBytes c.srcFormat c.width, pitch := c.chromaPitch, base := slot + c.chromaOffset }
    else none
  | 2 =>
    if c.hints then some { rows := c.hintRows, bytes := 8 * c.hintCols, pitch := 8 * c.hintCols, base := slot + c.hintOffset + 64 }
    else none
  | _ =>
    if m.en then
      some { rows := c.hsb, bytes := c.wsb, pitch := c.wsb, base := m.base + frame % max 1 c.slotCount * m.stride + 8 }
    else none

/-- The planes of an output slot of a decode context. -/
def outPlane (x : Ctx) (slot plane : Nat) : Option Plane :=
  let pitch := ceilDiv (rowBytes x.outFormat x.maxW) 256 * 256
  let base := x.outBase + slot * x.outStride
  if x.outSlots ≤ slot then none
  else match plane with
    | 0 => some { rows := x.maxH, bytes := rowBytes x.outFormat x.maxW, pitch := pitch, base := base }
    | 1 => some { rows := ceilDiv x.maxH 2, bytes := rowBytes x.outFormat x.maxW, pitch := pitch, base := base + ceilDiv (pitch * x.maxH) 4096 * 4096 }
    | _ => none

/-! ### Descriptors (R417, R419) -/

def dType (ws : List Word) : Nat := fld (ws.getD 0 0) 63 60
def dLast (ws : List Word) : Bool := bit (ws.getD 0 0) 59
def dEoau (ws : List Word) : Bool := bit (ws.getD 0 0) 58
def dPlane (ws : List Word) : Nat := fld (ws.getD 0 0) 57 56
def dFirst (ws : List Word) : Nat := fld (ws.getD 0 0) 47 32
def dRows (ws : List Word) : Nat := fld (ws.getD 0 0) 31 16
def dBytes (ws : List Word) : Nat := fld (ws.getD 0 0) 15 0

/-- The plane that a row descriptor names. -/
def planeOf (d : Dev) (c frame : Nat) (ws : List Word) : Option Plane :=
  if c < 192 then streamPlane (d.stream c) frame (dPlane ws)
  else outPlane (d.ctx (c - 192)) (fld (ws.getD 2 0) 7 0) (dPlane ws)

/-- Rows and bytes of a row descriptor fit its plane (R419). -/
def rowsFit (ws : List Word) (p : Plane) : Bool :=
  decide (1 ≤ dRows ws) && decide (dFirst ws + dRows ws ≤ p.rows) && decide (dBytes ws ≤ p.pitch) && decide (dBytes ws ≤ p.bytes)
    && decide (dRows ws * dBytes ws ≤ 4194304)

/-- A HEAD meets the layout of R417. -/
def headOk (c : Nat) (ws : List Word) : Bool :=
  within (ws.getD 0 0) (ones 63 59) && fld (ws.getD 1 0) 3 0 == 0
    && (if c < 192 then within (ws.getD 2 0) (ones 31 0) else ws.getD 2 0 == 0)

/-- Another descriptor suits its channel and meets the layout of R417. A BITSTREAM descriptor suits only a context whose input source is
the host (R208; DEDUCED, notes/assumptions/83.md). -/
def bodyOk (d : Dev) (c frame : Nat) (ws : List Word) : Bool :=
  let w0 := ws.getD 0 0
  let rows := within w0 (ones 63 59 ||| ones 57 56 ||| ones 47 0) && (planeOf d c frame ws).any (rowsFit ws)
  match dType ws with
  | 1 => decide (c < 192) && rows && within (ws.getD 2 0) (ones 63 32)
  | 2 => decide (c < 192) && rows && fld (ws.getD 2 0) 2 0 == 0
  | 3 => decide (192 ≤ c) && !(d.ctx (c - 192)).network && within w0 (ones 63 58 ||| ones 15 0) && ws.getD 2 0 == 0
  | 4 => decide (192 ≤ c) && rows && within (ws.getD 2 0) (ones 63 32 ||| ones 7 0)
  | _ => false

/-- NEXT is aligned; with LAST it is ignored. -/
def nextOk (ws : List Word) : Bool := dLast ws || fld (ws.getD 3 0) 4 0 == 0

/-! ### Starting (R416, R423 to R426) -/

/-- Channel c takes its next queued chain. -/
def takeChain (d : Dev) (c : Nat) : Dev :=
  let ch := d.chan c
  match ch.chain, ch.queue with
  | none, (addr, owner) :: rest =>
    d.setChan c { ch with queue := rest, chain := some { owner := owner, next := addr, ctrl := reg d (rCh c oChCtrl) } }
  | _, _ => d

/-- A chain is abandoned with a STATUS: its counter, its event, its record (R426). -/
def abandon (d : Dev) (c k cause status : Nat) : Dev := endChain (chErr d c k cause) c status

/-- The next step of a chain after a descriptor: its end, the chain limit, or the descriptor that NEXT names. -/
def chainOn (d : Dev) (c : Nat) (ws : List Word) : Dev :=
  match (d.chan c).chain with
  | none => d
  | some h =>
    if dLast ws then endChain d c 0
    else if fld h.ctrl 63 48 ≤ h.descs then abandon d c 1 2 1
    else d.onChan c fun x => { x with desc := none, chain := some { h with next := (ws.getD 3 0).toNat } }

/-- Counts a completed descriptor and its bytes. -/
def descDone (d : Dev) (c bytes : Nat) : Dev :=
  let d := d.onChan c fun x => { x with chain := x.chain.map fun h => { h with descs := h.descs + 1 } }
  incStat (incStat d (rCh c oChBytes) bytes 1137 c oChBytes) (rCh c oChDescs) 1 1137 c oChDescs

/-- The HEAD of a chain runs: it moves no data, so it completes as it starts (R418). -/
def runHead (d : Dev) (c : Nat) (h : Chain) (ws : List Word) : Dev :=
  let frame := fld (ws.getD 2 0) 31 0
  let isHead := dType ws == 0
  let hostOk := fld (ws.getD 1 0) 3 0 == 0
  let h' := if isHead then { h with frame := frame, record := if hostOk then (ws.getD 1 0).toNat else 0, headDone := true } else h
  let d := d.onChan c fun x => { x with chain := some h' }
  if !isHead || !headOk c ws || !nextOk ws || h.next % 32 != 0 then abandon d c 4 5 4
  else if decide (c < 192) && regBit d (rLan c oLanRows) 0 && frameAfter (regFld d (rLan c oLanRows) 63 32) frame then
    endChain (chErr d c 5 0) c 5
  else chainOn (descDone d c 0) c ws

/-- Channel c waits: it is paused, its slot is guarded, its BITSTREAM does not fit, or its target is arming (R416, R423,
R424). -/
def waits (d : Dev) (c : Nat) (ws : List Word) : Bool :=
  let ch := d.chan c
  let frame := match ch.chain with
    | some h => if h.headDone then h.frame else fld (ws.getD 2 0) 31 0
    | none => fld (ws.getD 2 0) 31 0
  (regBit d (rCh c oChStatus) 12 && dType ws != 4)
    || (decide (c < 192) && ((d.stream c).arming || guarded d c frame))
    || (decide (192 ≤ c) && dType ws == 3 && !auFits (d.ctx (c - 192)) (dBytes ws))

/-- Shaft starts a fetched descriptor of channel c. One descriptor runs at a time (R425); whose turn it is among the ready
channels comes with the happening (notes/assumptions/26.md). -/
def startDesc (d : Dev) (c : Nat) (ws : List Word) : Dev :=
  if !working d || !regBit d rShaftCtrl 63 || d.chans.any (fun e => e.2.desc.isSome) || waits d c ws then d
  else
    let d := takeChain d c
    match (d.chan c).chain with
    | none => d
    | some h =>
      if !h.headDone then runHead d c h ws
      else if dType ws == 0 || !nextOk ws || h.next % 32 != 0 || !bodyOk d c h.frame ws then abandon d c 4 5 4
      else d.onChan c fun x => { x with desc := some ws }

/-! ### Writing (R418, R434) -/

/-- A write of Shaft for a chain: granted to Shaft and to the chain's owner. -/
def shaftStore (s : State) (owner a : Nat) (bs : List Byte) (stream : Option Nat) : State × Bool :=
  let r := storeAs s 0xF8 a bs stream
  if !r.2 then r
  else if memGranted s.dev owner a bs.length true then r
  else (s.onDev fun d => deny d owner 1 (deniedWindow d owner a bs.length true) 1 a stream, false)

/-- Rows of a descriptor, one after the other, until a write is denied. -/
def storeRows (n : Nat) (s : State) (owner a pitch bytes : Nat) (bs : List Byte) (stream : Option Nat) : State × Bool :=
  match n with
  | 0 => (s, true)
  | k + 1 =>
    let r := shaftStore s owner a (bs.take bytes) stream
    if r.2 then storeRows k r.1 owner (a + pitch) pitch bytes (bs.drop bytes) stream else r

/-- Rows read for FRAME_OUT: an access that is denied reads zero (R439). -/
def readAs (s : State) (m a n : Nat) : State × List Byte :=
  if memGranted s.dev m a n false then (s, s.bytes a n)
  else (s.onDev fun d => deny d m 0 (deniedWindow d m a n false) 1 a none, List.replicate n 0)

/-- Rows of an output slot go to host memory; a row that holds an unreadable line goes out poisoned (R448). -/
def sendRows (n : Nat) (s : State) (a pitch bytes host hpitch : Nat) (bad : List Nat) : State :=
  match n with
  | 0 => s
  | k + 1 =>
    let r := readAs s 0xF8 a bytes
    sendRows k (r.1.onDev fun d => emit d (.data host r.2 (bad.any fun l => decide (64 * l < a + bytes) && decide (a < 64 * l + 64))))
      (a + pitch) pitch bytes (host + hpitch) hpitch bad

/-- The header word of hints or of a QP map follows each descriptor that wrote rows of them (R68, R158, R420). -/
def storeHeader (s : State) (c : Nat) (h : Chain) (plane : Nat) : State × Bool :=
  match streamPlane (s.dev.stream c) h.frame plane with
  | none => (s, true)
  | some p =>
    if plane = 2 then
      let valid := coverFrom (h.hintRows.length + 1) h.hintRows 0
      shaftStore s h.owner (p.base - 64) (bytesLE (word (h.frame % two32 * two32 + valid % 65536 * 65536))) (some c)
    else if plane = 3 then shaftStore s h.owner (p.base - 8) (bytesLE (word (h.frame % two32 * two32))) (some c)
    else (s, true)

/-- The rows of a descriptor are accounted: delivered, or declared missing after a tail error (R422, R427). -/
def accountRows (d : Dev) (c : Nat) (h : Chain) (ws : List Word) (lost : Bool) : Dev :=
  let iv := (dFirst ws, dFirst ws + dRows ws)
  match dPlane ws with
  | 0 => d.onChan c fun x =>
      let f := frameRows x h.frame
      setFrameRows x (if lost then { f with missing := f.missing ++ [iv] } else { f with luma := f.luma ++ [iv] })
  | 1 => d.onChan c fun x =>
      let f := frameRows x h.frame
      let f := { f with chroma := f.chroma ++ [iv] }
      setFrameRows x (if lost then { f with missing := f.missing ++ [(2 * iv.1, 2 * iv.2)] } else f)
  | 2 => if lost then d else d.onChan c fun x => { x with chain := x.chain.map fun h => { h with hintRows := h.hintRows ++ [iv] } }
  | _ => d

/-- A chain whose write was denied is abandoned (R426). -/
def deniedChain (s : State) (c : Nat) : State := s.onDev fun d => abandon d c 7 0 7

/-- A row descriptor of a stream channel completes. -/
def moveRows (s : State) (c : Nat) (h : Chain) (ws : List Word) (bytes : List Byte) (lost : Bool) : State :=
  match planeOf s.dev c h.frame ws with
  | none => s
  | some p =>
    let r := storeRows (dRows ws) s h.owner (p.base + dFirst ws * p.pitch) p.pitch (dBytes ws) bytes (some c)
    if !r.2 then deniedChain r.1 c
    else
      let s := r.1.onDev fun d => descDone (accountRows d c h ws lost) c (dRows ws * dBytes ws)
      let r := match (s.dev.chan c).chain with
        | some h => if lost then (s, true) else storeHeader s c h (dPlane ws)
        | none => (s, true)
      if !r.2 then deniedChain r.1 c
      else r.1.onDev fun d => pauseUpdate (chainOn d c ws) c

/-- The input buffer of a context is granted to a chain's owner. -/
def inputGranted (d : Dev) (x : Ctx) (owner : Nat) : Bool :=
  memGranted d 0xF8 x.inBase x.inSize true && memGranted d owner x.inBase x.inSize true

/-- The bytes of the access unit in progress of context k, as the input buffer holds them. -/
def openUnit (s : State) (k : Nat) : List Byte :=
  let x := s.dev.ctx k
  match x.auOpen with
  | some (n, _) => if x.auDrop then [] else (List.range n).map fun i => s.byte (x.inBase + (x.wr + 32 + i) % max 1 x.inSize)
  | none => []

/-- Appends host input to the access unit in progress, which ends where the next one begins (R209). `lost`: a tail error touched the
bytes. -/
def appendInput (fuel : Nat) (s : State) (k : Nat) (bytes : List Byte) (lost : Bool) : State :=
  let x := s.dev.ctx k
  let so := openUnit s k
  let put := fun (s : State) (bs : List Byte) =>
    let s := auAppend s 0xF8 k bs
    if lost then s.onDev fun d => d.onCtx k auLose else s
  match fuel, Config.nextUnit x.codec x.inFormat (so ++ bytes) with
  | f + 1, some p =>
    if 0 < p ∧ so.length ≤ p ∧ p < so.length + bytes.length then
      let s := if so.length = p then s else put s (bytes.take (p - so.length))
      appendInput f (auComplete s 0xF8 k false 0) k (bytes.drop (p - so.length)) lost
    else put s bytes
  | _, _ => put s bytes

/-- The input of a BITSTREAM descriptor enters the buffer, and ends its unit where EOAU says so. -/
def enterInput (s : State) (k : Nat) (ws : List Word) (bytes : List Byte) (lost : Bool) : State :=
  let s := appendInput (dBytes ws) s k (bytes.take (dBytes ws)) lost
  if dEoau ws then auComplete s 0xF8 k false 0 else s

/-- Every unit of the descriptor finds room: host input is paced and never dropped (R210). -/
def inputFits (s : State) (k : Nat) (ws : List Word) (bytes : List Byte) (lost : Bool) : Bool :=
  let x := (enterInput s k ws bytes lost).dev.ctx k
  !x.auDrop && (x.units.drop (s.dev.ctx k).units.length).all fun u => u.size != 0

/-- A BITSTREAM descriptor completes; a tail error marks its access unit LOST (R420, R427). -/
def completeBits (s : State) (c : Nat) (h : Chain) (ws : List Word) (bytes : List Byte) (lost : Bool) : State :=
  let k := c - 192
  let x := s.dev.ctx k
  if !inputGranted s.dev x h.owner then
    let m := if memGranted s.dev 0xF8 x.inBase x.inSize true then h.owner else 0xF8
    deniedChain (s.onDev fun d => deny d m 1 (deniedWindow d m x.inBase x.inSize true) 1 x.inBase none) c
  else
    (enterInput s k ws bytes lost).onDev fun d => pauseUpdate (chainOn (descDone d c (dBytes ws)) c ws) c

/-- A FRAME_OUT descriptor completes. -/
def completeOut (s : State) (c : Nat) (ws : List Word) : State :=
  match planeOf s.dev c 0 ws with
  | none => s
  | some p =>
    let s := sendRows (dRows ws) s (p.base + dFirst ws * p.pitch) p.pitch (dBytes ws) (ws.getD 1 0).toNat (fld (ws.getD 2 0) 63 32)
      (s.dev.chan c).poison
    s.onDev fun d => chainOn (descDone d c (dRows ws * dBytes ws)) c ws

/-- The descriptor in progress of channel c completes with the bytes read from host memory. A BITSTREAM descriptor whose units do not all
fit yet stays in progress (R210). -/
def completeDesc (s : State) (c : Nat) (bytes : List Byte) (lost : Bool) : State :=
  match (s.dev.chan c).chain, (s.dev.chan c).desc with
  | some h, some ws =>
    if dType ws == 3 && inputGranted s.dev (s.dev.ctx (c - 192)) h.owner && !inputFits s (c - 192) ws bytes lost then s else
    let s := s.onDev fun d => d.onChan c fun x => { x with desc := none }
    let clean := fun s : State => s.onDev fun d => d.onChan c fun x => { x with poison := [] }
    match dType ws with
    | 3 => completeBits (clean s) c h ws bytes lost
    | 4 => clean (completeOut s c ws)
    | _ => moveRows (clean s) c h ws bytes lost
  | _, _ => s

/-- Bytes that no one has stated: those that a request with a tail error wrote. -/
def freeBytes (d : Dev) (n : Nat) : List Byte × Dev :=
  ((List.range n).map fun i => Config.freeByte (d.freeCtr + 1) i, { d with freeCtr := d.freeCtr + 1 })

/-- A tail error (R427): the descriptor counts as completed, what it wrote counts as missing, the chain goes on. -/
def tailError (s : State) (c : Nat) : State :=
  match (s.dev.chan c).desc with
  | none => s
  | some ws =>
    let n := if dType ws = 3 then dBytes ws else dRows ws * dBytes ws
    let r := freeBytes s.dev n
    let d := (chErr r.2 c 0 1).onChan c fun x => { x with chain := x.chain.map fun h => { h with tail := true } }
    completeDesc { s with dev := d } c r.1 true

/-- A request of channel c fails: a timeout, or an error completion that is no tail error (R426). A fetch of the HEAD of a
queued chain takes that chain. -/
def hostFailure (d : Dev) (c k cause status : Nat) : Dev :=
  let d := takeChain d c
  if (d.chan c).chain.isSome then abandon d c k cause status else d

/-! ### Posts and registers (R416, R424, R429) -/

/-- The target of a channel is FREE or CLOSING, and not a stream whose Lantern is arming. -/
def targetOff (d : Dev) (c : Nat) : Bool :=
  if c < 192 then
    let s := d.stream c
    !s.arming && (s.phase == .free || s.phase == .closing)
  else (d.ctx (c - 192)).phase == .free || (d.ctx (c - 192)).phase == .closing

/-- The owner of the target of a channel. -/
def chanOwner (d : Dev) (c : Nat) : Nat := if c < 192 then d.streamOwner c else d.ctxOwner (c - 192)

/-- A chain is posted (R416). -/
def postChain (d : Dev) (c : Nat) (v : Word) : Dev :=
  if targetOff d c then chErr d c 5 0
  else if 4 ≤ (d.chan c).queue.length then chErr d c 6 6
  else d.onChan c fun x => { x with queue := x.queue ++ [(v.toNat, chanOwner d c)], served := true }

/-- A value of `SHAFT_CH_CTRL` meets R424 and R429; the marks of a channel without a target are compared as written. -/
def chCtrlOk (d : Dev) (c : Nat) (v : Word) : Bool :=
  let m := marksOf d c v
  let most := if c < 192 then (d.stream c).cfg.slotCount * (d.stream c).cfg.height else (d.ctx (c - 192)).inSize
  decide (1 ≤ fld v 63 48) &&
    (if targetOff d c then fld v 47 24 == 0 || decide (fld v 23 0 < fld v 47 24) else decide (m.2 < m.1) && decide (m.1 ≤ most))

/-- A write of `SHAFT_CH_CTRL`: one that breaks its limits is ignored and raises DESC_ERROR. -/
def writeChCtrl (d : Dev) (c : Nat) (v : Word) : Dev :=
  if chCtrlOk d c v then pauseUpdate (setReg d (rCh c oChCtrl) v) c else raise d 1137 5 c

/-! ### Commands -/

/-- SHAFT_CH_POST (R416). -/
def execShaftChPost (m : Master) (c : Fin 288) (v : Word) (s : State) : Host.Outcome State Fault Refusal :=
  ok (barGate s m (rCh c.val oChPost) true fun s => s.onDev fun d => postChain d c.val v)

/-- SHAFT_CH_CTRL_WRITE (R429). -/
def execShaftChCtrlWrite (m : Master) (c : Fin 288) (v : Word) (s : State) : Host.Outcome State Fault Refusal :=
  ok (barGate s m (rCh c.val oChCtrl) true fun s => s.onDev fun d => writeChCtrl d c.val v)

/-- DESCRIPTOR_START (R425). -/
def execDescriptorStart (c : Fin 288) (ws : List Word) (s : State) : Host.Outcome State Fault Refusal :=
  ok (s.onDev fun d => startDesc d c.val ws)

/-- DESCRIPTOR_COMPLETE (R418). -/
def execDescriptorComplete (c : Fin 288) (bytes : List Byte) (s : State) : Host.Outcome State Fault Refusal :=
  ok (if working s.dev then completeDesc s c.val bytes false else s)

end Sys2Proof.Machine
end

