-- ==== Sys2Proof/Machine/Memc.lean ====
section
/-! DEFINITION. The memory controller: corrected and uncorrectable errors, the scrubber, neighbour refresh, age promotion
(R443, R447 to R452, R457). -/

namespace Sys2Proof.Machine

/-! ### Address orders (R441 to R445) -/

/-- Bits [hi:lo] of a number. -/
def bitsOf (n hi lo : Nat) : Nat := n / 2 ^ lo % 2 ^ (hi + 1 - lo)

/-- Channel and channel-local data address of device address a under an ORDER (R444). -/
def orderMap (order a : Nat) : Nat × Nat :=
  match order with
  | 0 =>
    let g := a / 256
    (bitsOf g 4 0 ^^^ bitsOf g 9 5 ^^^ bitsOf g 14 10, g / 32 * 256 + a % 256)
  | 1 =>
    let p := a / 4096
    (bitsOf p 4 0 ^^^ bitsOf p 9 5, p / 32 * 4096 + a % 4096)
  | _ =>
    let half := 31943819264
    let u := if half ≤ a then 1 else 0
    let h := a - u * half
    let g := h / 256
    (16 * u + (bitsOf g 3 0 ^^^ bitsOf g 7 4 ^^^ bitsOf g 11 8), g / 16 * 256 + h % 256)

/-- Channel and channel-local data address of offset x of a copy of the mirror region (R445). -/
def mirrorMap (copyB : Bool) (x : Nat) : Nat × Nat :=
  let g := x / 256
  ((bitsOf g 3 0 ^^^ bitsOf g 7 4) + (if copyB then 16 else 0), 1904 * 1048576 + g / 16 * 256 + x % 256)

/-- Channel and channel-local data address of a backed device address. -/
def channelOf (d : Dev) (a : Nat) : Nat × Nat :=
  if a < Config.mirrorBase then orderMap (regFld d rMemCtrl 63 62) a
  else if a < Config.mirrorBase + 268435456 then mirrorMap false (a - Config.mirrorBase)
  else mirrorMap true (a - Config.mirrorBase - 268435456)

/-- Bank, half of the row, row and byte of its block of a channel-local data address (R442). -/
def blockOf (x : Nat) : Nat × Nat × Nat × Nat :=
  let b := x / 960
  (b % 16, b / 16 % 2, b / 32, x % 960)

/-! ### Corrected errors (R447) -/

/-- `MEM_CH_LAST_ERR` for a line. -/
def lastErr (d : Dev) (m line : Nat) (uncorr tag : Bool) : Dev :=
  setReg d (rMc m oMcLastErr) (word (uncorr.toNat * 2 ^ 63 + tag.toNat * 2 ^ 62 + line % 2 ^ 36))

/-- Corrected errors of channel m in the present second. -/
def ceThisSecond (d : Dev) (m : Nat) : Nat :=
  if d.memc.ceSecond.get 0 m = d.now / 1000000000 + 1 then d.memc.ceCount.get 0 m else 0

/-- More than CE_STORM corrected errors have come in the present second; 0 disables the test. -/
def inStorm (d : Dev) (m : Nat) : Bool :=
  let lim := regFld d rMemCtrl 31 0
  decide (lim ≠ 0) && decide (lim < ceThisSecond d m)

/-- The origin of a memory fault: the requester, its access and the line (R483). -/
def lineOrigin (master access line : Nat) (stream : Option Nat) : Origin :=
  { master := master, access := access, space := if access = 0 then 0 else 1, addr := if access = 0 then 0 else 64 * line, stream := stream }

/-- A corrected error of channel m, a class C fault; more than CE_STORM of them raise CE_STORM once for the second. -/
def correctedErr (d : Dev) (m line : Nat) : Dev :=
  let d := lastErr (incErr d (rMc m oMcCe)) m line false false
  let before := inStorm d m
  let n := ceThisSecond d m + 1
  let d := { d with memc := { d.memc with
    ceSecond := d.memc.ceSecond.set 0 m (d.now / 1000000000 + 1), ceCount := d.memc.ceCount.set 0 m n } }
  let d := limitedFault d 1000000 0 (976 + 4 * m) 1 m 0 (blockOrigin d (976 + 4 * m) 1)
  if inStorm d m && !before then blockFault d 0 (976 + 4 * m) 2 m else d

/-! ### Uncorrectable errors and tag mismatches (R448) -/

/-- The requester of an unreadable line, and the stream it worked for. -/
def userOf (d : Dev) : MemUser → Nat × Option Nat
  | .mirror => (guideCore d, none)
  | .source n _ _ => (0xD0 + (((d.stream n).parts.head?).map fun q => q.gal).getD 0, some n)
  | .reference n seq _ => (0xD0 + ((bandAt (d.stream n) seq).map fun b => b.gal).getD 0, some n)
  | .fifo n _ => (0xF9, some n)
  | .stored n _ => (0xF9, some n)
  | .ingest _ _ => (0xFA, none)
  | .entry r => (0xF9, r.map fun r => (d.recip r).stream)
  | .bar2 => (0, none)
  | .shaftOut _ => (0xF8, none)
  | .scrubber => (0xFC, none)

/-- The part of the stream record that a line of the mirror region holds is unreadable in one copy. The stream record of
stream n stands at 32 KiB × n of each copy (notes/assumptions/27.md). -/
def mirrorCopyBad (st : Stream) (copyB : Bool) (off : Nat) : Stream :=
  if off < 0x3000 then
    { st with images := st.images.map fun i =>
        if i.seq % 8 = off / 0x600 then (if copyB then { i with copyB := false } else { i with copyA := false }) else i }
  else if off / 64 = 0x3000 / 64 then (if copyB then { st with verB := false } else { st with verA := false })
  else st

/-- Items of the stream record that neither copy yields. -/
def lostItems (st : Stream) : Nat :=
  (st.images.filter fun i => !i.copyA && !i.copyB).length + (!st.verA && !st.verB).toNat

/-- A line of the mirror region cannot be read: the reader takes the other copy; an item that both copies fail is lost,
counted and raised (R232). -/
def mirrorError (d : Dev) (line : Nat) : Dev :=
  let a := 64 * line
  if a < 0xEE0000000 then d
  else
    let copyB := decide (0xEF0000000 ≤ a)
    let x := (a - 0xEE0000000) % 0x10000000
    let n := x / 0x8000
    if 192 ≤ n then d
    else
      let had := lostItems (d.stream n)
      let d := d.onStream n fun st => mirrorCopyBad st copyB (x % 0x8000)
      if had < lostItems (d.stream n) then
        blockFault (d.onStream n fun st => { st with ckptLost := errAdd st.ckptLost 1 }) 0 (4 * n + 1) 6
      else d

/-- A source row cannot be read: it is missing, and a band of it in progress is coded under R154. -/
def sourceError (d : Dev) (n frame row : Nat) : Dev :=
  let d := d.onChan n fun c => setFrameRows c (let f := frameRows c frame; { f with missing := f.missing ++ [(row, row + 1)] })
  let cfg := (d.stream n).cfg
  let hit := fun b : Band => b.frame == frame && b.stage == .coding && decide (64 * cfg.firstRow b.b ≤ row)
    && decide (row < 64 * (cfg.firstRow b.b + cfg.rowsOf b.b))
  d.onStream n fun st => { st with bands := st.bands.map fun b => if hit b then { b with missing := true, host := true } else b }

/-- A band is killed, unless a gap has lost it already, and not re-sent, and Mouth treats it as a gap marker of CAUSE 0x05: in the FIFO it is replaced by the
marker, ahead of NEXT it becomes one, behind NEXT its frame is marked and NEXT stays. -/
def killLost (d : Dev) (n seq g : Nat) : Dev :=
  match (d.gal g).fifo.find? fun it => it.isOf n seq with
  | some it => putMarker d g n { seq := seq, frame := it.frame, b := it.b } 5
  | none =>
  if behindNext d n seq then
    let frame := frameOfSeq d n seq
    let d := incErr (if wasLost d n seq then d else killBand d n seq) (rMs n oMsGaps)
    let d := match frame with
      | some f => markGap d n f
      | none => d
    loseBands d n seq 1 5
  else if wasReleased d n seq then reseqItem (killBand d n seq) n seq 1 5
  else if ((d.stream n).held.any fun h => h.seq == seq) || (storedAt d n seq).isSome then
    reseqItem (discardStored (dropHeld d n seq) n seq) n seq 1 5
  else d

/-- The Gallery's side of a band lost to a memory error: no verdict, no re-encode, it counts as verified (R230). -/
def galleryLoses (d : Dev) (n seq : Nat) : Dev :=
  match bandAt (d.stream n) seq with
  | none => d
  | some b => if b.verified then d else prune (loseBand d n b false) n

/-- A read during coding or verification fails: the band gives way to a gap marker, the picture holding the line is
barred. -/
def referenceError (d : Dev) (n seq frame : Nat) : Dev :=
  let d := onRef d n fun r => barPics r fun f => f == frame
  match bandAt (d.stream n) seq with
  | none => d
  | some b =>
    if b.verified then d
    else if b.stage == .coding || b.stage == .draining then loseBand (putMarker d b.gal n b 5) n b false
    else if b.stage == .waiting then d
    else galleryLoses (killLost d n seq b.gal) n seq

/-- Mouth's read of a band fails. -/
def mouthError (d : Dev) (n seq : Nat) : Dev :=
  let g := match bandAt (d.stream n) seq with
    | some b => b.gal
    | none => ((List.range 26).find? fun g => (d.gal g).fifo.any fun it => it.isOf n seq).getD 0
  galleryLoses (killLost d n seq g) n seq

/-- What the requester of an unreadable line does. -/
def unreadable (d : Dev) (line : Nat) : MemUser → Dev
  | .mirror => mirrorError d line
  | .source n frame row => sourceError d n frame row
  | .reference n seq frame => referenceError d n seq frame
  | .fifo n seq => mouthError d n seq
  | .stored n seq => mouthError d n seq
  | .ingest c k => d.onCtx c fun x => if x.phase = .free then x else { x with hurt := x.hurt + k }
  | .entry (some r) => match liveHead (d.recip r) with
    | some e => discardHead d r e 21
    | none => d
  | .entry none => raiseLim d 1000000 1168 3
  | .bar2 => emit d (.bytes [] true)
  | .shaftOut c => d.onChan c fun x => if x.desc.isSome then { x with poison := x.poison ++ [line] } else x
  | .scrubber => d

/-- An uncorrectable error or a tag mismatch, a class C fault. The data is not written back. -/
def uncorrectableErr (d : Dev) (m line : Nat) (tag : Bool) (user : MemUser) : Dev :=
  let d := lastErr (incErr d (rMc m oMcUe)) m line true tag
  let u := userOf d user
  let d := raiseFault d 0 (976 + 4 * m + 1) 1 m 0 (lineOrigin u.1 (if user = .scrubber then 0 else 1) line u.2)
  unreadable d line user

/-! ### Scrubber, neighbour refresh, classes (R449, R450, R452) -/

/-- The scrubber reads one line. -/
def scrub (d : Dev) (m line found : Nat) : Dev :=
  let d := incStat d (rMc m oMcScrubbed) 1 (976 + 4 * m) m oMcScrubbed
  if found = 0 then d
  else if found = 1 then correctedErr d m line
  else uncorrectableErr d m line (found == 3) .scrubber

/-- A row's count reaches RH_THRESH: the rows on each side of it are refreshed and its count becomes 0; a row that was not
tracked takes the place of the tracked row with the smallest count. -/
def resetRow (l : List (Nat × Nat)) (row : Nat) : List (Nat × Nat) :=
  if l.any fun x => x.1 == row then l.map fun x => if x.1 = row then (row, 0) else x
  else if l.length < 32 then l ++ [(row, 0)]
  else
    let least := l.foldl (fun k x => min k x.2) ((l.head?.map fun x => x.2).getD 0)
    match l.find? fun x => x.2 == least with
    | some v => l.map fun x => if x = v then (row, 0) else x
    | none => l

def neighbourRefresh (d : Dev) (m bank row : Nat) : Dev :=
  let d := { d with memc := { d.memc with rows := d.memc.rows.set [] (16 * m + bank) (resetRow (d.memc.rows.get [] (16 * m + bank)) row) } }
  let d := incStat d (rMc m oMcNrr) 1 (976 + 4 * m) m oMcNrr
  raiseLim d 1000000 (976 + 4 * m + 2) 1 m

/-- AGE_NS of a class. -/
def ageNs (d : Dev) (k : Nat) : Nat := regFld d (rClassAge k) 31 0

/-- The record of a request that has been promoted to its present class. -/
def sameRequest (m cls arrived who : Nat) (r : Nat × Nat × Nat × Nat × Nat) : Bool :=
  r.1 == m && r.2.1 == cls && r.2.2.1 == arrived && r.2.2.2.1 == who

/-- A request has waited AGE_NS in its class: it moves one class up and keeps its age. -/
def promoteRequest (d : Dev) (m cls arrived who : Nat) : Dev :=
  if cls = 0 then d
  else
    let since := match d.memc.promoted.find? (sameRequest m cls arrived who) with
      | some r => r.2.2.2.2
      | none => arrived
    let d := advance d (since + ageNs d cls)
    let l := (d.memc.promoted.filter fun r => !sameRequest m cls arrived who r) ++ [(m, cls - 1, arrived, who, d.now)]
    { d with memc := { d.memc with promoted := l } }

/-! ### Commands -/

/-- CORRECTED (R447): the corrected line is written back unless it has been written since, so memory stays as it is. -/
def execCorrected (m : Fin 32) (line : Nat) (_rewritten : Bool) (s : State) : Host.Outcome State Fault Refusal :=
  ok (if alive s.dev then s.onDev fun d => correctedErr d m line else s)

/-- UNCORRECTED (R448). -/
def execUncorrected (m : Fin 32) (line : Nat) (tag : Bool) (user : MemUser) (s : State) : Host.Outcome State Fault Refusal :=
  ok (if alive s.dev then keepRecords (onFifos fun d => uncorrectableErr d m line tag user) s else s)

/-- SCRUB_LINE (R449). -/
def execScrubLine (m : Fin 32) (line : Nat) (found : Fin 4) (s : State) : Host.Outcome State Fault Refusal :=
  ok (if alive s.dev then s.onDev fun d => scrub d m line found else s)

/-- NEIGHBOUR (R450). -/
def execNeighbour (m : Fin 32) (bank : Fin 16) (row : Nat) (s : State) : Host.Outcome State Fault Refusal :=
  ok (if alive s.dev then s.onDev fun d => neighbourRefresh d m bank row else s)

/-- REFRESH_WINDOW (R450): every table of tracked rows is cleared. -/
def execRefreshWindow (s : State) : Host.Outcome State Fault Refusal :=
  ok (if alive s.dev then s.onDev fun d => { d with memc := { d.memc with rows := [] } } else s)

/-- AGE_PROMOTION (R452). -/
def execAgePromotion (m : Fin 32) (cls : Fin 4) (arrived : Nat) (who : Master) (s : State) : Host.Outcome State Fault Refusal :=
  ok (if alive s.dev then s.onDev fun d => promoteRequest d m cls arrived who else s)

end Sys2Proof.Machine
end

