-- ==== Sys2Proof/Machine/Pcie.lean ====
section
/-! DEFINITION. The PCIe side: error completions, timeouts, the memory window, function level reset, the link, and the
enabling of rings (R21, R377, R378, R381, R404, R408, R412 to R414, R438, R502, R512). -/

namespace Sys2Proof.Machine

/-! ### Rings in and out of service (R378, R381) -/

/-- BASE and SIZE of a ring are valid. -/
def ringGeometryOk (base size : Word) : Bool :=
  base.toNat % 4096 == 0 && isPow2 (fld size 16 0) && inRange (fld size 16 0) 64 65536

/-- The rings of function f leave service: replies of packets taken are discarded, untaken packets are dropped. -/
def ringOff (d : Dev) (f : Nat) : Dev :=
  let d := setRegBit d (rRing f oRingCtrl) 63 false
  { d with
    rings := d.rings.map fun o => if o.fn = f then { o with dropped := true } else o
    submitted := d.submitted.filter fun p => p.fn != f }

/-- The rings of function f enter service, or are refused with CAUSE 0x03. -/
def ringOn (d : Dev) (f : Nat) : Dev :=
  let a := fun o => rRing f o
  if ringGeometryOk (reg d (a oSqBase)) (reg d (a oSqSize)) && ringGeometryOk (reg d (a oCqBase)) (reg d (a oCqSize)) then
    let d := setReg (setReg (setReg d (a oSqHead) 0) (a oSqTail) 0) (a oCqHead) 0
    let d := setRegBit (setReg d (a oCqTail) (word (2 ^ 63))) (a oRingStatus) 63 false
    setRegBit d (a oRingCtrl) 63 true
  else setRegFld d (a oRingStatus) 55 48 3

/-- A write of `RING_CTRL`. -/
def writeRingCtrl (d : Dev) (f : Nat) (v : Word) : Dev :=
  let d := setRegBit d (rRing f oRingCtrl) 62 (bit v 62)
  if !bit v 63 then (if ringEnabled d f then ringOff d f else d)
  else if ringEnabled d f then d
  else ringOn d f

/-- A read of submission slots fails: the ring halts. -/
def haltRing (d : Dev) (f cause : Nat) : Dev :=
  if !ringEnabled d f || ringHalted d f then d
  else raise (setRegFld (setRegBit d (rRing f oRingStatus) 63 true) (rRing f oRingStatus) 55 48 cause) 1136 2 f

/-! ### Requests of the device (R381, R413, R414, R426, R427) -/

/-- An error completion: UR, CA or poison. -/
def errorCompletion (s : State) (r : HostRequest) : State :=
  match r with
  | .slots fn => s.onDev fun d => haltRing d fn 1
  | .shaft c tail =>
    if tail && (s.dev.chan c).desc.isSome then tailError s c else s.onDev fun d => hostFailure d c 3 4 3

/-- A request is not answered within CTO_US. -/
def requestTimeout (s : State) (r : HostRequest) : State :=
  s.onDev fun d =>
    match r with
    | .slots fn => haltRing d fn 2
    | .shaft c _ => hostFailure d c 2 3 2

/-- Upper end in µs of the range that a Completion Timeout Value chooses, clipped to 64,000; the ranges are those of the
PCI Express base specification (PRESUMED, notes/assumptions/9.md); the other codes are reserved there. -/
def timeoutRange (code : Nat) : Option Nat :=
  match code with
  | 0 => some 50000
  | 1 => some 100
  | 2 => some 10000
  | 5 => some 55000
  | 6 => some 64000
  | 9 => some 64000
  | 10 => some 64000
  | 13 => some 64000
  | 14 => some 64000
  | _ => none

/-! ### The memory window (R408, R412) -/

/-- Size of BAR2 in bytes (R406, R408). -/
def bar2Size (d : Dev) : Nat := d.pcie.bar2GiB * 2 ^ 30

/-- An access of the PF through BAR2: denied reads return zero, denied writes are discarded (R439). -/
def bar2Access (s : State) (off : Nat) (bytes : Option (List Byte)) (len : Nat) : State :=
  let a := (reg s.dev rPcieBar2Offset).toNat + off
  match bytes with
  | some bs =>
    if memGranted s.dev 0 a bs.length true then busStore s a bs
    else s.onDev fun d => deny d 0 1 (deniedWindow d 0 a bs.length true) 1 a none
  | none =>
    if memGranted s.dev 0 a len false then s.onDev fun d => emit d (.bytes ((List.range len).map fun i => busByte s (a + i)) false)
    else s.onDev fun d => emit (deny d 0 0 (deniedWindow d 0 a len false) 1 a none) (.bytes (List.replicate len 0) false)

/-! ### Function level reset (R21, R404, R438, R471) -/

/-- Every chain that function f owns is abandoned CLOSED; its queued chains are discarded. -/
def closeChainsOf (d : Dev) (f : Nat) : Dev :=
  each d.chans d fun d e =>
    let d := match (d.chan e.1).chain with
      | some h => if h.owner = f then endChain d e.1 6 else d
      | none => d
    d.onChan e.1 fun x => { x with queue := x.queue.filter fun q => q.2 != f }

/-- Every stream and context that VF f owns returns to the PF, which receives an event for each. -/
def returnOwned (d : Dev) (f : Nat) : Dev :=
  let ns := (List.range 192).filter fun n => d.streamOwner n == f
  let cs := (List.range 96).filter fun c => d.ctxOwner c == f
  let d := each ns d fun d n => raise (assign d false n 0) (4 * n + 1) 0x0A 0 f
  each cs d fun d c => raise (assign d true c 0) 1247 5 c f

/-- The event queue of function f leaves service and its fast slots are free. -/
def queueOff (d : Dev) (f : Nat) : Dev := setReg (setRegBit d (rEq f oEqCtrl) 63 false) (rEq f oFastPend) 0

/-- Function level reset of function f: its rings and event queue leave service, its chains are abandoned CLOSED (R426), and what a VF
owned returns to the PF. -/
def functionReset (d : Dev) (f : Nat) : Dev :=
  let d := queueOff (ringOff d f) f
  let d := closeChainsOf d f
  if f = 0 then d else returnOwned d f

/-! ### The link (R502, R512) -/

/-- The link has trained; its first time after a boot runs the boot pair of the PCIe block. -/
def linkTrained (d : Dev) (width speed : Nat) (flit : Bool) : Dev :=
  let d := setReg d rPcieLink (word (width % 256 * 2 ^ 56 + speed % 256 * 2 ^ 48 + flit.toNat * 2 ^ 47))
  let first := !d.pwr.linkSeen
  let d := { d with pwr := { d.pwr with linkUp := true, linkSeen := true } }
  if first then d.setCal 34 { stage := 2 } else d

/-! ### Commands -/

/-- RING_ENABLE (R378). -/
def execRingEnable (m : Master) (f : Fin 193) (v : Word) (s : State) : Host.Outcome State Fault Refusal :=
  ok (barGate s m (rRing f.val oRingCtrl) true fun s => s.onDev fun d => writeRingCtrl d f.val v)

/-- ERROR_COMPLETION (R414). -/
def execErrorCompletion (r : HostRequest) (s : State) : Host.Outcome State Fault Refusal :=
  ok (if alive s.dev then errorCompletion s r else s)

/-- COMPLETION_TIMEOUT (R413). -/
def execCompletionTimeout (r : HostRequest) (s : State) : Host.Outcome State Fault Refusal :=
  ok (if alive s.dev then requestTimeout s r else s)

/-- COMPLETION_TIMEOUT_VALUE (R413). -/
def execCompletionTimeoutValue (code : Fin 16) (s : State) : Host.Outcome State Fault Refusal :=
  ok (match if alive s.dev then timeoutRange code.val else none with
    | some us => s.onDev fun d => setRegFld d rPcieCtrl 31 0 us
    | none => s)

/-- LATE_COMPLETION (R414): discarded and counted. -/
def execLateCompletion (s : State) : Host.Outcome State Fault Refusal :=
  ok (if alive s.dev then s.onDev fun d => incErr d rPcieLateCpl else s)

/-- BAR2_ACCESS (R412). -/
def execBar2Access (off : Nat) (bytes : Option (List Byte)) (len : Nat) (s : State) : Host.Outcome State Fault Refusal :=
  ok (if alive s.dev && decide (off + len ≤ bar2Size s.dev) then bar2Access s off bytes len else s)

/-- FUNCTION_LEVEL_RESET (R404). -/
def execFunctionLevelReset (f : Fin 193) (s : State) : Host.Outcome State Fault Refusal :=
  ok (if alive s.dev then s.onDev fun d => functionReset d f.val else s)

/-- PCIE_LINK_DOWN (R502): nothing is reset. -/
def execPcieLinkDown (s : State) : Host.Outcome State Fault Refusal :=
  ok (if alive s.dev then s.onDev fun d => { setReg d rPcieLink 0 with pwr := { d.pwr with linkUp := false } } else s)

/-- PCIE_LINK_UP (R512). -/
def execPcieLinkUp (width speed : Nat) (flit : Bool) (s : State) : Host.Outcome State Fault Refusal :=
  ok (if alive s.dev then s.onDev fun d => linkTrained d width speed flit else s)

end Sys2Proof.Machine
end

