-- ==== Sys2Proof/Machine/EventQueues.lean ====
section
/-! DEFINITION. The registers of an event-queue page: enabling, head, completion, fast bank, coalescing time
(R465 to R467, R471). -/

namespace Sys2Proof.Machine

/-- Vector 0 is due by COAL_COUNT. -/
def countDue (d : Dev) (f : Nat) : Dev :=
  if (d.eqx f).since ≠ 0 ∧ regFld d (rEq f oEqCtrl) 47 32 ≤ (d.eqx f).since then sendVector0 d f else d

/-- A write of 1 to ENABLE while it is 0. -/
def queueOn (d : Dev) (f : Nat) : Dev :=
  let n := regFld d (rEq f oEqSize) 16 0
  if (reg d (rEq f oEqBase)).toNat % 4096 = 0 ∧ isPow2 n ∧ inRange n 256 65536 then
    let d := setReg (setReg d (rEq f oEqHead) 0) (rEq f oEqTail) (word (2 ^ 63))
    let d := setRegBit (setRegBit d (rEq f oEqStatus) 63 false) (rEq f oEqCtrl) 63 true
    d.setEqx f { d.eqx f with since := 0 }
  else setRegBit d (rEq f oEqStatus) 63 true

/-- A write of `EQ_CTRL`; one with COAL_COUNT or COAL_US of 0 is ignored as a whole. -/
def writeEqCtrl (d : Dev) (f : Nat) (v : Word) : Dev :=
  if fld v 47 32 = 0 ∨ fld v 15 0 = 0 then d
  else
    let d := setRegFld (setRegFld d (rEq f oEqCtrl) 47 32 (fld v 47 32)) (rEq f oEqCtrl) 15 0 (fld v 15 0)
    let on := regBit d (rEq f oEqCtrl) 63
    let d := if !bit v 63 then setRegBit d (rEq f oEqCtrl) 63 false else if on then d else queueOn d f
    countDue d f

/-- A write of `EQ_HEAD`: one that leaves records unread restarts both conditions of R466, with those records counted as
written now. -/
def writeEqHead (d : Dev) (f : Nat) (v : Word) : Dev :=
  let d := setReg d (rEq f oEqHead) (word (fld v 15 0))
  let n := eqUnread d f
  if n = 0 then d else countDue (d.setEqx f { d.eqx f with since := n, firstAt := d.now }) f

/-- A W1C write of `FAST_PEND`. -/
def writeFastPend (d : Dev) (f : Nat) (v : Word) : Dev :=
  each (List.range 16) d fun d k => if bit v k then setRegBit d (rEq f oFastPend) k false else d

/-- COAL_US has passed since the first record after the last sending. -/
def coalDue (d : Dev) (f : Nat) : Dev :=
  let x := d.eqx f
  if x.since = 0 then d else sendVector0 (advance d (x.firstAt + regFld d (rEq f oEqCtrl) 15 0 * 1000)) f

/-- EQ_ENABLE (R471). -/
def execEqEnable (m : Master) (f : Fin 193) (v : Word) (s : State) : Host.Outcome State Fault Refusal :=
  ok (barGate s m (rEq f.val oEqCtrl) true fun s => s.onDev fun d => writeEqCtrl d f.val v)

/-- EQ_HEAD (R466). -/
def execEqHead (m : Master) (f : Fin 193) (v : Word) (s : State) : Host.Outcome State Fault Refusal :=
  ok (barGate s m (rEq f.val oEqHead) true fun s => s.onDev fun d => writeEqHead d f.val v)

/-- EQ_CPL (R465). -/
def execEqCpl (m : Master) (f : Fin 193) (v : Word) (s : State) : Host.Outcome State Fault Refusal :=
  ok (barGate s m (rEq f.val oEqCpl) true fun s => s.onDev fun d => complete d f.val (fld v 10 0))

/-- FAST_PEND (R467). -/
def execFastPend (m : Master) (f : Fin 193) (v : Word) (s : State) : Host.Outcome State Fault Refusal :=
  ok (barGate s m (rEq f.val oFastPend) true fun s => s.onDev fun d => writeFastPend d f.val v)

/-- COAL_US_EXPIRY (R466). -/
def execCoalUsExpiry (f : Fin 193) (s : State) : Host.Outcome State Fault Refusal :=
  ok (if alive s.dev then s.onDev fun d => coalDue d f.val else s)

end Sys2Proof.Machine
end

