-- ==== Sys2Proof/Machine/Ohmold.lean ====
section
/-! DEFINITION. The Guide's command intake: the command of an opcode (R386), packets read from a ring (R375, R376), MCTP
messages (R400, R401), and the happenings after which held packets are taken (R380, R397, R398, R402, R403). -/

namespace Sys2Proof.Machine

/-! ### The command of an opcode (R386) -/

def runDevice (s : State) (p : Pkt) : State × Answer :=
  match p.opcode % 256 with
  | 0x00 => opDeviceNop s p
  | 0x01 => opDeviceQuery s p
  | 0x02 => opDeviceIdentity s p
  | 0x03 => opDeviceReset s p
  | 0x04 => opDevicePower s p
  | 0x05 => opDeviceClearFault s p
  | _ => refuse s p stBadOpcode

def runStream (s : State) (p : Pkt) : State × Answer :=
  match p.opcode % 256 with
  | 0x01 => opStreamOpen s p
  | 0x02 => opStreamClose s p
  | 0x03 => opStreamQuery s p
  | 0x04 => opStreamAssign s p
  | 0x05 => opStreamClear s p
  | _ => refuse s p stBadOpcode

def runRaster (s : State) (p : Pkt) : State × Answer :=
  match p.opcode % 256 with
  | 0x01 => opRasterConfig s p
  | 0x02 => opRasterQuery s p
  | 0x03 => opRasterClear s p
  | _ => refuse s p stBadOpcode

def runRate (s : State) (p : Pkt) : State × Answer :=
  match p.opcode % 256 with
  | 0x01 => opRateSet s p
  | 0x02 => opRateTarget s p
  | 0x03 => opRateLimits s p
  | 0x04 => opRateRoi s p
  | 0x05 => opRateMap s p
  | 0x06 => opRateReport s p
  | 0x07 => opRateQuery s p
  | 0x08 => opRateClear s p
  | _ => refuse s p stBadOpcode

def runRef (s : State) (p : Pkt) : State × Answer :=
  match p.opcode % 256 with
  | 0x01 => opRefConfig s p
  | 0x02 => opRefKey s p
  | 0x03 => opRefRefresh s p
  | 0x04 => opRefAck s p
  | 0x05 => opRefLoss s p
  | 0x06 => opRefQuery s p
  | 0x07 => opRefClear s p
  | _ => refuse s p stBadOpcode

def runRecip (s : State) (p : Pkt) : State × Answer :=
  match p.opcode % 256 with
  | 0x01 => opRecipAdd s p
  | 0x02 => opRecipRemove s p
  | 0x03 => opRecipModify s p
  | 0x04 => opRecipQuery s p
  | 0x05 => opRecipClear s p
  | 0x06 => opRecipFlush s p
  | 0x20 => opQueueBind s p
  | 0x21 => opQueueUnbind s p
  | 0x22 => opQueueMirror s p
  | 0x23 => opQueueStream s p
  | _ => refuse s p stBadOpcode

def runKey (s : State) (p : Pkt) : State × Answer :=
  match p.opcode % 256 with
  | 0x01 => opKeyKek s p
  | 0x02 => opKeyLoad s p
  | 0x03 => opKeyRoll s p
  | 0x04 => opKeyErase s p
  | 0x05 => opKeyQuery s p
  | 0x10 => opVeinConfig s p
  | 0x11 => opVeinRecord s p
  | 0x12 => opVeinQuery s p
  | _ => refuse s p stBadOpcode

def runFleet (s : State) (p : Pkt) : State × Answer :=
  match p.opcode % 256 with
  | 0x01 => opFleetStage s p
  | 0x02 => opFleetActivate s p
  | 0x03 => opFleetQuery s p
  | 0x04 => opFleetCancel s p
  | _ => refuse s p stBadOpcode

def runDiag (s : State) (p : Pkt) : State × Answer :=
  match p.opcode % 256 with
  | 0x01 => opDiagRetire s p
  | 0x02 => opDiagInject s p
  | 0x03 => opDiagFaultrec s p
  | _ => refuse s p stBadOpcode

def runDecode (s : State) (p : Pkt) : State × Answer :=
  match p.opcode % 256 with
  | 0x01 => opDecodeOpen s p
  | 0x02 => opDecodeClose s p
  | 0x03 => opDecodeRelease s p
  | 0x04 => opDecodeResync s p
  | 0x05 => opDecodeQuery s p
  | 0x06 => opDecodeClear s p
  | _ => refuse s p stBadOpcode

/-- The command that an opcode names; an opcode outside R386 is refused with BAD_OPCODE. -/
def runOp (s : State) (p : Pkt) : State × Answer :=
  match p.opcode / 256 with
  | 0x01 => runDevice s p
  | 0x02 => runStream s p
  | 0x03 => runRaster s p
  | 0x04 => runRate s p
  | 0x05 => runRef s p
  | 0x06 => runRecip s p
  | 0x07 => runKey s p
  | 0x08 => runFleet s p
  | 0x09 => runDiag s p
  | 0x0A => runDecode s p
  | _ => refuse s p stBadOpcode

/-- The Guide takes every held packet that it may take. -/
def drain (s : State) : State := drainWith (takeRun runOp) s.dev.submitted.length s

/-! ### The submission ring (R375, R376) -/

/-- The packets that slots hold, in ring order: a packet is there only when all of its slots are. -/
def parseSlots (fuel fn : Nat) (ws : List Word) : List Pkt :=
  match fuel, ws with
  | k + 1, hdr :: rest =>
    let c := fld hdr 47 43
    let n := 8 * ceilDiv (1 + c) 8
    if (hdr :: rest).length < n then []
    else { fn := fn, hdr := hdr, ps := rest.take c, kek := Config.ecdhSecret (rest.take c) } :: parseSlots k fn ((hdr :: rest).drop n)
  | _, _ => []

/-- A write of `RING_SQ_TAIL`: `slots` are the words of the ring from HEAD on. The packets that wait are those before the
new tail. -/
def writeTail (s : State) (f : Nat) (v : Word) (slots : List Word) : State :=
  let s := s.onDev fun d => setReg d (rRing f oSqTail) (word (fld v 15 0))
  if !ringEnabled s.dev f then s
  else
    let n := max 1 (regFld s.dev (rRing f oSqSize) 16 0)
    let avail := (fld v 15 0 % n + n - regFld s.dev (rRing f oSqHead) 15 0 % n) % n
    let ps := parseSlots avail f (slots.take (8 * avail))
    drain (s.onDev fun d => { d with submitted := (d.submitted.filter fun p => p.fn != f) ++ ps })

/-- A write of `RING_CQ_HEAD` may make room for held packets (R380). -/
def writeCqHead (s : State) (f : Nat) (v : Word) : State :=
  drain (s.onDev fun d => setReg d (rRing f oCqHead) (word (fld v 15 0)))

/-! ### MCTP (R400, R401) -/

/-- The words that bytes spell, each most significant byte first; bytes that fill no word are left out. -/
def wordsBE (fuel : Nat) (bs : List Byte) : List Word :=
  match fuel with
  | 0 => []
  | k + 1 => if bs.length < 8 then [] else word (natBE (bs.take 8)) :: wordsBE k (bs.drop 8)

/-- The body of a message of type 0x7E with the Vendor ID of the PF: a command of KIND 0x01, header word first with as many parameter words as its COUNT, or
a boot image block of KIND 0x03, whose offset stands most significant byte first (R400). Anything else is no message of the device. -/
def readMctp (bytes : List Byte) (last : Bool) : MctpBody :=
  match bytes with
  | ty :: v1 :: v0 :: kind :: z1 :: z2 :: z3 :: rest =>
    if ty ≠ 0x7E ∨ [v1, v0] ≠ natBytesBE 2 Config.vendorId ∨ [z1, z2, z3] ≠ [0, 0, 0] then .other
    else if kind = 1 then
      (match wordsBE rest.length rest with
      | hdr :: ps => if rest.length % 8 = 0 ∧ ps.length = fld hdr 47 43 then .command hdr ps else .other
      | [] => .other)
    else if kind = 3 ∧ inRange rest.length 5 1028 then .imageBlock (natBE (rest.take 4)) (rest.drop 4) last
    else .other
  | _ => .other

/-- What the device does with a message body. -/
def mctpBody (s : State) (tag : Nat) : MctpBody → State
  | .command hdr ps => submitMctp runOp { fn := 0xFE, hdr := hdr, ps := ps, tag := some tag } s
  | .imageBlock off bytes last => s.onDev fun d => imageBlock d off bytes last
  | .other => s
  | .message _ _ => s

/-- An MCTP message: nothing while Roost is not running. -/
def mctpMessage (s : State) (tag : Nat) (body : MctpBody) : State :=
  if !s.dev.roost.up then s
  else mctpBody s tag (match body with
    | .message bytes last => readMctp bytes last
    | b => b)

/-! ### Commands -/

/-- RING_SQ_TAIL (R376). -/
def execRingSqTail (m : Master) (f : Fin 193) (v : Word) (slots : List Word) (s : State) : Host.Outcome State Fault Refusal :=
  ok (barGate s m (rRing f.val oSqTail) true fun s => writeTail s f.val v slots)

/-- MCTP_MESSAGE (R400). -/
def execMctpMessage (tag : Fin 8) (body : MctpBody) (s : State) : Host.Outcome State Fault Refusal :=
  ok (mctpMessage s tag.val body)

/-- STREAM_SETUP_DONE (R37, R38). -/
def execStreamSetupDone (n : Fin 192) (s : State) : Host.Outcome State Fault Refusal :=
  ok (if working s.dev then drain (s.onDev fun d => setupDone d n.val) else s)

/-- STREAM_CLOSE_DONE (R34). -/
def execStreamCloseDone (n : Fin 192) (s : State) : Host.Outcome State Fault Refusal :=
  ok (if working s.dev then drain (keepRecords (·.onDev fun d => closeDone d n.val) s) else s)

/-- DECODE_CLOSE_DONE (R224). -/
def execDecodeCloseDone (c : Fin 96) (s : State) : Host.Outcome State Fault Refusal :=
  ok (if working s.dev then drain (s.onDev fun d => ctxCloseDone d c.val) else s)

/-- FAILOVER (R239): commands that waited for the move are taken after it (R403). -/
def execFailover (s : State) : Host.Outcome State Fault Refusal :=
  ok (if working s.dev then drain (keepRecords (·.onDev failover) s) else s)

/-- TAKEOVER_COMPLETE (R254): command intake resumes. -/
def execTakeoverComplete (s : State) : Host.Outcome State Fault Refusal :=
  ok (if alive s.dev then drain (keepRecords (·.onDev takeoverEnd) s) else s)

end Sys2Proof.Machine
end

