-- ==== Sys2Proof/Machine/Bus.lean ====
section
/-! DEFINITION. Accesses to BAR0: what a read returns and clears, what a write does at every address, shadows, locks,
counter clear registers and the indirect window (R370, R433, R436, R470 to R472, R539 to R555). -/

namespace Sys2Proof.Machine

/-! ### Counter clear registers (R472, R551) -/

/-- Bits of `GAL_CNT_CLR` and the counters of Gallery g that they clear. -/
def galClears (g : Nat) : List (Nat × Nat) :=
  [(0, rGal g oFifoDrops), (1, rGal g oFifoTmoCnt), (2, rGal g oUcRestarts), (3, rGal g oSramCe), (4, rGal g oSramUe), (8, rGal g oEchoFails)]
    ++ (List.range 8).flatMap fun k => [(16 + 3 * k, rGal g (oHintStale k)), (17 + 3 * k, rGal g (oHintBad k)), (18 + 3 * k, rGal g (oSbCap k))]

/-- The bits of the counter clear register at an address, each with the counter it clears; none: no such register. -/
def clearBits (a : Nat) : Option (List (Nat × Nat)) :=
  if a = rGlbCntClr then some [(0, rGlbNarrow)]
  else if a = rSecCntClr then some [(0, rSecLockedWrites)]
  else if 0x100000 ≤ a ∧ a < 0x2A0000 ∧ a % 0x10000 = oGalCntClr then some (galClears ((a - 0x100000) / 0x10000))
  else if 0x400000 ≤ a ∧ a < 0x4C0000 ∧ a % 0x1000 = oLanCntClr then some (lanClears ((a - 0x400000) / 0x1000))
  else if a = 0x500720 then some [(0, rPortPunts 0), (1, rPortEvicts 0), (2, rPortPunts 1), (3, rPortEvicts 1)]
  else if 0x510000 ≤ a ∧ a < 0x51C000 ∧ a % 0x100 = 0x50 then
    let n := (a - 0x510000) / 0x100
    some [(0, rMs n oMsKills), (1, rMs n oMsGaps), (2, rMs n oMsStale), (3, rMs n oMsNorec)]
  else if a = 0x600318 then some [(0, rLeaks), (1, rExhausted)]
  else if 0x650000 ≤ a ∧ a < 0x662000 ∧ a % 0x100 = 0x70 then
    some ((List.range 8).map fun k => (k, rCh ((a - 0x650000) / 0x100) (oChErr k)))
  else if 0x690000 ≤ a ∧ a < 0x692000 ∧ a % 0x100 = 0x30 then
    some [(0, rMc ((a - 0x690000) / 0x100) oMcCe), (1, rMc ((a - 0x690000) / 0x100) oMcUe)]
  else if 0x708000 ≤ a ∧ a < 0x738400 ∧ (a - 0x708000) % 0x400 = oEqCntClr then
    let f := (a - 0x708000) / 0x400
    some [(0, rEq f oEqLost), (1, rEq f oEqSpurious), (2, rEq f oEqFastOvf)]
  else if a = rFltCntClr then some ((List.range 4).map (fun k => (k, rFltCount k)) ++ [(4, rRecDropped)])
  else if a = rAccCntClr then some [(0, rAccDenied)]
  else if a = rPwrCntClr then some [(0, rPwrWarns)]
  else if a = rCalCntClr then some ((List.range 36).map fun b => (b, rCal b 0x18))
  else none

/-- A write to a counter clear register; other addresses are no such register. -/
def counterClear (d : Dev) (a : Nat) (v : Word) : Dev :=
  match clearBits a with
  | some l => clrErrs d v l
  | none => d

/-! ### Locks (R370, R548) -/

/-- The lock of a register is set. -/
def lockSetAt (d : Dev) (a : Nat) (k : LockKind) : Bool :=
  match k with
  | .none => false
  | .memMap => regBit d rSecLocks 63
  | .access => regBit d rSecLocks 62
  | .keyPolicy => regBit d rSecLocks 61
  | .patch => regBit d (rGal ((a - 0x100000) / 0x10000) oUcCtrl) 62

/-- A write to a guarded field while its lock is set: counted and raised (R370). -/
def lockedWrite (d : Dev) (m a : Nat) : Dev :=
  raiseFault (incErr d rSecLockedWrites) 0 1267 1 0 0 { master := m, access := 2, space := 2, addr := a, stream := barStream a }

/-- A register is the control register of a Gallery's microcode, which holds its PATCH_LOCK. -/
def isUcCtrl (a : Nat) : Bool := decide (0x100000 ≤ a) && decide (a < 0x2A0000) && a % 0x10000 == oUcCtrl

/-- Writing 1 to a lock bit sets it; writing 0 is ignored. -/
def setLocks (d : Dev) (a : Nat) (v : Word) : Dev :=
  if a = rSecLocks then setReg d a (reg d a ||| (v &&& ones 63 61))
  else if isUcCtrl a && bit v 62 then setRegBit d a 62 true
  else d

/-- The guarded fields of a write reach the register, or the write is counted. A register that holds guarded fields alone
counts every write under its lock; one that holds others too counts a write that would change a guarded field (DEDUCED,
notes/assumptions/28.md). -/
def guardedWrite (d : Dev) (m a : Nat) (i : RegInfo) (old v : Word) : Dev × Bool :=
  let locked := lockSetAt d a i.lock || (isUcCtrl a && bit v 62)
  if i.rl == 0 || !locked then (d, false)
  else if i.rw == 0 || v &&& i.rl != old &&& i.rl then (lockedWrite d m a, true)
  else (d, true)

/-! ### Writes (R541 to R543, R547) -/

/-- Sources are configured by the PF and the Guides only (R470). -/
def mayConfigure (m a : Nat) : Bool := !isSrcCfg a || m == 0 || isGuide m

/-- A write to a shadowed register goes into its shadow, which is then pending. -/
def shadowWrite (d : Dev) (m a : Nat) (v : Word) : Dev :=
  match (regAt a).2 with
  | none => d
  | some i =>
    if !i.shadow || !mayConfigure m a then d
    else
      let g := guardedWrite d m a i ((d.shadow.get none a).getD (reg d a)) v
      if g.2 && i.rw == 0 then g.1 else { g.1 with shadow := g.1.shadow.set none a (some (shadowValue g.1 a i g.2 v)) }

/-- A register without a behaviour of its own takes its writable fields, unless a value breaks a stated limit. -/
def plainWrite (d : Dev) (m a : Nat) (i : RegInfo) (v : Word) : Dev :=
  let old := reg d a
  let g := guardedWrite d m a i old v
  let mask := if g.2 then i.rw else i.rw ||| i.rl
  if !plainOk d a v then g.1 else setReg g.1 a ((v &&& mask) ||| (old &&& ~~~mask))

/-- A write of `GAL_UC_CTRL`: PATCH_LOCK stays 1 once it is set. -/
def writeUcCtrl (d : Dev) (m a : Nat) (i : RegInfo) (v : Word) : Dev :=
  let held := regBit d a 62
  setRegBit (plainWrite d m a i v) a 62 (held || bit v 62)

/-- A write of an access table word (R433). -/
def writeAccess (d : Dev) (m a : Nat) (v : Word) : Dev :=
  if accessLocked d then lockedWrite d m a else { d with acc := d.acc.set none a (some v) }

/-- A write of a host-side ring index of Mouth; the state source of the ring follows (R308, R311). -/
def writeMouthRing (d : Dev) (m a : Nat) (i : RegInfo) (v : Word) : Dev :=
  let s := if a < 0x500520 then 1169 else 1171
  if a < 0x500540 then edge (plainWrite d m a i v) s (srcState d s) else plainWrite d m a i v

/-- A write of a register of an event-queue page. -/
def writeEq (d : Dev) (m a : Nat) (i : RegInfo) (v : Word) : Dev :=
  let f := (a - 0x708000) / 0x400
  let o := (a - 0x708000) % 0x400
  if o = oEqHead then writeEqHead d f v
  else if o = oEqCtrl then writeEqCtrl d f v
  else if o = oEqCpl then complete d f (fld v 10 0)
  else if o = oFastPend then writeFastPend d f v
  else if (o = oEqBase ∨ o = oEqSize) ∧ regBit d (rEq f oEqCtrl) 63 then d
  else plainWrite d m a i v

/-- A write of a register of a ring page; packets of a doorbell come with their own row, so a plain write of the tail
moves TAIL alone. -/
def writeRing (s : State) (m a : Nat) (i : RegInfo) (v : Word) : State :=
  let f := (a - 0x800000) / 0x1000
  let o := a % 0x1000
  if o = oCqHead then writeCqHead s f v
  else if o = oRingCtrl then s.onDev fun d => writeRingCtrl d f v
  else if (o = oSqBase ∨ o = oSqSize ∨ o = oCqBase ∨ o = oCqSize) ∧ ringEnabled s.dev f then s
  else s.onDev fun d => plainWrite d m a i v

/-- A write of a register of the faults block (R482, R485, R486). -/
def writeFlt (d : Dev) (m a : Nat) (i : RegInfo) (v : Word) : Dev :=
  if a = rFltCtrl then fltCtrl d v
  else if a = rFltHeartbeat then heartbeat d m
  else if i.w1c != 0 then (if bit v 63 then freeCapture d ((a - 0x740100) / 0x20) else d)
  else plainWrite d m a i v

/-- A write of `GAL_FIFO_CTRL`: TMO_US, and FLUSH (R103, R105). -/
def writeFifoCtrl (s : State) (a : Nat) (v : Word) : State :=
  let g := (a - 0x100000) / 0x10000
  restartMet (keepRecords (onFifo g fun d => let d := setRegFld d a 31 0 (fld v 31 0); if bit v 32 then flushGal d g else d) s)

/-! ### The indirect window (R552 to R556) -/

/-- Units of a space and words of a unit. -/
def indUnits (space : Nat) : Nat := [0, 1, 32, 4, 16].getD space 0
def indWords (space : Nat) : Nat := [0, 4096, 512, 1024, 1024].getD space 0

def indKey (space unit w : Nat) : Nat := space * 2 ^ 32 + unit * 2 ^ 24 + w

/-- The addressed word lies in the space. -/
def indOk (space unit w : Nat) : Bool := decide (unit < indUnits space) && decide (w < indWords space)

/-- A word of the indirect space: the defined fuse words, what has been written, else an implementation value. -/
def indWord (s : State) (space unit w : Nat) : Word :=
  if space = 1 ∧ w = 0 then word (0x0192B1 * 2 ^ 40)
  else if space = 1 ∧ w = 33 then word (s.nv.svnMin % 65536)
  else
    let g := match unitBlock space unit with
      | some b => s.dev.indGen.get 0 b
      | none => 0
    (s.dev.ind.get none (indKey space unit w)).getD (Config.indirectWord g space unit w)

/-- ERR is set by an access that R555 refuses. -/
def indErr (d : Dev) : Dev := setRegBit d rIndStatus 62 true

/-- WORD rises by 1 after an access while AUTOINC is set; the Guides' accesses never move it, nor do reads over SMBus. -/
def indStep (d : Dev) (m : Nat) (read : Bool) : Dev :=
  if !regBit d rIndAddr 47 || isGuide m || (read && m == 0xFE) then d
  else setRegFld d rIndAddr 23 0 (regFld d rIndAddr 23 0 + 1)

/-- A read of `IND_DATA`. -/
def indRead (s : State) (m : Nat) : Word × State :=
  let a := reg s.dev rIndAddr
  let sp := fld a 63 56
  let u := fld a 55 48
  let w := fld a 23 0
  if indOk sp u w then (indWord s sp u w, s.onDev fun d => indStep d m true)
  else (0, s.onDev fun d => indStep (indErr d) m true)

/-- A write of `IND_DATA`: applied in its own clock, so that BUSY is clear again after it. -/
def indWrite (d : Dev) (m : Nat) (v : Word) : Dev :=
  let a := reg d rIndAddr
  let sp := fld a 63 56
  let u := fld a 55 48
  let w := fld a 23 0
  if indOk sp u w && decide (2 ≤ sp) && (isGuide m || m == 0xFF) then
    indStep { d with ind := d.ind.set none (indKey sp u w) (some v) } m false
  else indStep (indErr d) m false

/-! ### A write at any address -/

/-- A 64-bit write that its access table grants, at an address that is a multiple of 8. -/
def writeReg (s : State) (m a : Nat) (v : Word) : State :=
  if 0x1000 ≤ a ∧ a < 0x100000 then (if isGuide m || m == 0xFF then s.onDev fun d => setReg d a v else s)
  else match (regAt a).2 with
  | none => s
  | some i =>
    if (clearBits a).isSome then s.onDev fun d => counterClear d a v
    else if a = rSecLocks then s.onDev fun d => setLocks d a v
    else if a = rBootImage then s.onDev fun d => bootImage d v
    else if a = rCfgCommit then
      (if bit v 63 then captureShadows s fun _ => true else captureShadows s fun b => inGroup s.dev (fld v 3 0) b).1
    else if a = rRecipCmd then recipCmdWrite s m v
    else if a = rIndData then s.onDev fun d => indWrite d m v
    else if isUcCtrl a then s.onDev fun d => writeUcCtrl d m a i v
    else if 0x100000 ≤ a ∧ a < 0x2A0000 ∧ a % 0x10000 = oFifoCtrl then writeFifoCtrl s a v
    else if 0x400000 ≤ a ∧ a < 0x4C0000 ∧ a % 0x1000 = oLanToken then writeToken s m ((a - 0x400000) / 0x1000) v true
    else if 0x650000 ≤ a ∧ a < 0x662000 ∧ a % 0x100 = oChPost then s.onDev fun d => postChain d ((a - 0x650000) / 0x100) v
    else if 0x650000 ≤ a ∧ a < 0x662000 ∧ a % 0x100 = oChCtrl then s.onDev fun d => writeChCtrl d ((a - 0x650000) / 0x100) v
    else if 0x500500 ≤ a ∧ a < 0x500560 then s.onDev fun d => writeMouthRing d m a i v
    else if 0x708000 ≤ a ∧ a < 0x738400 then s.onDev fun d => writeEq d m a i v
    else if 0x740000 ≤ a ∧ a < 0x741000 then s.onDev fun d => writeFlt d m a i v
    else if 0x780000 ≤ a ∧ a < 0x78E000 then s.onDev fun d => writeAccess d m a v
    else if 0x7A0000 ≤ a ∧ a < 0x7A0800 then
      s.onDev fun d => if m = 0 ∨ isGuide m then plainWrite d m a i v else barDeny d m a true
    else if 0x800000 ≤ a ∧ a < 0x8C1000 then writeRing s m a i v
    else if i.shadow then s.onDev fun d => shadowWrite d m a v
    else s.onDev fun d => plainWrite d m a i v

/-- A write of `LANTERN_TOKEN`, whatever its width. -/
def tokenPage (a : Nat) : Option Nat :=
  if 0x400000 ≤ a ∧ a < 0x4C0000 ∧ a % 0x1000 < 8 then some ((a - 0x400000) / 0x1000) else none

/-- A write at any address and width (R541, R546). -/
def writeAt (s : State) (m a : Nat) (v : Word) (wide : Bool) : State :=
  match tokenPage a with
  | some n => writeToken s m n v (wide && a % 8 == 0)
  | none => barGate s m a wide fun s => writeReg s m a v

/-! ### Reads (R541, R544) -/

/-- `GAL_STATUS` as it reads. -/
def galStatus (d : Dev) (g : Nat) : Word :=
  setFld (setFld (reg d (rGal g oGalStatus)) 55 52 (placedOn d g).length) 31 0 (galLoad d g)

/-- `GAL_FIFO_STATUS` as it reads. The flags are computed from the present pointers: the delay of the synchronisers of R99 is timing
(notes/assumptions/80.md). -/
def fifoStatus (d : Dev) (g : Nat) : Word :=
  let x := d.gal g
  word ((!x.readable).toNat * 2 ^ 63 + (decide (fifoEntries ≤ fifoFill d g)).toNat * 2 ^ 62
    + (x.fifo.filter fun it => it.valid).length % 2 ^ 24 * 2 ^ 32 + fifoFill d g % 2 ^ 20)

/-- `GAL_ECHO_WINDOW` as it reads. -/
def echoWindow (d : Dev) (g : Nat) : Word :=
  let x := d.gal g
  setBit (setFld (reg d (rGal g oEchoWindow)) 55 48 x.window.length) 40 (x.window.any fun f => f)

/-- `SHAFT_CH_STATUS` as it reads. -/
def chStatus (d : Dev) (c : Nat) : Word :=
  let x := d.chan c
  let paused := regBit d (rCh c oChStatus) 12
  let low := x.queue.length % 8 * 2 ^ 13 + paused.toNat * 2 ^ 12
  match x.chain with
  | none => word low
  | some h =>
    let del := if c < 192 then deliveredRows (d.stream c).cfg (frameRows x h.frame) else 0
    let gd := decide (c < 192) && h.headDone && guarded d c h.frame
    word (h.frame % two32 * two32 + del % 65536 * 65536 + low + gd.toNat * 2 ^ 11 + 2 ^ 10)

/-- `EVT_SRC_CFG` of source s as it reads. -/
def srcCfgRead (d : Dev) (s : Nat) : Word :=
  setBit (setBit (reg d (rSrcCfg s)) 58 (srcActive d s)) 57 (srcState d s || !(d.srcs.get [] s).isEmpty)

/-- `PWR_STATUS` as it reads. -/
def pwrStatus (d : Dev) : Word :=
  let w := setBit (setBit (reg d rPwrStatus) 63 d.pwr.vinWarn) 62 d.pwr.coreWarn
  let held := (List.range 26).foldl (fun n g => if admitHold d g then n + 2 ^ g else n) 0
  setFld (setFld w 55 52 d.pwr.resetKind) 25 0 held

/-- `RING_STATUS` as it reads. -/
def ringStatus (d : Dev) (f : Nat) : Word :=
  let n := outstandingOf d f
  setFld (setBit (reg d (rRing f oRingStatus)) 62 (n == 0)) 7 0 n

/-- `SEC_LOCKS` as it reads: PATCH_LOCKED when every healthy Gallery is locked. -/
def secLocks (d : Dev) : Word :=
  setBit (reg d rSecLocks) 60 ((List.range 26).all fun g => !healthy d g || regBit d (rGal g oUcCtrl) 62)

/-- Registers of a Gallery as they read. -/
def readGal (d : Dev) (a : Nat) : Word :=
  let g := (a - 0x100000) / 0x10000
  let o := a % 0x10000
  if o = oGalStatus then galStatus d g
  else if o = oFifoStatus then fifoStatus d g
  else if o = oEchoWindow then echoWindow d g
  else reg d a

/-- The value of a register as it stands. -/
def regValue (s : State) (a : Nat) : Word :=
  let d := s.dev
  if a = rGlbId then setFld (reg d a) 17 0 (ordinalOf s)
  else if a = rSecLocks then secLocks d
  else if a = rBootStatus then bootStatus s
  else if a = rCfgStatus then setBit (reg d a) 62 (!d.captured.isEmpty)
  else if a = rFleetStatus then fleetStatus s
  else if a = rFleetActTime then actTime d
  else if 0x100000 ≤ a ∧ a < 0x2A0000 then readGal d a
  else if a = rPtpStatus then setBit (reg d a) 63 d.ptp.locked
  else if 0x650000 ≤ a ∧ a < 0x662000 ∧ a % 0x100 = oChStatus then chStatus d ((a - 0x650000) / 0x100)
  else if 0x650000 ≤ a ∧ a < 0x662000 ∧ a % 0x100 = oChFill then
    let c := (a - 0x650000) / 0x100
    word (if c < 192 then fillOf d c else fillOf d c / 4096)
  else if 0x690000 ≤ a ∧ a < 0x692000 ∧ a % 0x100 = oMcStatus then
    let m := (a - 0x690000) / 0x100
    word ((decide (d.now < (d.calBlk m).pausedUntil)).toNat * 2 ^ 63 + (inStorm d m).toNat * 2 ^ 62)
  else if isSrcCfg a then srcCfgRead d ((a - 0x700000) / 8)
  else if 0x708000 ≤ a ∧ a < 0x738400 ∧ (a - 0x708000) % 0x400 = oEqStatus then
    setFld (reg d a) 15 0 (eqUnread d ((a - 0x708000) / 0x400))
  else if a = rFltStatus then setBit (reg d a) 59 (faultLow d)
  else if a = rRecStatus then recRange s.nv
  else if 0x780000 ≤ a ∧ a < 0x78E000 then accWord d ((a - 0x780000) / 0x40) (a % 0x40 / 8)
  else if a = rPwrStatus then pwrStatus d
  else if 0x7E0000 ≤ a ∧ a < 0x7E0480 ∧ a % 0x20 = 0 then setBit (reg d a) 63 ((d.calBlk ((a - 0x7E0000) / 0x20)).stage == 2)
  else if 0x800000 ≤ a ∧ a < 0x8C1000 ∧ a % 0x1000 = oRingStatus then ringStatus d ((a - 0x800000) / 0x1000)
  else reg d a

/-- What a granted 64-bit read returns: zero for a write-only register, for an address without a register, and for the
mailbox to any other than the Guides and JTAG (R540, R543, R544). -/
def readValue (s : State) (m a : Nat) : Word :=
  if 0x1000 ≤ a ∧ a < 0x100000 then (if isGuide m || m == 0xFF then reg s.dev a else 0)
  else match (regAt a).2 with
  | none => 0
  | some i => if i.wo then 0 else regValue s a

/-- An RC field is cleared to its reset value; the least free count of a pool starts over from its free count (R309). -/
def clearRead (d : Dev) (a : Nat) (mask : Word) : Dev :=
  match (regAt a).2 with
  | none => d
  | some i =>
    if inRange a 0x600100 0x60019F then setRegFld d a 31 0 (if i.rc &&& mask == 0 then regFld d a 31 0 else regFld d a 63 32)
    else setReg d a ((reg d a &&& ~~~(i.rc &&& mask)) ||| (i.reset &&& i.rc &&& mask))

/-- A read clears what it covers, but for reads over SMBus and JTAG. -/
def clearsFor (d : Dev) (m a : Nat) (mask : Word) : Dev :=
  if m = 0xFE ∨ m = 0xFF then d
  else match (regAt a).2 with
  | some i => if i.rc &&& mask == 0 then d else clearRead d a mask
  | none => d

/-- The registers that are counters (R472). -/
def isCounter (a : Nat) : Bool :=
  let o := a % 0x100
  a == rGlbNarrow || a == rSecLockedWrites || a == rPcieLateCpl || a == rAqDrops || a == rLeaks || a == rExhausted || a == rAccDenied
    || a == rPwrWarns || a == rRecDropped || inRange a (rFltCount 0) (rFltCount 3) || inRange a 0x500700 0x500718
    || (inRange a 0x100000 0x29FFFF && (inRange (a % 0x10000) 0x110 0x120 || a % 0x10000 == oUcRestarts || inRange (a % 0x10000) 0x600 0x608
        || inRange (a % 0x10000) 0x800 0x9DF || a % 0x10000 == oEchoVerdicts || a % 0x10000 == oEchoFails || a % 0x10000 == oEchoIngestSb))
    || (inRange a 0x400000 0x4BFFFF && inRange (a % 0x1000) 0x40 0x60)
    || (inRange a 0x510000 0x51BFFF && inRange o 0x20 0x48)
    || (inRange a 0x600100 0x60019F && a % 0x20 == 0x10)
    || (inRange a 0x650000 0x661FFF && inRange o 0x20 0x68)
    || (inRange a 0x690000 0x691FFF && inRange o 0x8 0x20)
    || (inRange a 0x708000 0x7383FF && ((a - 0x708000) % 0x400 == oEqLost || (a - 0x708000) % 0x400 == oEqSpurious
        || (a - 0x708000) % 0x400 == oEqFastOvf))
    || (inRange a 0x7E0000 0x7E047F && (a % 0x20 == 0x8 || a % 0x20 == 0x18))
    || (inRange a 0x800000 0x8C0FFF && a % 0x1000 == oRingTaken)

/-- A granted read of the whole register at `a`: value and effect. -/
def readWhole (s : State) (m a : Nat) (mask : Word) : Word × State :=
  if a = rIndData then indRead s m else (readValue s m a, s.onDev fun d => clearsFor d m a mask)

/-- A granted 32-bit read: the lower half of a counter takes a snapshot, of which the next read of the upper half by the
same master returns the rest. -/
def readHalf (s : State) (m a : Nat) : Word × State :=
  let base := a - a % 8
  if a % 8 = 0 then
    let r := readWhole s m base (ones 31 0)
    let s := if isCounter base then r.2.onDev fun d => { d with snaps := d.snaps.set none m (some (base, r.1.toNat)) } else r.2
    (word (fld r.1 31 0), s)
  else
    match s.dev.snaps.get none m with
    | some (b, v) =>
      if b = base then (word (fld (word v) 63 32), s.onDev fun d => { d with snaps := d.snaps.set none m none })
      else let r := readWhole s m base (ones 63 32); (word (fld r.1 63 32), r.2)
    | none => let r := readWhole s m base (ones 63 32); (word (fld r.1 63 32), r.2)

/-- A read of BAR0 by master m: value and effect. A denied read returns zero and clears nothing; what a read
that is not aligned to its width returns is a free value, and it clears nothing (notes/assumptions/28.md). -/
def readAt (s : State) (m a : Nat) (wide : Bool) : Word × State :=
  if !barGranted s.dev m (a - a % 8) false then (0, s.onDev fun d => barDeny d m (a - a % 8) false)
  else if wide && a % 8 == 0 then readWhole s m a allOnes
  else if !wide && a % 4 == 0 then readHalf s m a
  else
    let r := draw s.dev
    (if wide then r.1 else word (fld r.1 31 0), { s with dev := r.2 })

/-- A read with its completion. -/
def readBar (s : State) (m a : Nat) (wide : Bool) : State :=
  if !alive s.dev then s
  else
    let r := readAt s m a wide
    r.2.onDev fun d => emit d (.read m r.1)

/-! ### Commands -/

/-- SHADOW_WRITE (R547). -/
def execShadowWrite (m : Master) (addr : Nat) (v : Word) (s : State) : Host.Outcome State Fault Refusal :=
  ok (barGate s m addr true fun s => s.onDev fun d => shadowWrite d m addr v)

/-- REGISTER_WRITE (R543). -/
def execRegisterWrite (m : Master) (addr : Nat) (v : Word) (wide : Bool) (s : State) : Host.Outcome State Fault Refusal :=
  ok (writeAt s m addr v wide)

/-- RC_READ (R544). -/
def execRcRead (m : Master) (addr : Nat) (wide : Bool) (s : State) : Host.Outcome State Fault Refusal :=
  ok (readBar s m addr wide)

/-- COUNTER_CLEAR (R472). -/
def execCounterClear (m : Master) (addr : Nat) (v : Word) (s : State) : Host.Outcome State Fault Refusal :=
  ok (barGate s m addr true fun s => s.onDev fun d => counterClear d addr v)

/-- LOCK_SET (R548): a write of a register that holds a lock bit. -/
def execLockSet (m : Master) (addr : Nat) (v : Word) (s : State) : Host.Outcome State Fault Refusal :=
  ok (barGate s m addr true fun s => if addr = rSecLocks || isUcCtrl addr then writeReg s m addr v else s)

/-- IND_DATA_READ (R554). -/
def execIndDataRead (m : Master) (s : State) : Host.Outcome State Fault Refusal :=
  ok (readBar s m rIndData true)

/-- IND_DATA_WRITE (R554). -/
def execIndDataWrite (m : Master) (v : Word) (s : State) : Host.Outcome State Fault Refusal :=
  ok (barGate s m rIndData true fun s => s.onDev fun d => indWrite d m v)

end Sys2Proof.Machine
end

