-- ==== Sys2Proof/Machine/Jtag.lean ====
section
/-! DEFINITION. The JTAG TAP (R564): the state machine of IEEE 1149.1, its resets, and EXTEST. -/

namespace Sys2Proof.Machine

/-- The TAP controller's next state at a rising edge of TCK (IEEE 1149.1, which R564 names). -/
def TapState.next (st : TapState) (tms : Bool) : TapState :=
  match st with
  | .testLogicReset => if tms then .testLogicReset else .runTestIdle
  | .runTestIdle => if tms then .selectDr else .runTestIdle
  | .selectDr => if tms then .selectIr else .captureDr
  | .captureDr => if tms then .exit1Dr else .shiftDr
  | .shiftDr => if tms then .exit1Dr else .shiftDr
  | .exit1Dr => if tms then .updateDr else .pauseDr
  | .pauseDr => if tms then .exit2Dr else .pauseDr
  | .exit2Dr => if tms then .updateDr else .shiftDr
  | .updateDr => if tms then .selectDr else .runTestIdle
  | .selectIr => if tms then .testLogicReset else .captureIr
  | .captureIr => if tms then .exit1Ir else .shiftIr
  | .shiftIr => if tms then .exit1Ir else .shiftIr
  | .exit1Ir => if tms then .updateIr else .pauseIr
  | .pauseIr => if tms then .exit2Ir else .pauseIr
  | .exit2Ir => if tms then .updateIr else .shiftIr
  | .updateIr => if tms then .selectDr else .runTestIdle

/-- TDO is driven in Shift-DR and Shift-IR only (R563). -/
def tdoDriven (d : Dev) : Bool := d.roost.up && (d.tap.st == .shiftDr || d.tap.st == .shiftIr)

/-- The main die's TAP is in the scan chain: the die is out of reset and awake. -/
def dieInChain (d : Dev) : Bool := alive d

/-- What the TAP does on entering a state: an instruction or data update, or the reset of the instruction. EXTEST is accepted
only while the main die's TAP is in the chain. -/
def tapEnter (d : Dev) (t : Tap) : Tap :=
  match t.st with
  | .testLogicReset => { t with shift := [], data := [], extest := false }
  | .captureDr => { t with shift := [] }
  | .captureIr => { t with shift := [] }
  | .updateDr => { t with data := t.shift }
  | .updateIr => { t with extest := dieInChain d && Config.isExtest t.shift }
  | _ => t

/-- A rising edge of TCK: the shift register takes TDI in the shift states, the state machine moves, and five edges with TMS
high in a row reset the TAP. -/
def tckEdge (d : Dev) (tms tdi : Bool) : Dev :=
  let t := d.tap
  let shift := if t.st = .shiftDr ∨ t.st = .shiftIr then tdi :: t.shift else t.shift
  let run := if tms then t.run + 1 else 0
  let t := tapEnter d { t with shift := shift, run := run, st := t.st.next tms }
  { d with tap := if 5 ≤ run then { ({} : Tap) with run := run } else t }

/-- TAP_RESET (R564): TRST_N low. -/
def execTapReset (s : State) : Host.Outcome State Fault Refusal :=
  ok (if s.dev.roost.up then s.onDev fun d => { d with tap := ({} : Tap) } else s)

/-- TCK_RISING_EDGE (R564). -/
def execTckRisingEdge (tms tdi : Bool) (s : State) : Host.Outcome State Fault Refusal :=
  ok (if s.dev.roost.up then s.onDev fun d => tckEdge d tms tdi else s)

end Sys2Proof.Machine
end

