-- ==== Sys2Proof/Machine/Dispatch.lean ====
section
/-! DEFINITION. The meaning of each command: one arm per constructor of `Instr`. -/

namespace Sys2Proof.Machine

def exec (i : Instr) (s : State) : Host.Outcome State Fault Refusal :=
  match i with
  | .deviceNop fn hdr ps => Sys2Proof.Machine.execDeviceNop fn hdr ps s
  | .deviceQuery fn hdr ps => Sys2Proof.Machine.execDeviceQuery fn hdr ps s
  | .deviceIdentity fn hdr ps => Sys2Proof.Machine.execDeviceIdentity fn hdr ps s
  | .deviceReset fn hdr ps => Sys2Proof.Machine.execDeviceReset fn hdr ps s
  | .deviceResetFire => Sys2Proof.Machine.execDeviceResetFire s
  | .sleep fn hdr ps => Sys2Proof.Machine.execSleep fn hdr ps s
  | .calibrate fn hdr ps => Sys2Proof.Machine.execCalibrate fn hdr ps s
  | .deviceClearFault fn hdr ps => Sys2Proof.Machine.execDeviceClearFault fn hdr ps s
  | .streamOpen fn hdr ps => Sys2Proof.Machine.execStreamOpen fn hdr ps s
  | .streamSetupDone n => Sys2Proof.Machine.execStreamSetupDone n s
  | .streamClose fn hdr ps => Sys2Proof.Machine.execStreamClose fn hdr ps s
  | .streamCloseDone n => Sys2Proof.Machine.execStreamCloseDone n s
  | .streamQuery fn hdr ps => Sys2Proof.Machine.execStreamQuery fn hdr ps s
  | .streamAssign fn hdr ps => Sys2Proof.Machine.execStreamAssign fn hdr ps s
  | .streamClear fn hdr ps => Sys2Proof.Machine.execStreamClear fn hdr ps s
  | .rasterConfig fn hdr ps => Sys2Proof.Machine.execRasterConfig fn hdr ps s
  | .rasterQuery fn hdr ps => Sys2Proof.Machine.execRasterQuery fn hdr ps s
  | .rasterClear fn hdr ps => Sys2Proof.Machine.execRasterClear fn hdr ps s
  | .rateSet fn hdr ps => Sys2Proof.Machine.execRateSet fn hdr ps s
  | .rateTarget fn hdr ps => Sys2Proof.Machine.execRateTarget fn hdr ps s
  | .rateLimits fn hdr ps => Sys2Proof.Machine.execRateLimits fn hdr ps s
  | .rateRoi fn hdr ps => Sys2Proof.Machine.execRateRoi fn hdr ps s
  | .rateMap fn hdr ps => Sys2Proof.Machine.execRateMap fn hdr ps s
  | .rateReport fn hdr ps => Sys2Proof.Machine.execRateReport fn hdr ps s
  | .rateQuery fn hdr ps => Sys2Proof.Machine.execRateQuery fn hdr ps s
  | .rateClear fn hdr ps => Sys2Proof.Machine.execRateClear fn hdr ps s
  | .refConfig fn hdr ps => Sys2Proof.Machine.execRefConfig fn hdr ps s
  | .refKey fn hdr ps => Sys2Proof.Machine.execRefKey fn hdr ps s
  | .refRefresh fn hdr ps => Sys2Proof.Machine.execRefRefresh fn hdr ps s
  | .refAck fn hdr ps => Sys2Proof.Machine.execRefAck fn hdr ps s
  | .refLoss fn hdr ps => Sys2Proof.Machine.execRefLoss fn hdr ps s
  | .refQuery fn hdr ps => Sys2Proof.Machine.execRefQuery fn hdr ps s
  | .refClear fn hdr ps => Sys2Proof.Machine.execRefClear fn hdr ps s
  | .recipAdd fn hdr ps => Sys2Proof.Machine.execRecipAdd fn hdr ps s
  | .recipRemove fn hdr ps => Sys2Proof.Machine.execRecipRemove fn hdr ps s
  | .recipModify fn hdr ps => Sys2Proof.Machine.execRecipModify fn hdr ps s
  | .recipQuery fn hdr ps => Sys2Proof.Machine.execRecipQuery fn hdr ps s
  | .recipClear fn hdr ps => Sys2Proof.Machine.execRecipClear fn hdr ps s
  | .recipFlush fn hdr ps => Sys2Proof.Machine.execRecipFlush fn hdr ps s
  | .queueBind fn hdr ps => Sys2Proof.Machine.execQueueBind fn hdr ps s
  | .queueUnbind fn hdr ps => Sys2Proof.Machine.execQueueUnbind fn hdr ps s
  | .queueMirror fn hdr ps => Sys2Proof.Machine.execQueueMirror fn hdr ps s
  | .queueStream fn hdr ps => Sys2Proof.Machine.execQueueStream fn hdr ps s
  | .keyKek fn hdr ps kek => Sys2Proof.Machine.execKeyKek fn hdr ps kek s
  | .keyLoad fn hdr ps => Sys2Proof.Machine.execKeyLoad fn hdr ps s
  | .keyRoll fn hdr ps => Sys2Proof.Machine.execKeyRoll fn hdr ps s
  | .keyErase fn hdr ps => Sys2Proof.Machine.execKeyErase fn hdr ps s
  | .keyQuery fn hdr ps => Sys2Proof.Machine.execKeyQuery fn hdr ps s
  | .veinConfig fn hdr ps => Sys2Proof.Machine.execVeinConfig fn hdr ps s
  | .veinRecord fn hdr ps => Sys2Proof.Machine.execVeinRecord fn hdr ps s
  | .veinQuery fn hdr ps => Sys2Proof.Machine.execVeinQuery fn hdr ps s
  | .fleetStage fn hdr ps => Sys2Proof.Machine.execFleetStage fn hdr ps s
  | .fleetActivate fn hdr ps => Sys2Proof.Machine.execFleetActivate fn hdr ps s
  | .fleetQuery fn hdr ps => Sys2Proof.Machine.execFleetQuery fn hdr ps s
  | .fleetCancel fn hdr ps => Sys2Proof.Machine.execFleetCancel fn hdr ps s
  | .diagRetire fn hdr ps => Sys2Proof.Machine.execDiagRetire fn hdr ps s
  | .diagInject fn hdr ps => Sys2Proof.Machine.execDiagInject fn hdr ps s
  | .diagFaultrec fn hdr ps => Sys2Proof.Machine.execDiagFaultrec fn hdr ps s
  | .decodeOpen fn hdr ps => Sys2Proof.Machine.execDecodeOpen fn hdr ps s
  | .decodeClose fn hdr ps => Sys2Proof.Machine.execDecodeClose fn hdr ps s
  | .decodeCloseDone c => Sys2Proof.Machine.execDecodeCloseDone c s
  | .decodeRelease fn hdr ps => Sys2Proof.Machine.execDecodeRelease fn hdr ps s
  | .decodeResync fn hdr ps => Sys2Proof.Machine.execDecodeResync fn hdr ps s
  | .decodeQuery fn hdr ps => Sys2Proof.Machine.execDecodeQuery fn hdr ps s
  | .decodeClear fn hdr ps => Sys2Proof.Machine.execDecodeClear fn hdr ps s
  | .rasterToken m n v wide => Sys2Proof.Machine.execRasterToken m n v wide s
  | .rasterSyncPulse input highNs => Sys2Proof.Machine.execRasterSyncPulse input highNs s
  | .lanternRowTimer n => Sys2Proof.Machine.execLanternRowTimer n s
  | .stall n => Sys2Proof.Machine.execStall n s
  | .bandEligible n => Sys2Proof.Machine.execBandEligible n s
  | .bandDispatch g u => Sys2Proof.Machine.execBandDispatch g u s
  | .superblockCode g u => Sys2Proof.Machine.execSuperblockCode g u s
  | .bandOccupancyEnd g => Sys2Proof.Machine.execBandOccupancyEnd g s
  | .bandCommit g u v => Sys2Proof.Machine.execBandCommit g u v s
  | .bandClose g => Sys2Proof.Machine.execBandClose g s
  | .overrun g u => Sys2Proof.Machine.execOverrun g u s
  | .missed n => Sys2Proof.Machine.execMissed n s
  | .watchdog g => Sys2Proof.Machine.execWatchdog g s
  | .flush m g => Sys2Proof.Machine.execFlush m g s
  | .timeout g => Sys2Proof.Machine.execTimeout g s
  | .sramCorr g => Sys2Proof.Machine.execSramCorr g s
  | .sramUncorr g => Sys2Proof.Machine.execSramUncorr g s
  | .controlStoreError g => Sys2Proof.Machine.execControlStoreError g s
  | .power g => Sys2Proof.Machine.execPower g s
  | .failover => Sys2Proof.Machine.execFailover s
  | .verdict g found differs => Sys2Proof.Machine.execVerdict g found differs s
  | .ingestPeriod => Sys2Proof.Machine.execIngestPeriod s
  | .ingestFrameOutput c f => Sys2Proof.Machine.execIngestFrameOutput c f s
  | .fifoReadTurn => Sys2Proof.Machine.execFifoReadTurn s
  | .reseqTmo n => Sys2Proof.Machine.execReseqTmo n s
  | .calendarSlot => Sys2Proof.Machine.execCalendarSlot s
  | .portServe p => Sys2Proof.Machine.execPortServe p s
  | .senderReport r => Sys2Proof.Machine.execSenderReport r s
  | .hostTransmit hdr bytes => Sys2Proof.Machine.execHostTransmit hdr bytes s
  | .frameReceive p bytes => Sys2Proof.Machine.execFrameReceive p bytes s
  | .reorderWindowClose c => Sys2Proof.Machine.execReorderWindowClose c s
  | .unlocked => Sys2Proof.Machine.execUnlocked s
  | .ppsOutSecond => Sys2Proof.Machine.execPpsOutSecond s
  | .ppsInEdge => Sys2Proof.Machine.execPpsInEdge s
  | .linkChange p link => Sys2Proof.Machine.execLinkChange p link s
  | .auditorVisit pool buffer found => Sys2Proof.Machine.execAuditorVisit pool buffer found s
  | .silent r => Sys2Proof.Machine.execSilent r s
  | .learnedSlotExpiry r p k => Sys2Proof.Machine.execLearnedSlotExpiry r p k s
  | .graceEnd k => Sys2Proof.Machine.execGraceEnd k s
  | .bootImage m v => Sys2Proof.Machine.execBootImage m v s
  | .imageVerified r => Sys2Proof.Machine.execImageVerified r s
  | .mctpMessage tag body => Sys2Proof.Machine.execMctpMessage tag body s
  | .alertResponse wins => Sys2Proof.Machine.execAlertResponse wins s
  | .ringSqTail m f v slots => Sys2Proof.Machine.execRingSqTail m f v slots s
  | .ringEnable m f v => Sys2Proof.Machine.execRingEnable m f v s
  | .errorCompletion r => Sys2Proof.Machine.execErrorCompletion r s
  | .completionTimeout r => Sys2Proof.Machine.execCompletionTimeout r s
  | .completionTimeoutValue code => Sys2Proof.Machine.execCompletionTimeoutValue code s
  | .bar2Access off bytes len => Sys2Proof.Machine.execBar2Access off bytes len s
  | .functionLevelReset f => Sys2Proof.Machine.execFunctionLevelReset f s
  | .pcieLinkDown => Sys2Proof.Machine.execPcieLinkDown s
  | .hotReset => Sys2Proof.Machine.execHotReset s
  | .shaftChPost m c v => Sys2Proof.Machine.execShaftChPost m c v s
  | .shaftChCtrlWrite m c v => Sys2Proof.Machine.execShaftChCtrlWrite m c v s
  | .descriptorStart c d => Sys2Proof.Machine.execDescriptorStart c d s
  | .descriptorComplete c bytes => Sys2Proof.Machine.execDescriptorComplete c bytes s
  | .corrected m line rewritten => Sys2Proof.Machine.execCorrected m line rewritten s
  | .uncorrected m line tag user => Sys2Proof.Machine.execUncorrected m line tag user s
  | .scrubLine m line found => Sys2Proof.Machine.execScrubLine m line found s
  | .neighbour m bank row => Sys2Proof.Machine.execNeighbour m bank row s
  | .refreshWindow => Sys2Proof.Machine.execRefreshWindow s
  | .agePromotion m cls arrived who => Sys2Proof.Machine.execAgePromotion m cls arrived who s
  | .eqEnable m f v => Sys2Proof.Machine.execEqEnable m f v s
  | .eqHead m f v => Sys2Proof.Machine.execEqHead m f v s
  | .eqCpl m f v => Sys2Proof.Machine.execEqCpl m f v s
  | .fastPend m f v => Sys2Proof.Machine.execFastPend m f v s
  | .coalUsExpiry f => Sys2Proof.Machine.execCoalUsExpiry f s
  | .wakeLatch src cause => Sys2Proof.Machine.execWakeLatch src cause s
  | .wakeRecordDelivery => Sys2Proof.Machine.execWakeRecordDelivery s
  | .fltHeartbeat m v => Sys2Proof.Machine.execFltHeartbeat m v s
  | .heartbeatTimeout => Sys2Proof.Machine.execHeartbeatTimeout s
  | .faultPulseEnd => Sys2Proof.Machine.execFaultPulseEnd s
  | .fltCtrlWrite m v => Sys2Proof.Machine.execFltCtrlWrite m v s
  | .captureFree m k => Sys2Proof.Machine.execCaptureFree m k s
  | .persistentEntryWrite => Sys2Proof.Machine.execPersistentEntryWrite s
  | .graveHoldEnd => Sys2Proof.Machine.execGraveHoldEnd s
  | .takeover cause => Sys2Proof.Machine.execTakeover cause s
  | .fuse cause => Sys2Proof.Machine.execFuse cause s
  | .sharedUe cause => Sys2Proof.Machine.execSharedUe cause s
  | .sharedCe cause => Sys2Proof.Machine.execSharedCe cause s
  | .warn rail mv => Sys2Proof.Machine.execWarn rail mv s
  | .recovered rail mv => Sys2Proof.Machine.execRecovered rail mv s
  | .holdMove => Sys2Proof.Machine.execHoldMove s
  | .admitHoldClear => Sys2Proof.Machine.execAdmitHoldClear s
  | .brownout rail mv => Sys2Proof.Machine.execBrownout rail mv s
  | .standbyReset => Sys2Proof.Machine.execStandbyReset s
  | .supplyInRange rail mv => Sys2Proof.Machine.execSupplyInRange rail mv s
  | .perstNAssert lowNs => Sys2Proof.Machine.execPerstNAssert lowNs s
  | .perstNRelease bootMode => Sys2Proof.Machine.execPerstNRelease bootMode s
  | .resetExit => Sys2Proof.Machine.execResetExit s
  | .tjWarn sensor degC => Sys2Proof.Machine.execTjWarn sensor degC s
  | .tjOk => Sys2Proof.Machine.execTjOk s
  | .thermalTrip sensor degC => Sys2Proof.Machine.execThermalTrip sensor degC s
  | .shutdown sensor degC => Sys2Proof.Machine.execShutdown sensor degC s
  | .calTrigger b tj => Sys2Proof.Machine.execCalTrigger b tj s
  | .calPairDone b agrees tj => Sys2Proof.Machine.execCalPairDone b agrees tj s
  | .calRetry b agrees tj => Sys2Proof.Machine.execCalRetry b agrees tj s
  | .telemetryTick values => Sys2Proof.Machine.execTelemetryTick values s
  | .timer => Sys2Proof.Machine.execTimer s
  | .activationLanding => Sys2Proof.Machine.execActivationLanding s
  | .digestRecompute => Sys2Proof.Machine.execDigestRecompute s
  | .cfgCommitAll m => Sys2Proof.Machine.execCfgCommitAll m s
  | .cfgCommitGroup m g => Sys2Proof.Machine.execCfgCommitGroup m g s
  | .shadowWrite m addr v => Sys2Proof.Machine.execShadowWrite m addr v s
  | .registerWrite m addr v wide => Sys2Proof.Machine.execRegisterWrite m addr v wide s
  | .rcRead m addr wide => Sys2Proof.Machine.execRcRead m addr wide s
  | .counterClear m addr v => Sys2Proof.Machine.execCounterClear m addr v s
  | .lockSet m addr v => Sys2Proof.Machine.execLockSet m addr v s
  | .indDataRead m => Sys2Proof.Machine.execIndDataRead m s
  | .indDataWrite m v => Sys2Proof.Machine.execIndDataWrite m v s
  | .read m r => Sys2Proof.Machine.execRead m r s
  | .readLearned m r p => Sys2Proof.Machine.execReadLearned m r p s
  | .modify m r => Sys2Proof.Machine.execModify m r s
  | .clear m r => Sys2Proof.Machine.execClear m r s
  | .flushLearned m r p => Sys2Proof.Machine.execFlushLearned m r p s
  | .readHwm m r => Sys2Proof.Machine.execReadHwm m r s
  | .tapReset => Sys2Proof.Machine.execTapReset s
  | .takeoverComplete => Sys2Proof.Machine.execTakeoverComplete s
  | .pcieLinkUp width speed flit => Sys2Proof.Machine.execPcieLinkUp width speed flit s
  | .lateCompletion => Sys2Proof.Machine.execLateCompletion s
  | .tckRisingEdge tms tdi => Sys2Proof.Machine.execTckRisingEdge tms tdi s

end Sys2Proof.Machine
end

