-- ==== Sys2Proof/Safety.lean ====
section
/-! DEFINITION. What statements about the block are said in: outcomes, the canonical form of memory, what a device keeps
when only its event system, its registers and its outputs move, and when a packet is taken as soon as it is submitted. -/

namespace Sys2Proof.Machine

/-- An outcome is a next state. -/
def completes (o : Host.Outcome State Fault Refusal) : Prop := ∃ t, o = .next t

/-- Device memory is in canonical form (R441). -/
def State.memOk (s : State) : Prop := Memory.wf s.memGen s.mem = true

/-- A device less its registers, its outputs, its event queues and sources: all that events and replies leave alone. -/
def Dev.core (d : Dev) : Dev :=
  { d with regs := [], out := [], eqs := [], fastMet := [], srcs := [], activeFn := [], lastRaised := [] }

/-- A BAR0 address in an event-queue page (R471). -/
def eventPage (a : Nat) : Prop := 0x708000 ≤ a ∧ a < 0x738400

/-- A BAR0 address in a ring page (R377). -/
def ringPage (a : Nat) : Prop := 0x800000 ≤ a ∧ a < 0x8C1000

/-- The registers of a device outside the event-queue pages and the ring pages. -/
def sameRegs (d d' : Dev) : Prop := ∀ a, ¬ eventPage a → ¬ ringPage a → reg d' a = reg d a

/-- The device as it is when a packet has been submitted and passed by `RING_SQ_HEAD`. -/
def taken (p : Pkt) (s : State) : State := s.onDev fun d => takeFromRing (ringDoorbell d p) p

/-- A packet of the PF or a VF is taken as soon as it is submitted: the device is READY and not stopped, the ring is in
service and not halted, no packet of the function waits, and the limits of intake hold (R254, R376, R380, R397, R398,
R401, R403). -/
def takesNow (p : Pkt) (s : State) : Prop :=
  p.fn ≤ 192 ∧ ready s.dev = true ∧ stopped s.dev = false ∧ ringEnabled s.dev p.fn = true ∧ takeable s.dev p = true ∧
    (s.dev.submitted.any fun q => q.fn == p.fn) = false

/-- The state after a taken packet whose command had this effect and is answered now with this STATUS. -/
def answered (p : Pkt) (s : State) (st : Nat) (rs : List Word) (target : Nat) : State :=
  s.onDev fun d => reply d p.fn p.hdr p.tag st rs target

/-- Nothing but the device moves: memory, non-volatile storage and the queue of commands stay. -/
def sameOutside (s t : State) : Prop := t.pending = s.pending ∧ t.mem = s.mem ∧ t.memGen = s.memGen ∧ t.nv = s.nv

/-- Beside the device, only bytes of device memory from `lo` to below `hi` may move. -/
def onlyBytes (lo hi : Nat) (s t : State) : Prop :=
  t.pending = s.pending ∧ t.memGen = s.memGen ∧ t.nv = s.nv ∧ ∀ a, (a < lo ∨ hi ≤ a) → t.byte a = s.byte a

/-- Beside the device, only the output FIFO of Gallery g in device memory may move (R454). -/
def onlyFifo (g : Nat) (s t : State) : Prop := onlyBytes (0xE80000000 + g * 0x2000000) (0xE80000000 + (g + 1) * 0x2000000) s t

/-- Beside the device, only the output FIFOs and the mirrored region may move (R445, R454). -/
def onlyOutputs (s t : State) : Prop := onlyBytes 0xE80000000 Config.memBytes s t

/-- Beside the device, only bytes of device memory at these addresses may move. -/
def onlyWhere (P : Nat → Prop) (s t : State) : Prop :=
  t.pending = s.pending ∧ t.memGen = s.memGen ∧ t.nv = s.nv ∧ ∀ a, ¬ P a → t.byte a = s.byte a

/-- An address in one of the two copies of stream n's record (R228, R445). -/
def inRecord (n a : Nat) : Prop :=
  (0xEE0000000 + 0x8000 * n ≤ a ∧ a < 0xEE0000000 + 0x8000 * (n + 1)) ∨
    (0xEF0000000 + 0x8000 * n ≤ a ∧ a < 0xEF0000000 + 0x8000 * (n + 1))

/-- An address in the output FIFO of Gallery g (R454). -/
def inFifo (g a : Nat) : Prop := 0xE80000000 + g * 0x2000000 ≤ a ∧ a < 0xE80000000 + (g + 1) * 0x2000000

/-- Beside the device, only the record of stream n may move. -/
def onlyRecord (n : Nat) (s t : State) : Prop := onlyWhere (inRecord n) s t

/-- Beside the device, only the mirrored region may move: the records of streams (R445). -/
def onlyRecords (s t : State) : Prop := onlyBytes 0xEE0000000 Config.memBytes s t

/-- Beside the device, only the output FIFO of Gallery g and the record of stream n may move. -/
def onlyFifoRecord (g n : Nat) (s t : State) : Prop := onlyWhere (fun a => inFifo g a ∨ inRecord n a) s t

/-- Beside outputs, events and ring pages, at most stream n of the device moves. -/
def onlyStreamDev (n : Nat) (s t : State) : Prop :=
  t.dev.core = { s.dev.core with streams := t.dev.streams } ∧ sameRegs s.dev t.dev ∧ ∀ m, m ≠ n → t.dev.stream m = s.dev.stream m

/-- Beside outputs, events and ring pages, at most stream n moves. -/
def onlyStream (n : Nat) (s t : State) : Prop := sameOutside s t ∧ onlyStreamDev n s t

/-- Beside outputs, events, ring pages and the record of stream n, at most recipient r and its stream n move. -/
def onlyRecip (r n : Nat) (s t : State) : Prop :=
  onlyRecord n s t ∧ t.dev.core = { s.dev.core with streams := t.dev.streams, recips := t.dev.recips } ∧ sameRegs s.dev t.dev ∧
    (∀ m, m ≠ n → t.dev.stream m = s.dev.stream m) ∧ ∀ q, q ≠ r → t.dev.recip q = s.dev.recip q

/-- A command on one stream passes the checks that come before its parameter words: COUNT and reserved bits (R382, R387),
the issuer (R19, R388), the state of the stream (R389). -/
def streamGo (p : Pkt) (s : State) (count : Nat) : Prop :=
  hdrBad p count 192 = false ∧ notOwner p (s.dev.streamOwner p.target) = false ∧ streamOff s.dev p = false

/-- A query of one stream passes its checks. -/
def streamQueryGo (p : Pkt) (s : State) : Prop :=
  hdrBad p 0 192 = false ∧ notReader p (s.dev.streamOwner p.target) = false

/-- A command answers a next state: its effect on the stream it names is `f`, nothing else moves, and then the reply OK with
these result words is written. -/
def streamEffect (i : Instr) (p : Pkt) (s : State) (rs : List Word) (f : Stream → Stream) : Prop :=
  ∃ t, exec i s = .next (answered p t stOk rs p.target) ∧ t.dev.stream p.target = f (s.dev.stream p.target) ∧
    onlyStream p.target s t

/-- The same of a command that moves the table or the counters of the stream's record on (R162, R175, R190, R252): its bytes may move with
them. -/
def recordEffect (i : Instr) (p : Pkt) (s : State) (f : Stream → Stream) : Prop :=
  ∃ t, exec i s = .next (answered p t stOk [] p.target) ∧ t.dev.stream p.target = f (s.dev.stream p.target) ∧
    onlyStreamDev p.target s t ∧ onlyRecord p.target s t

/-- No source of a Gallery is fast, and no fast event waits to abandon a routine (R95, R467, R470). -/
def galsQuiet (s : State) : Prop := s.dev.fastMet = [] ∧ ∀ k < 208, srcFast s.dev (768 + k) = false

/-- A command of a Gallery has this effect: the next state is t, with the routines restarted that a fast event of the effect has met
(R95). -/
def galEffect (i : Instr) (s t : State) : Prop := (galsQuiet s → exec i s = .next t) ∧ exec i s = .next (restartMet t)

/-- A command has this effect, and then the packets that the Guide holds are taken as far as they can be (R397). -/
def guideEffect (i : Instr) (s t : State) : Prop := (s.dev.submitted = [] → exec i s = .next t) ∧ exec i s = .next (drain t)

/-- Streams equal but for the runs of their bands' header routines. -/
def sameButRuns (x y : Stream) : Prop :=
  y = { x with bands := y.bands } ∧
    y.bands.map (fun b => { b with runAt := 0, routinesDone := 0 }) = x.bands.map fun b => { b with runAt := 0, routinesDone := 0 }

/-- No Gallery but g moves. -/
def onlyGal (g : Nat) (s t : State) : Prop := ∀ h, h ≠ g → t.dev.gal h = s.dev.gal h

/-- A command on one decode context passes the checks that come before its parameter words (R16, R19, R387, R388). -/
def ctxGo (p : Pkt) (s : State) (count : Nat) : Prop :=
  hdrBad p count 96 = false ∧ notOwner p (s.dev.ctxOwner p.target) = false ∧ ctxOff s.dev p = false

/-- No decode context but c moves. -/
def onlyCtx (c : Nat) (s t : State) : Prop := ∀ k, k ≠ c → t.dev.ctx k = s.dev.ctx k

/-- No stream but n moves. -/
def onlyStreams (n : Nat) (s t : State) : Prop := ∀ k, k ≠ n → t.dev.stream k = s.dev.stream k

/-- No register outside the event-queue pages moves but those listed. -/
def onlyRegs (l : List Nat) (s t : State) : Prop := ∀ a, ¬ eventPage a → a ∉ l → reg t.dev a = reg s.dev a

/-- A command on an existing recipient entry passes the checks that come before its parameter words, the access table of its range
among them (R388, R431). -/
def entryGo (p : Pkt) (s : State) (count : Nat) : Prop :=
  hdrBad p count 16384 = false ∧ notOwner p (s.dev.streamOwner (s.dev.recip p.target).stream) = false ∧
    (s.dev.recip p.target).valid = true ∧ recipGranted s.dev p.fn p.target (s.dev.recip p.target).stream true = true

/-- A command answers a next state: its effect on the recipient it names is `f`, nothing else moves, and then the reply OK with
these result words is written. -/
def recipEffect (i : Instr) (p : Pkt) (s : State) (rs : List Word) (f : Recip → Recip) : Prop :=
  ∃ t, exec i s = .next (answered p t stOk rs p.target) ∧ t.dev.recip p.target = f (s.dev.recip p.target) ∧
    (∀ r, r ≠ p.target → t.dev.recip r = s.dev.recip r) ∧ t.dev.core = { s.dev.core with recips := t.dev.recips } ∧
    sameRegs s.dev t.dev ∧ sameOutside s t

/-- A write of `RECIP_CMD` is accepted: by the bus, by the access table of the recipient, and because no operation is in progress (R319, R321,
R431). -/
def recipCmdGo (m r : Nat) (s : State) (write : Bool) : Prop :=
  alive s.dev = true ∧ barGranted s.dev m rRecipCmd true = true ∧ regBit s.dev rRecipStatus 63 = false ∧
    recipGranted s.dev m r (s.dev.recip r).stream write = true

/-- The operation ended with RESULT 0 for this recipient (R319). -/
def recipCmdOk (r : Nat) (t : State) : Prop :=
  regFld t.dev rRecipStatus 55 48 = 0 ∧ regFld t.dev rRecipStatus 13 0 = r

/-- The main die stands in reset of this kind and phase: memory is lost, every block is as after power-on but for what Roost keeps, the
supplies and the outside, and PEND (R501, R502). -/
def dieReset (s t : State) (kind : Nat) (die : DiePhase) : Prop :=
  t.mem = [] ∧ t.memGen = 0 ∧ t.nv = s.nv ∧ t.pending = s.pending ∧ t.dev.pwr.die = die ∧ t.dev.pwr.resetKind = kind ∧
    t.dev.streams = [] ∧ t.dev.ctxs = [] ∧ t.dev.gals = [] ∧ t.dev.recips = [] ∧ t.dev.keys = [] ∧ t.dev.rings = [] ∧
    t.dev.submitted = [] ∧ (∀ a, a ≠ rFltAlert → reg t.dev a = regReset a) ∧ t.dev.roost.bootCount = s.dev.roost.bootCount

/-- A write of a master to a register is accepted by the bus (R431, R541). -/
def busGo (m a : Nat) (s : State) : Prop := alive s.dev = true ∧ barGranted s.dev m a true = true ∧ a % 8 = 0

/-- The reply of a packet is its only effect beside the rings and the events. -/
def answersOnly (i : Instr) (p : Pkt) (s : State) (rs : List Word) : Prop :=
  ∃ t, exec i s = .next (answered p t stOk rs p.target) ∧ t.dev.core = s.dev.core ∧ sameRegs s.dev t.dev ∧ sameOutside s t

end Sys2Proof.Machine
end

