-- ==== Sys2Proof/Certificates/Slice0/Obligations.lean ====
section
/-! DEFINITION. The statements about the block. -/

open Sys2Proof Sys2Proof.Machine

/-! ### Streams, raster, rate control and references -/

/-- RATE.SET, RATE.TARGET, RATE.LIMITS, RATE.ROI, RATE.MAP and REF.CONFIG complete by joining the staged commands of their stream
in order of acceptance (R156 to R158, R165, R166, R192); RATE.SET also asks for a key frame. Nothing else moves.
Where the rules leave a reading or a value open, this is the model's choice: notes/assumptions, entries 11 and 38. -/
def Obligations.StagedCommandsJoinTheList : Prop :=
  ∀ (fn : Nat) (hdr : Word) (ps : List Word) (s : State),
    (let p := mkPkt 0x0401 fn hdr ps
     takesNow p s → streamGo p s 3 → rateWordsOk (p.w 1) (p.w 2) (p.w 3) = true →
     (s.dev.stream p.target).cfg.rateOk (rateSetOf s.dev p) = true →
     streamEffect (.rateSet fn hdr ps) p s [] fun x =>
       { x with staged := x.staged ++ [.rateSet (rateSetOf s.dev p)], ref := { x.ref with keyForced := true } }) ∧
    (let p := mkPkt 0x0402 fn hdr ps
     takesNow p s → streamGo p s 1 → rateTargetOk (s.dev.stream p.target) p = true →
     streamEffect (.rateTarget fn hdr ps) p s [] fun x =>
       { x with staged := x.staged ++ [.target (p.f 1 63 32) (p.f 1 7 0)] }) ∧
    (let p := mkPkt 0x0403 fn hdr ps
     takesNow p s → streamGo p s 1 → within (p.w 1) (ones 63 48) = true → p.f 1 63 56 ≤ p.f 1 55 48 → p.f 1 55 48 ≤ 51 →
     streamEffect (.rateLimits fn hdr ps) p s [] fun x =>
       { x with staged := x.staged ++ [.limits (p.f 1 63 56) (p.f 1 55 48)] }) ∧
    (let p := mkPkt 0x0404 fn hdr ps
     takesNow p s → streamGo p s 9 → roiOk (s.dev.stream p.target).cfg p = true →
     streamEffect (.rateRoi fn hdr ps) p s [] fun x => { x with staged := x.staged ++ [.roi (roiOf p)] }) ∧
    (let p := mkPkt 0x0405 fn hdr ps
     takesNow p s → streamGo p s 2 → mapOk (s.dev.stream p.target).cfg p = true →
     memGranted s.dev fn (p.w 1).toNat ((s.dev.stream p.target).cfg.slotCount * p.f 2 63 32) true = true →
     streamEffect (.rateMap fn hdr ps) p s [] fun x =>
       { x with staged := x.staged ++ [.map { base := (p.w 1).toNat, stride := p.f 2 63 32, en := p.b 2 0 }] }) ∧
    (let p := mkPkt 0x0501 fn hdr ps
     takesNow p s → streamGo p s 3 → refCfgOk p = true →
     streamEffect (.refConfig fn hdr ps) p s [] fun x => { x with staged := x.staged ++ [.refConfig (refCfgOf p)] })

/-- RATE.REPORT sets the report ring of its stream at once (R161, R165); RATE.CLEAR, REF.CLEAR and STREAM.CLEAR clear the error
counters whose bits are set, and no other counter (R162, R190, R252). -/
def Obligations.ReportAndClearCommands : Prop :=
  ∀ (fn : Nat) (hdr : Word) (ps : List Word) (s : State),
    (let p := mkPkt 0x0406 fn hdr ps
     takesNow p s → streamGo p s 2 → ringWordsOk (p.w 1) (p.w 2) 16 65536 = true →
     streamEffect (.rateReport fn hdr ps) p s [] fun x =>
       { x with report := { base := (p.w 1).toNat, records := p.f 2 63 32, en := p.b 2 0, next := 0 } }) ∧
    (let p := mkPkt 0x0408 fn hdr ps
     takesNow p s → streamGo p s 1 → within (p.w 1) (ones 9 3) = true →
     ∃ f, recordEffect (.rateClear fn hdr ps) p s f ∧ ∀ x, ∃ t, f x = { x with rateCnt := t } ∧
       ∀ w, t.get 0 w = if 3 ≤ w ∧ w ≤ 9 ∧ p.b 1 w = true then 0 else x.rateCnt.get 0 w) ∧
    (let p := mkPkt 0x0507 fn hdr ps
     takesNow p s → streamGo p s 1 → within (p.w 1) (ones 9 5) = true →
     ∃ f, recordEffect (.refClear fn hdr ps) p s f ∧ ∀ x, ∃ t, f x = { x with refCnt := t } ∧
       ∀ w, t.get 0 w = if 5 ≤ w ∧ w ≤ 9 ∧ p.b 1 w = true then 0 else x.refCnt.get 0 w) ∧
    (let p := mkPkt 0x0205 fn hdr ps
     takesNow p s → streamGo p s 1 → within (p.w 1) (ones 8 7) = true →
     ∃ f, recordEffect (.streamClear fn hdr ps) p s f ∧ ∀ x, ∃ t, f x = { x with availCnt := t } ∧
       ∀ w, t.get 0 w = if 7 ≤ w ∧ w ≤ 8 ∧ p.b 1 w = true then 0 else x.availCnt.get 0 w)

/-- STREAM.QUERY, RATE.QUERY, REF.QUERY and RASTER.QUERY answer the words their rules list and change nothing (R162, R190, R391,
R396). -/
def Obligations.StreamQueriesAnswer : Prop :=
  ∀ (fn : Nat) (hdr : Word) (ps : List Word) (s : State),
    (let p := mkPkt 0x0203 fn hdr ps
     let x := s.dev.stream p.target
     takesNow p s → streamQueryGo p s →
     streamEffect (.streamQuery fn hdr ps) p s
       ([ word (x.phase.num * 2 ^ 62 + s.dev.streamOwner p.target % 256 * 2 ^ 54 + x.load), word (partsWord x)
        , reg s.dev (rMs p.target oMsReseq), reg s.dev (rLan p.target oLanRows) ]
        ++ [x.availCnt.get 0 4, x.availCnt.get 0 5, x.availCnt.get 0 6, x.availCnt.get 0 7, x.availCnt.get 0 8]) id) ∧
    (let p := mkPkt 0x0407 fn hdr ps
     let x := s.dev.stream p.target
     takesNow p s → streamQueryGo p s →
     streamEffect (.rateQuery fn hdr ps) p s
       ([ word (x.rate.d % two32 * two32 + signedBits 32 x.rate.v), x.rateCnt.get 0 1, x.rateCnt.get 0 2, x.rateCnt.get 0 3
        , x.rateCnt.get 0 4, x.rateCnt.get 0 5, x.rateCnt.get 0 6, x.rateCnt.get 0 7, x.rateCnt.get 0 8, x.rateCnt.get 0 9
        , word (x.qLast * 2 ^ 56 + x.params.mode) ]) id) ∧
    (let p := mkPkt 0x0506 fn hdr ps
     let x := s.dev.stream p.target
     takesNow p s → streamQueryGo p s →
     streamEffect (.refQuery fn hdr ps) p s
       ([ refWord0 s.dev p.target, x.refCnt.get 0 1, x.refCnt.get 0 2, x.refCnt.get 0 3, x.refCnt.get 0 4, x.refCnt.get 0 5
        , x.refCnt.get 0 6, x.refCnt.get 0 7, x.refCnt.get 0 8, x.refCnt.get 0 9 ]) id) ∧
    (let p := mkPkt 0x0302 fn hdr ps
     takesNow p s → hdrBad p 0 192 = false → notOwner p (s.dev.streamOwner p.target) = false →
     streamEffect (.rasterQuery fn hdr ps) p s
       ((List.range 10).map fun i => reg s.dev (rLan p.target (8 + 8 * i))) id)

/-- REF.KEY and REF.REFRESH (R184, R186): FORCE asks for a key frame regardless; another key request is held, and counted in
KEY_HELD, while KEY_MIN_MS has not passed; a refresh request that arrives during a wave merges into it.
Where the rules leave a reading or a value open, this is the model's choice: notes/assumptions, entry 39. -/
def Obligations.KeyAndRefreshRequests : Prop :=
  ∀ (fn : Nat) (hdr : Word) (ps : List Word) (s : State),
    (let p := mkPkt 0x0502 fn hdr ps
     takesNow p s → streamGo p s 1 → within (p.w 1) 1 = true →
     recordEffect (.refKey fn hdr ps) p s fun x =>
       if p.b 1 0 then { x with ref := { x.ref with keyForced := true } }
       else if keyOpen s.dev x.ref x.ref.cfg.keyMinMs then { x with ref := { x.ref with keyReq := true } }
       else { x with ref := { x.ref with keyReq := true, keyHeldRaised := true },
                     refCnt := x.refCnt.set 0 8 (errAdd (x.refCnt.get 0 8) 1) }) ∧
    (let p := mkPkt 0x0503 fn hdr ps
     takesNow p s → streamGo p s 0 →
     recordEffect (.refRefresh fn hdr ps) p s fun x =>
       if x.ref.wave.isSome then x else { x with ref := { x.ref with refreshReq := true } })

/-- REF.ACK of an acknowledgement that counts (R174): LAST_ACK of its recipient becomes the frame of the entry whose LAST_SEQ it
names, ACKED of the recipient's group rises by one in that entry and in no other, and ACK_COUNTED rises by one. REF.LOSS (R180): the recipient is marked, PENDING of its group is set, and LOST becomes the frame of the entry that holds SEQ
(LAST_ACK + 1, or the latest key frame, where COUNT is 0), unless an earlier frame is marked already.
Where the rules leave a reading or a value open, this is the model's choice: notes/assumptions, entry 39. -/
def Obligations.AckAndLoss : Prop :=
  (∀ (fn : Nat) (hdr : Word) (ps : List Word) (s : State) (e : AckEntry),
    let p := mkPkt 0x0504 fn hdr ps
    let r := p.f 1 45 32
    let n := p.target
    let x := s.dev.recip r
    takesNow p s → streamGo p s 1 → within (p.w 1) (ones 45 0) = true → detached s.dev p = false →
    ((s.dev.stream n).ref.table.find? fun e => e.lastSeq == p.f 1 31 0) = some e →
    x.marked = false → x.silent = false → countsFor x e.frame = true →
    (x.lastAck = noAck ∨ frameAfter e.frame x.lastAck = true) →
    ∃ t, exec (.refAck fn hdr ps) s = .next (answered p t stOk [] n) ∧
      t.dev.recip r = { x with lastAck := e.frame, lastAckTime := s.dev.now } ∧
      ((t.dev.stream n).ref.table.map fun y => (y.frame, y.acked)) =
        ((s.dev.stream n).ref.table.map fun y =>
          (y.frame, if y.frame = e.frame then (groups y.acked 0).set x.group ((groups y.acked 0).getD x.group 0 + 1) else y.acked)) ∧
      (t.dev.stream n).refCnt.get 0 4 = (s.dev.stream n).refCnt.get 0 4 + 1 ∧
      onlyRecip r n s t) ∧
  (∀ (fn : Nat) (hdr : Word) (ps : List Word) (s : State),
    let p := mkPkt 0x0505 fn hdr ps
    let r := p.f 1 45 32
    let n := p.target
    let x := s.dev.recip r
    takesNow p s → streamGo p s 1 → within (p.w 1) (ones 63 48 ||| ones 45 0) = true → detached s.dev p = false →
    ∃ t, exec (.refLoss fn hdr ps) s = .next (answered p t stOk [] n) ∧
      (t.dev.recip r).marked = true ∧
      (x.group < 8 → (t.dev.stream n).ref.pending.getD x.group false = true) ∧
      (∀ e, p.f 1 63 48 ≠ 0 → entryOfSeq (s.dev.stream n).ref (p.f 1 31 0) = some e → x.marked = false →
        (t.dev.recip r).lost = e.frame % two32) ∧
      (p.f 1 63 48 = 0 → x.marked = false →
        (t.dev.recip r).lost = if x.lastAck = two32 - 1 then (s.dev.stream n).ref.lastKeyFrame else (x.lastAck + 1) % two32) ∧
      (∀ f, x.marked = true → x.lost = f → (t.dev.recip r).lost = f ∨ frameAfter f (t.dev.recip r).lost = true) ∧
      onlyRecip r n s t)

/-- STREAM.ASSIGN by the PF moves the ownership of a stream, or of a decode context, and of no other (R20, R392). -/
def Obligations.AssignMovesOwnership : Prop :=
  ∀ (fn : Nat) (hdr : Word) (ps : List Word) (s : State),
    let p := mkPkt 0x0204 fn hdr ps
    takesNow p s → fn = 0 → hdrBad p 1 (if p.b 1 63 then 96 else 192) = false →
    within (p.w 1) (ones 63 63 ||| ones 7 0) = true → s.dev.functionOn (p.f 1 7 0) = true →
    ∃ t, exec (.streamAssign fn hdr ps) s = .next (answered p t stOk [] p.target) ∧
      (p.b 1 63 = false → t.dev.streamOwner p.target = p.f 1 7 0) ∧
      (p.b 1 63 = true → t.dev.ctxOwner p.target = p.f 1 7 0) ∧
      (∀ n, (p.b 1 63 = true ∨ n ≠ p.target) → t.dev.streamOwner n = s.dev.streamOwner n) ∧
      (∀ c, (p.b 1 63 = false ∨ c ≠ p.target) → t.dev.ctxOwner c = s.dev.ctxOwner c) ∧
      t.dev.core = { s.dev.core with sOwner := t.dev.sOwner, cOwner := t.dev.cOwner } ∧ sameOutside s t ∧
      sameRegs s.dev t.dev

/-- RASTER.CONFIG commits the three Lantern registers of its stream at once, and RASTER.CLEAR clears exactly the error counters
whose bits are set (R42, R396, R551). -/
def Obligations.RasterCommandsWriteTheLantern : Prop :=
  ∀ (fn : Nat) (hdr : Word) (ps : List Word) (s : State),
    (let p := mkPkt 0x0301 fn hdr ps
     let n := p.target
     takesNow p s → streamGo p s 3 →
     within (p.w 1) (ones 49 44 ||| ones 31 0) = true → within (p.w 2) (ones 63 32 ||| ones 15 0) = true →
     within (p.w 3) (ones 31 0) = true →
     100 ≤ p.f 1 31 16 → p.f 1 31 16 ≤ 16000 → p.f 1 15 0 ≤ 1024 → p.f 1 47 45 ≤ 4 → p.f 1 49 48 ≤ 1 → p.f 2 15 0 ≠ 0 →
     ∃ t, exec (.rasterConfig fn hdr ps) s = .next (answered p t stOk [] n) ∧
       reg t.dev (rLan n oLanCtrl) = p.w 1 ∧ reg t.dev (rLan n oLanSync) = p.w 2 ∧ reg t.dev (rLan n oLanStall) = p.w 3 ∧
       (∀ a, ¬ eventPage a → ¬ ringPage a → a ≠ rLan n oLanCtrl → a ≠ rLan n oLanSync → a ≠ rLan n oLanStall →
         reg t.dev a = reg s.dev a) ∧
       t.dev.core = { s.dev.core with shadow := t.dev.shadow } ∧ sameOutside s t) ∧
    (let p := mkPkt 0x0303 fn hdr ps
     let n := p.target
     takesNow p s → streamGo p s 1 → within (p.w 1) (ones 3 0) = true →
     ∃ t, exec (.rasterClear fn hdr ps) s = .next (answered p t stOk [] n) ∧
       (∀ i a, (i, a) ∈ [(0, rLan n oLanIgnored), (1, rLan n oLanSkipped), (2, rLan n oLanLate), (3, rLan n oLanRepeat)] →
         reg t.dev a = if p.b 1 i then 0 else reg s.dev a) ∧
       (∀ a, ¬ eventPage a → ¬ ringPage a →
         a ∉ [rLan n oLanIgnored, rLan n oLanSkipped, rLan n oLanLate, rLan n oLanRepeat] → reg t.dev a = reg s.dev a) ∧
       t.dev.core = s.dev.core ∧ sameOutside s t)

/-- STREAM.OPEN that finds its stream FREE, words within their limits and capacity takes the placement, starts the set-up and
replies when the set-up is done (R14, R27, R37, R38, R390). No other stream moves.
Where the rules leave a reading or a value open, this is the model's choice: notes/assumptions, entries 16 and 21. -/
def Obligations.OpenStartsTheSetUp : Prop :=
  ∀ (fn : Nat) (hdr : Word) (ps : List Word) (s : State) (n : Nat) (d : Dev),
    let p := mkPkt 0x0201 fn hdr ps
    let c := cfgOf p
    let rp := c.rateOf (p.w 7) (p.w 8) (p.w 9)
    takesNow p s → hdrBadOpen p 9 192 = false →
    (if p.target = 0xFFFF then fn = 0 ∧ openTarget s.dev p = some n
     else notOwner p (s.dev.streamOwner p.target) = false ∧ n = p.target) →
    memGranted s.dev fn c.ringBase (c.slotCount * c.slotStride) true = true →
    (s.dev.stream n).phase = .free → (s.dev.stream n).arming = false →
    openWordsOk p = true → c.ok = true → c.rateOk rp = true →
    admitStream (taken p s).dev n c rp = some d →
    ∃ t, exec (.streamOpen fn hdr ps) s = .next t ∧
      (t.dev.stream n).arming = true ∧ (t.dev.stream n).phase = .free ∧ (t.dev.stream n).cfg = c ∧ (t.dev.stream n).params = rp ∧
      (t.dev.stream n).parts = (d.stream n).parts ∧
      t.dev.rings = s.dev.rings ++ [{ fn := fn, hdr := p.hdr, target := n, tag := none, results := openResults (d.stream n) }] ∧
      (∀ m, m ≠ n → t.dev.stream m = s.dev.stream m) ∧
      t.dev.core = { s.dev.core with streams := t.dev.streams, allocs := t.dev.allocs, rings := t.dev.rings } ∧ sameOutside s t

/-- STREAM.CLOSE of an ADMITTED or RUNNING stream makes it CLOSING; the reply waits for the close to complete (R33, R34). STREAM_SETUP_DONE makes an arming stream ADMITTED and posts the reply of its STREAM.OPEN; STREAM_CLOSE_DONE returns a CLOSING
stream with nothing left to FREE and posts the reply of its STREAM.CLOSE; then packets that were held are taken (R34, R37, R38,
R397).
Where the rules leave a reading or a value open, this is the model's choice: notes/assumptions, entries 16 and 37. -/
def Obligations.StreamsSettle : Prop :=
  (∀ (fn : Nat) (hdr : Word) (ps : List Word) (s : State),
    let p := mkPkt 0x0202 fn hdr ps
    let n := p.target
    takesNow p s → streamGo p s 1 → within (p.w 1) 1 = true →
    ∃ t, exec (.streamClose fn hdr ps) s = .next t ∧
      (t.dev.stream n).phase = .closing ∧ ((t.dev.stream n).abort = true ↔ p.b 1 0 = true ∨ (s.dev.stream n).abort = true) ∧
      (t.dev.stream n).cfg = (s.dev.stream n).cfg ∧
      t.dev.rings = s.dev.rings ++ [{ fn := fn, hdr := p.hdr, target := n, tag := none, results := [] }] ∧
      (∀ m, m ≠ n → (t.dev.stream m).phase = (s.dev.stream m).phase ∧ (t.dev.stream m).cfg = (s.dev.stream m).cfg) ∧
      onlyRecords s t) ∧
  (∀ (n : Fin 192) (s : State), working s.dev = true →
    ((s.dev.stream n.val).arming = true →
      ∃ t, (s.dev.submitted = [] → exec (.streamSetupDone n) s = .next t) ∧ exec (.streamSetupDone n) s = .next (drain t) ∧
        t.dev.stream n.val = { s.dev.stream n.val with arming := false, phase := .admitted } ∧
        t.dev.rings = s.dev.rings.filter (fun o => !(fld o.hdr 63 48 == 0x0201 && o.target == n.val)) ∧
        (∀ m, m ≠ n.val → t.dev.stream m = s.dev.stream m) ∧
        t.dev.core = { s.dev.core with streams := t.dev.streams, rings := t.dev.rings } ∧ sameOutside s t) ∧
    (closeReady s.dev n.val = true →
      ∃ t, (s.dev.submitted = [] → exec (.streamCloseDone n) s = .next t) ∧ exec (.streamCloseDone n) s = .next (drain t) ∧
        (t.dev.stream n.val).phase = .free ∧ (t.dev.stream n.val).parts = [] ∧ (t.dev.stream n.val).staged = [] ∧
        (∀ r, (t.dev.recip r).valid = true → (s.dev.recip r).valid = true ∧ (s.dev.recip r).stream ≠ n.val) ∧
        t.dev.rings = s.dev.rings.filter (fun o => !(fld o.hdr 63 48 == 0x0202 && o.target == n.val)) ∧ onlyRecord n.val s t))

/-! ### The Lantern -/

/-- RASTER_TOKEN (R43, R44): a token of the frame in progress with a greater row count sets LANTERN_ROWS to it, counts in
LANTERN_TOKENS, stamps LANTERN_LAST_PTP and moves nothing else; a narrow write, and a token that goes back, are counted in
LANTERN_IGNORED and move nothing else.
Where the rules leave a reading or a value open, this is the model's choice: notes/assumptions, entry 31. -/
def Obligations.TokensAdvanceTheLantern : Prop :=
  ∀ (m : Nat) (n : Fin 192) (v : Word) (s : State),
    working s.dev = true → barGranted s.dev m (rLan n.val oLanToken) true = true →
    (let x := s.dev.stream n.val
     let r := min (fld v 23 8) x.cfg.height
     lanOpen x = true → x.ghost = none → lanSrc s.dev n.val = 0 → fld v 63 56 = n.val → fld v 6 0 = 0 → lanSynced s.dev n.val = true →
     fld v 55 24 = lanFrame s.dev n.val →
     (x.stallClosed = false → lanRows s.dev n.val < r → bit v 7 = false →
       ∃ t, exec (.rasterToken m n v true) s = .next t ∧
         lanRows t.dev n.val = r ∧ lanFrame t.dev n.val = lanFrame s.dev n.val ∧ lanClosed t.dev n.val = lanClosed s.dev n.val ∧
         reg t.dev (rLan n.val oLanTokens) = reg s.dev (rLan n.val oLanTokens) + 1 ∧
         reg t.dev (rLan n.val oLanLastPtp) = timeWord s.dev ∧
         t.dev.stream n.val = { x with lastAdvance := s.dev.now, stallRaised := false } ∧
         (∀ a, ¬ eventPage a → a ≠ rLan n.val oLanRows → a ≠ rLan n.val oLanTokens → a ≠ rLan n.val oLanLastPtp →
           reg t.dev a = reg s.dev a) ∧
         (∀ k, k ≠ n.val → t.dev.stream k = s.dev.stream k) ∧
         t.dev.core = { s.dev.core with streams := t.dev.streams } ∧ sameOutside s t) ∧
     (r ≤ lanRows s.dev n.val → bit v 7 = false →
       ∃ t, exec (.rasterToken m n v true) s = .next t ∧
         reg t.dev (rLan n.val oLanIgnored) = errAdd (reg s.dev (rLan n.val oLanIgnored)) 1 ∧
         (∀ a, a ≠ rLan n.val oLanIgnored → reg t.dev a = reg s.dev a) ∧
         t.dev = { s.dev with regs := t.dev.regs } ∧ sameOutside s t)) ∧
    (∃ t, exec (.rasterToken m n v false) s = .next t ∧
       reg t.dev (rLan n.val oLanIgnored) = errAdd (reg s.dev (rLan n.val oLanIgnored)) 1 ∧
       (∀ a, a ≠ rLan n.val oLanIgnored → reg t.dev a = reg s.dev a) ∧
       t.dev = { s.dev with regs := t.dev.regs } ∧ sameOutside s t)

/-- RASTER_SYNC_PULSE and LANTERN_ROW_TIMER (R46): an accepted edge is stamped, and raises the row count of a Lantern that follows
this input alone by ROWS_PER_PULSE up to H in SYNC_MODE 0; an edge shorter than 100 ns, or less than 500 ns after one, does
nothing; the row timer of SYNC_MODE 1 raises the row count by one at its time. STALL (R57): once per stalled interval, STALL_US after the last advance; where STALL_FILL is 0 the frame stays open.
Where the rules leave a reading or a value open, this is the model's choice: notes/assumptions, entry 30. -/
def Obligations.SyncPulsesTimersAndStalls : Prop :=
  (∀ (s : State), working s.dev = true →
    (∀ (i : Fin 4) (highNs : Nat),
      100 ≤ highNs → (s.dev.syncAt.get 0 i.val = 0 ∨ s.dev.syncAt.get 0 i.val + 500 ≤ s.dev.now + 1) →
      ∃ t, exec (.rasterSyncPulse i highNs) s = .next t ∧ t.dev.syncAt.get 0 i.val = s.dev.now + 1 ∧ sameOutside s t ∧
        ∀ n : Fin 192, lanOpen (s.dev.stream n.val) = true → lanSrc s.dev n.val = i.val + 1 →
          (∀ k : Fin 192, k ≠ n → ¬ (lanOpen (s.dev.stream k.val) = true ∧ lanSrc s.dev k.val = i.val + 1)) →
          fld (lanCtrl s.dev n.val) 49 48 = 0 → lanSynced s.dev n.val = true →
          lanRows s.dev n.val < (s.dev.stream n.val).cfg.height → (s.dev.stream n.val).cfg.height < 65536 →
          lanRows t.dev n.val =
            min (lanRows s.dev n.val + regFld s.dev (rLan n.val oLanSync) 15 0) (s.dev.stream n.val).cfg.height) ∧
    (∀ (i : Fin 4) (highNs : Nat),
      (highNs < 100 ∨ (s.dev.syncAt.get 0 i.val ≠ 0 ∧ s.dev.now + 1 < s.dev.syncAt.get 0 i.val + 500)) →
      exec (.rasterSyncPulse i highNs) s = .next s) ∧
    (∀ (n : Fin 192) (at_ : Nat),
      (s.dev.stream n.val).rowTimer = some at_ → lanOpen (s.dev.stream n.val) = true → (s.dev.stream n.val).ghost = none →
      lanRows s.dev n.val + 1 < (s.dev.stream n.val).cfg.height → (s.dev.stream n.val).cfg.height < 65536 →
      ∃ t, exec (.lanternRowTimer n) s = .next t ∧
        lanRows t.dev n.val = lanRows s.dev n.val + 1 ∧ t.dev.now = max s.dev.now at_ ∧
        t.dev.stream n.val = { s.dev.stream n.val with
          lastAdvance := max s.dev.now at_, stallRaised := false
          rowTimer := some (at_ + regFld s.dev (rLan n.val oLanSync) 63 32) } ∧
        (∀ a, a ≠ rLan n.val oLanRows → reg t.dev a = reg s.dev a) ∧
        (∀ k, k ≠ n.val → t.dev.stream k = s.dev.stream k) ∧ sameOutside s t)) ∧
  (∀ (n : Fin 192) (s : State),
    working s.dev = true → lanOpen (s.dev.stream n.val) = true → (s.dev.stream n.val).ghost = none → lanSynced s.dev n.val = true →
    regFld s.dev (rLan n.val oLanStall) 31 0 ≠ 0 →
    ((s.dev.stream n.val).stallRaised = true ∨ (s.dev.stream n.val).rowTimer.isSome = true → exec (.stall n) s = .next s) ∧
    ((s.dev.stream n.val).stallRaised = false → (s.dev.stream n.val).rowTimer = none → regBit s.dev (rLan n.val oLanCtrl) 44 = false →
      ∃ t, exec (.stall n) s = .next t ∧
        t.dev.now = max s.dev.now ((s.dev.stream n.val).lastAdvance + regFld s.dev (rLan n.val oLanStall) 31 0 * 1000) ∧
        t.dev.stream n.val = { s.dev.stream n.val with stallRaised := true } ∧
        (∀ a, ¬ eventPage a → reg t.dev a = reg s.dev a) ∧
        (∀ k, k ≠ n.val → t.dev.stream k = s.dev.stream k) ∧ sameOutside s t) ∧
    ((s.dev.stream n.val).stallRaised = false → (s.dev.stream n.val).rowTimer = none → regBit s.dev (rLan n.val oLanCtrl) 44 = true → lanClosed s.dev n.val = false →
      ∃ t, exec (.stall n) s = .next t ∧ (t.dev.stream n.val).stallClosed = true ∧ lanClosed t.dev n.val = true ∧
        (t.dev.stream n.val).stallRaised = true ∧ sameOutside s t))

/-- BAND_ELIGIBLE (R47 to R49): the next band of the Lantern's frame, once its threshold is reached, joins the stream's bands with
the next sequence number and a deadline BUDGET_US later. -/
def Obligations.BandsBecomeEligible : Prop :=
  ∀ (n : Fin 192) (s : State),
    let x := s.dev.stream n.val
    working s.dev = true → (lanOpen x = true ∨ (x.phase = .closing ∧ x.abort = false)) →
    lanSynced s.dev n.val = true → x.skipFrame = false → x.nextBand < x.cfg.bands →
    thresholdOf s.dev n.val x.nextBand ≤ readyRows s.dev n.val →
    ∃ t b l, exec (.bandEligible n) s = .next t ∧ (t.dev.stream n.val).bands = x.bands ++ b :: l ∧
      b.seq = x.nextSeq ∧ b.frame = lanFrame s.dev n.val ∧ b.b = x.nextBand ∧ b.stage = .waiting ∧ b.rep = false ∧
      b.eligibleAt = s.dev.now ∧ b.deadline = s.dev.now + regFld s.dev (rLan n.val oLanCtrl) 31 16 * 1000 ∧
      (t.dev.stream n.val).nextBand = x.nextBand + 1 + l.length ∧
      (∀ a, a ≠ rLan n.val oLanRows → reg t.dev a = reg s.dev a) ∧
      (∀ k, k ≠ n.val → t.dev.stream k = s.dev.stream k) ∧
      t.dev = { s.dev with streams := t.dev.streams, regs := t.dev.regs } ∧ sameOutside s t

/-! ### The Galleries -/

/-- BAND_DISPATCH and OVERRUN (R51, R54, R101): a free Gallery takes the candidate that R51 picks; its coding starts now with nothing coded,
its headers stand with the bytes that they take, and its item, not yet readable, is the last of the FIFO. A band that still waits a frame
time after its deadline is dispatched as a repeat band. -/
def Obligations.DispatchTakesTheCandidate : Prop :=
  ∀ (g : Fin 26) (s : State) (n : Nat) (b : Band),
    working s.dev = true → pickBand s.dev g.val = some (n, b) → bandAt (s.dev.stream n) b.seq = some b →
    (galFree s.dev g.val = true →
      ∃ t c, exec (.bandDispatch g ()) s = .next t ∧ t.dev = (onFifo g.val (fun _ => dispatchBand s g.val n b) s).dev ∧
        (t.dev.gal g.val).cur = some (n, b.seq) ∧ bandAt (t.dev.stream n) b.seq = some c ∧
        c.stage = .coding ∧ c.gal = g.val ∧ c.startAt = s.dev.now ∧ c.sbDone = 0 ∧ c.bits0 = 0 ∧ c.coded0 = [] ∧
        c.frame = b.frame ∧ c.b = b.b ∧ c.n = b.n ∧ c.deadline = b.deadline ∧
        c.hdrBytes = total (c.hdr.map List.length) ∧ (∀ k, b.resend = true → b.charge = some k → c.limit = k) ∧
        (t.dev.gal g.val).fifo.length = (s.dev.gal g.val).fifo.length + 1 ∧
        ((t.dev.gal g.val).fifo.getLast?.map fun it => (it.stream, it.seq, it.valid, it.count)) = some (n, b.seq, false, 0) ∧
        t.dev.now = s.dev.now ∧ onlyGal g.val s t ∧ onlyFifoRecord g.val n s t) ∧
    (let late := b.deadline + (s.dev.stream n).cfg.frameNs
     let s' := s.onDev fun d => advance d late
     galFree s'.dev g.val = true →
      ∃ t c, exec (.overrun g ()) s = .next t ∧ t.dev = (onFifo g.val (fun _ => dispatchBand s' g.val n b) s').dev ∧
        (t.dev.gal g.val).cur = some (n, b.seq) ∧ bandAt (t.dev.stream n) b.seq = some c ∧
        c.stage = .coding ∧ c.gal = g.val ∧ c.rep = true ∧ c.frame = b.frame ∧ c.b = b.b ∧ c.sbDone = 0 ∧
        c.startAt = max s.dev.now late ∧ t.dev.now = max s.dev.now late ∧ onlyGal g.val s t ∧
        onlyFifoRecord g.val n s t)

/-- SUPERBLOCK_CODE and BAND_OCCUPANCY_END (R52, R60, R81, R148 to R150, R350): the next superblock of the band in progress enters 0.25 µs or 4.0 µs
after the one before it; it is the one that its inputs decide, with the bits that it takes, and takes at most its limit wherever
its limit holds an all-skip or intra-floor superblock; while the headers, what is written, and the floor cost of the superblocks still
to come fit in the band's limit, they fit in it after the next superblock too. After the last one the occupancy ends 0.25, 4.0 or 5.4 µs for each superblock after
the dispatch, a scheduled band has its variant coded, and the band drains.
Where the rules leave a reading or a value open, this is the model's choice: notes/assumptions, entries 32, 88 and 91. -/
def Obligations.SuperblocksThenDrain : Prop :=
  ∀ (g : Fin 26) (s : State) (n seq : Nat) (b : Band),
    working s.dev = true → (s.dev.gal g.val).cur = some (n, seq) → bandAt (s.dev.stream n) seq = some b → b.gal = g.val →
    (b.sbDone < b.n →
      let s' := s.onDev fun d => runSequencer (advance d (b.startAt + b.sbDone * (if allSkip b then 250 else 4000))) g.val
      let x := nextSb s' n b
      ∃ t c, galEffect (.superblockCode g ()) s t ∧ bandAt (t.dev.stream n) seq = some c ∧
        c = { bandAfter (s'.dev.stream n) b x.1 x.2 with runAt := c.runAt, routinesDone := c.routinesDone } ∧ c.sbDone = b.sbDone + 1 ∧ c.bits0 = b.bits0 + x.1.bits ∧ c.stage = b.stage ∧
        (allSkip b = true → x.1.bits ≤ sbBound (s.dev.stream n) b b.sbDone) ∧
        (allSkip b = false → sbBound (s.dev.stream n) b b.sbDone ≤ sbLimit (s.dev.stream n) b b.sbDone b.bits0 →
          x.1.bits ≤ sbLimit (s.dev.stream n) b b.sbDone b.bits0) ∧
        (8 * b.hdrBytes + b.bits0 + sbBound (s.dev.stream n) b b.sbDone + laterFloor (s.dev.stream n) b b.sbDone ≤ b.limit →
          8 * c.hdrBytes + c.bits0 + laterFloor (t.dev.stream n) c b.sbDone ≤ c.limit) ∧
        t.dev.now = max s.dev.now (b.startAt + b.sbDone * (if allSkip b then 250 else 4000)) ∧
        (t.dev.gal g.val).cur = some (n, seq) ∧ (t.dev.gal g.val).closing = (s.dev.gal g.val).closing ∧
        (t.dev.gal g.val).fifo = (s.dev.gal g.val).fifo ∧ onlyGal g.val s t ∧
        (∀ k, k ≠ n → sameButRuns (s.dev.stream k) (t.dev.stream k)) ∧ onlyFifoRecord g.val n s t) ∧
    (b.n ≤ b.sbDone →
      let v := if b.sched then codeVariant s n b else b
      ∃ t c, exec (.bandOccupancyEnd g) s = .next t ∧ bandAt (t.dev.stream n) seq = some c ∧
        c = { v with stage := .draining, closeAt := b.startAt + b.n * sbTime v + 6000, runAt := c.runAt, routinesDone := c.routinesDone } ∧
        t.dev.now = max s.dev.now (b.startAt + b.n * sbTime v) ∧
        (t.dev.gal g.val).cur = none ∧ (t.dev.gal g.val).closing = (s.dev.gal g.val).closing ++ [(n, seq)] ∧ onlyGal g.val s t ∧
        (∀ k, k ≠ n → sameButRuns (s.dev.stream k) (t.dev.stream k)) ∧ (b.sched = false → b.vein = false → ∀ a, reg t.dev a = reg s.dev a) ∧ sameOutside s t)

/-- BAND_COMMIT (R96, R101, R102, R104, R150): the band that drains first is committed with the length of its bitstream, and charged once: at
its first commit the larger of its variants' costs. Where it fits, its items stand readable in its place of the FIFO, the two variants of a
Vein band one after the other; else a gap marker of cause 1 takes its place and the drop is counted. BAND_CLOSE (R84 to R86, R90, R227): a
committed band whose band above has closed closes at its time, with its CRC record, its picture's filtered rows, and its checkpoint
image.
Where the rules leave a reading or a value open, this is the model's choice: notes/assumptions, entries 33, 35, 78, 89, 91 and 92. -/
def Obligations.CommitThenClose : Prop :=
  ∀ (g : Fin 26) (s : State) (n seq : Nat) (b : Band), working s.dev = true → bandAt (s.dev.stream n) seq = some b →
    (commitsNext s.dev g.val = some (n, seq) →
      let len0 := (variantBytes (s.dev.stream n) b 0).length
      let len1 := if b.vein then (variantBytes (s.dev.stream n) b 2).length else 0
      let done := { b with len0 := len0, len1 := len1, stage := .committed, charge := some (b.charge.getD (8 * max len0 len1)) }
      ∃ t, galEffect (.bandCommit g () ()) s t ∧ t = commitBand s g.val ∧ t.dev.now = max s.dev.now (b.closeAt - 3300) ∧
        (∀ c, bandAt (t.dev.stream n) seq = some c → c.stage = .committed ∧ c.len0 = len0 ∧ c.len1 = len1 ∧ c.charge = done.charge) ∧
        (fits (onBand (advance s.dev (b.closeAt - 3300)) n seq fun _ => done) g.val n seq (bandItems n done) = true →
          (∃ r, bandAt (t.dev.stream n) seq = some { done with runAt := r }) ∧
          (t.dev.gal g.val).fifo.map (fun it => { it with place := none }) =
            (replaceItems (s.dev.gal g.val).fifo n seq (bandItems n done)).map (fun it => { it with place := none })) ∧
        (fits (onBand (advance s.dev (b.closeAt - 3300)) n seq fun _ => done) g.val n seq (bandItems n done) = false →
          (∃ r, bandAt (t.dev.stream n) seq = some { done with dropped := true, runAt := r }) ∧
          reg t.dev (rGal g.val oFifoDrops) = errAdd (reg s.dev (rGal g.val oFifoDrops)) 1 ∧
          (∀ it ∈ (t.dev.gal g.val).fifo, it.isOf n seq = false)) ∧
        (∀ k, k ≠ n → sameButRuns (s.dev.stream k) (t.dev.stream k)) ∧ onlyGal g.val s t ∧ onlyFifo g.val s t) ∧
    (closesNext s.dev g.val = some (n, b) → b.seq = seq → heldByAbove (s.dev.stream n) b = false →
      let base := storeBase s.dev n (picOf (s.dev.stream n) b.frame).unit
      let units := unitCount (s.dev.stream n).cfg
      ∃ t c, exec (.bandClose g) s = .next t ∧ t = closeBand s g.val ∧ bandAt (t.dev.stream n) seq = some c ∧
        c.stage = .closed ∧ c.closedOnce = true ∧ c.crc0 = (crcRecord s n b).crc0 ∧ c.edge0 = (crcRecord s n b).edge0 ∧
        (∀ r ∈ (t.dev.stream n).recs, r.frame = b.frame → r = picAtClose s n b) ∧
        (∃ i ∈ (t.dev.stream n).images, i.seq = seq ∧ i.lost = b.dropped ∧ i.frame = b.frame ∧ i.b = b.b) ∧
        (t.dev.gal g.val).closing = (s.dev.gal g.val).closing.erase (n, seq) ∧ t.dev.now = max s.dev.now b.closeAt ∧
        (∀ k, k ≠ n → t.dev.stream k = s.dev.stream k) ∧ onlyGal g.val s t ∧
        t.pending = s.pending ∧ t.memGen = s.memGen ∧ t.nv = s.nv ∧
        (∀ a, ¬ inRecord n a → (a < base ∨ base + 160 * units + (units + 1) / 2 ≤ a) → t.byte a = s.byte a))

/-- A verdict of Echo (R198, R199, R230) falls on the band that closed first, by the first check of R198 that what it found fails: it is
counted, PASS verifies the band, and a FAIL is counted and recorded in ECHO_WINDOW with its code. PASS falls exactly where the CRCs, the
boundary CRCs, the lengths, the headers and, outside the variant superblocks, the variants agree (R200). MISSED (R251): the oldest band that is
due and not accounted is accounted missed once device time passes its deadline and a band time: DUE and MISSED of R252 rise by one.
Where the rules leave a reading or a value open, this is the model's choice: notes/assumptions, entry 35. -/
def Obligations.VerdictsAndMissedBands : Prop :=
  (∀ (g : Fin 26) (f : EchoFindings) (differs : List Nat) (s : State) (n : Nat) (b : Band),
    let cause := causeOf (s.dev.stream n) b f differs
    working s.dev = true → retired s.dev g.val = false → nextVerdict s.dev g.val = some (n, b) →
    let d := readBlocks (prefetch s.dev g.val n b true) g.val n true (b.coded0.flatMap fun x => x.blocks)
    ∃ t, galEffect (.verdict g f differs) s t ∧
      t.dev = giveVerdict (d.onStream n fun st => takeEchoState st b f) g.val n b cause ∧
      reg t.dev (rGal g.val oEchoVerdicts) = reg s.dev (rGal g.val oEchoVerdicts) + 1 ∧
      (cause = 0 → reg t.dev (rGal g.val oEchoFails) = reg s.dev (rGal g.val oEchoFails) ∧
        ∀ c, bandAt (t.dev.stream n) b.seq = some c → c.verified = true ∧ c.verdict = some 0) ∧
      (cause ≠ 0 → reg t.dev (rGal g.val oEchoFails) = errAdd (reg s.dev (rGal g.val oEchoFails)) 1 ∧
        reg t.dev (rGal g.val oEchoWindow) = word (n % 256 * 2 ^ 56 + cause * 2 ^ 32 + b.seq % two32)) ∧
      (t.dev.gal g.val).window = ((cause != 0) :: (s.dev.gal g.val).window).take 64 ∧ onlyRecords s t) ∧
  (∀ (n : Fin 192) (s : State) (b : Band), working s.dev = true →
    oldestDue s.dev n.val = some b → bandAt (s.dev.stream n.val) b.seq = some b → counted (s.dev.stream n.val) = true →
    ∃ t c, exec (.missed n) s = .next t ∧ bandAt (t.dev.stream n.val) b.seq = some c ∧ c.accounted = true ∧
      t.dev.now = max s.dev.now (b.deadline + (s.dev.stream n.val).cfg.bandNs + 1) ∧
      (t.dev.stream n.val).availCnt.get 0 4 = (s.dev.stream n.val).availCnt.get 0 4 + 1 ∧
      (t.dev.stream n.val).availCnt.get 0 7 = errAdd ((s.dev.stream n.val).availCnt.get 0 7) 1 ∧
      (∀ w, w ≠ 4 → w ≠ 7 → (t.dev.stream n.val).availCnt.get 0 w = (s.dev.stream n.val).availCnt.get 0 w) ∧
      (∀ k, k ≠ n.val → t.dev.stream k = s.dev.stream k) ∧ (∀ a, ¬ eventPage a → reg t.dev a = reg s.dev a) ∧ onlyRecord n.val s t) ∧
  (∀ (st : Stream) (b : Band) (f : EchoFindings) (differs : List Nat),
      let crcOk := f.crc0 = b.crc0 ∧ (b.vein = true → variantCrcs st b f = b.crc1)
      let edgeOk := f.edge0 = b.edge0 ∧ (b.vein = true → f.edge1 = b.edge1)
      let syntaxOk := f.undecodable = false ∧ f.len0 = b.len0 ∧ (b.vein = true → f.len1 = b.len1)
      let headersOk := f.headers0 = expectedHeaders st b 0 ∧ (b.vein = true → f.headers1 = expectedHeaders st b 2)
      let sameOk := b.vein = true → ∀ i ∈ differs, ∃ e ∈ b.sums, e.1 = st.cfg.sbIndex b.b i
      (causeOf st b f differs = 0 ↔ crcOk ∧ edgeOk ∧ syntaxOk ∧ headersOk ∧ sameOk) ∧
      (causeOf st b f differs = 1 ↔ ¬ crcOk) ∧ (causeOf st b f differs = 2 ↔ crcOk ∧ ¬ edgeOk) ∧
      (causeOf st b f differs = 3 ↔ crcOk ∧ edgeOk ∧ ¬ syntaxOk) ∧ (causeOf st b f differs = 4 ↔ crcOk ∧ edgeOk ∧ syntaxOk ∧ ¬ headersOk) ∧
      (causeOf st b f differs = 5 ↔ crcOk ∧ edgeOk ∧ syntaxOk ∧ headersOk ∧ ¬ sameOk))

/-- SRAM_UNCORR, WATCHDOG of a running routine, POWER, and the fourth CONTROL_STORE_ERROR within one band, retire the Gallery with the
cause of R233, at their time, and it waits for its failover in the order of R238 (R89, R95, R97, R233, R238); an earlier
CONTROL_STORE_ERROR restarts the routine from its entry and is counted. Nothing of device memory moves but records of streams.
Where the rules leave a reading or a value open, this is the model's choice: notes/assumptions, entry 84. -/
def Obligations.GalleryFaultsRetire : Prop :=
  ∀ (g : Fin 26) (s : State), working s.dev = true → retired s.dev g.val = false →
    let retires : Nat → Nat → State → Prop := fun cause now t =>
      let sooner := fun (h : Nat) => (s.dev.gal h).retiredAt != now || decide (h < g.val)
      retired t.dev g.val = true ∧ regFld t.dev (rGal g.val oGalRetire) 63 56 = cause ∧ t.dev.now = now ∧
        reg t.dev (rGal g.val oGalRetireTime) = timeWord t.dev ∧
        t.dev.guide.moves = s.dev.guide.moves.takeWhile sooner ++ g.val :: s.dev.guide.moves.dropWhile sooner ∧
        (t.dev.gal g.val).cur = none ∧ (t.dev.gal g.val).closing = [] ∧ regBit t.dev rFltStatus 63 = true ∧ onlyRecords s t
    (∃ t, exec (.sramUncorr g) s = .next t ∧ retires 2 s.dev.now t ∧
      reg t.dev (rGal g.val oSramUe) = errAdd (reg s.dev (rGal g.val oSramUe)) 1) ∧
    (∃ t, exec (.power g) s = .next t ∧ retires 4 s.dev.now t) ∧
    (∀ n b, runningBand s.dev g.val = some (n, b) →
      ∃ t, exec (.watchdog g) s = .next t ∧ retires 3 (max s.dev.now (b.runAt + microwordNs (wdogLimit s.dev g.val + 1))) t) ∧
    (runningBand s.dev g.val = none → exec (.watchdog g) s = .next s) ∧
    (∀ n b, runningBand s.dev g.val = some (n, b) → 3 ≤ b.abandons →
      ∃ t, exec (.controlStoreError g) s = .next t ∧ retires 3 s.dev.now t) ∧
    (∀ n b, runningBand s.dev g.val = some (n, b) → b.abandons < 3 →
      ∃ t, exec (.controlStoreError g) s = .next t ∧
        (∀ c, bandAt (t.dev.stream n) b.seq = some c → ∃ y, bandAt (s.dev.stream n) b.seq = some y ∧
          c = { y with abandons := y.abandons + 1, runAt := s.dev.now }) ∧
        (∀ r, (routinesOn s.dev g.val).head? = some r →
          t.dev.gal g.val = { s.dev.gal g.val with uc := entryOf r.1, ucRun := 0, ucClock := coreClock s.dev }) ∧
        reg t.dev (rGal g.val oUcRestarts) = errAdd (reg s.dev (rGal g.val oUcRestarts)) 1 ∧
        (∀ a, ¬ eventPage a → a ≠ rGal g.val oUcRestarts → reg t.dev a = reg s.dev a) ∧
        t.dev.core = { s.dev.core with gals := t.dev.gals, streams := t.dev.streams } ∧ onlyGal g.val s t ∧ onlyStreams n s t ∧
        onlyRecords s t)

/-- SRAM_CORR (R89) is counted and is a class C fault: GAL_SRAM_CE and FLT_COUNT0 rise by one, and nothing but registers and
events moves. FLUSH and TIMEOUT of an output FIFO (R103, R105): after a flush the FIFO holds gap markers of cause 2 alone; a FIFO with a committed band that is unread for
TMO_US is counted once per unread interval. -/
def Obligations.SramErrorsAndFifoEvents : Prop :=
  (∀ (g : Fin 26) (s : State), alive s.dev = true →
    ∃ t, galEffect (.sramCorr g) s t ∧
      reg t.dev (rGal g.val oSramCe) = errAdd (reg s.dev (rGal g.val oSramCe)) 1 ∧
      reg t.dev (rFltCount 0) = errAdd (reg s.dev (rFltCount 0)) 1 ∧ regBit t.dev rFltStatus 55 = true ∧
      regBit t.dev (rCap 0 0) 63 = true ∧ t.dev.core = s.dev.core ∧ sameOutside s t) ∧
  (∀ (g : Fin 26) (s : State),
    (∀ m : Nat, alive s.dev = true → barGranted s.dev m (rGal g.val oFifoCtrl) true = true →
      ∃ t, galEffect (.flush m g) s t ∧ (∀ it ∈ (t.dev.gal g.val).fifo, it.count ≠ 0 ∧ it.cause = 2) ∧ onlyOutputs s t) ∧
    (working s.dev = true → regFld s.dev (rGal g.val oFifoCtrl) 31 0 ≠ 0 → (s.dev.gal g.val).readable = true →
      ((s.dev.gal g.val).tmoRaised = true → galEffect (.timeout g) s s) ∧
      ((s.dev.gal g.val).tmoRaised = false →
        ∃ t, galEffect (.timeout g) s t ∧ t.dev.gal g.val = { s.dev.gal g.val with tmoRaised := true } ∧
          reg t.dev (rGal g.val oFifoTmoCnt) = errAdd (reg s.dev (rGal g.val oFifoTmoCnt)) 1 ∧
          t.dev.now = max s.dev.now ((s.dev.gal g.val).lastRead + regFld s.dev (rGal g.val oFifoCtrl) 31 0 * 1000) ∧
          (∀ a, ¬ eventPage a → a ≠ rGal g.val oFifoTmoCnt → reg t.dev a = reg s.dev a) ∧
          t.dev.streams = s.dev.streams ∧ onlyGal g.val s t ∧ sameOutside s t)))

/-- FAILOVER (R238, R239, R241, R257) handles the oldest retirement: its parts go to the lowest-numbered reserve Gallery; GAL_RETIRE names
the one Gallery that took parts, or 255 for none or several; and then held packets are taken.
Where the rules leave a reading or a value open, this is the model's choice: notes/assumptions, entry 36. -/
def Obligations.FailoverHandlesTheOldest : Prop :=
  ∀ (s : State) (g : Fin 26) (rest : List Nat), working s.dev = true → s.dev.guide.moves = g.val :: rest →
    s.dev.guide.takeoverAt = none → partsOn s.dev g.val ≠ [] →
    let reserve := (List.range 26).find? fun u => isReserve s.dev u
    let d := { s.dev with guide := { s.dev.guide with moves := rest } }
    let targets := (placeEach d (fun _ => true) (byLoad (partsOn d g.val))).2.2.map fun x => x.2
    ∃ t, (s.dev.submitted = [] → exec .failover s = .next t) ∧ exec .failover s = .next (drain t) ∧ t.dev.guide.moves = rest ∧
      regFld t.dev (rGal g.val oGalRetire) 55 48 = (match reserve with | some u => u | none => (match uniq targets with | [u] => u | _ => 255)) ∧
      (∀ (u n i : Nat) (q : Part), reserve = some u → (s.dev.stream n).phase ≠ .closing →
        (s.dev.stream n).parts[i]? = some q → q.gal = g.val → ∃ r : Part, (t.dev.stream n).parts[i]? = some r ∧ r.gal = u ∧ r.load = q.load) ∧
      onlyRecords s t

/-! ### Ingest decoding -/

/-- DECODE.OPEN makes its context ADMITTED with the fields of its words; DECODE.RELEASE frees the slots whose frames are not after the
FRAME_SEQ named, and frames that waited for a slot are written; DECODE.RESYNC discards the input buffer and the pictures held; DECODE.CLEAR clears the error counters whose
bits are set; DECODE.QUERY answers its words (R16, R216, R223 to R225). -/
def Obligations.DecodeCommandsActOnTheirContext : Prop :=
  ∀ (fn : Nat) (hdr : Word) (ps : List Word) (s : State),
    (let p := mkPkt 0x0A01 fn hdr ps
     let x := ctxOf p
     ∀ c d, takesNow p s → hdrBadOpen p 8 96 = false →
     (if p.target = 0xFFFF then fn = 0 ∧ ctxTarget s.dev p = some c
      else notOwner p (s.dev.ctxOwner p.target) = false ∧ c = p.target) →
     (s.dev.ctx c).phase = .free → memGranted s.dev fn x.inBase x.inSize true = true →
     memGranted s.dev fn x.outBase (x.outSlots * x.outStride) true = true → ctxOk p = true →
     openCtx (taken p s).dev c x = some d →
     ∃ t, exec (.decodeOpen fn hdr ps) s = .next (answered p t stOk [] c) ∧ t.dev.ctx c = { x with cnt := (s.dev.ctx c).cnt } ∧
       t.dev.allocs = d.allocs ∧
       onlyCtx c s t ∧ t.dev.core = { s.dev.core with ctxs := t.dev.ctxs, allocs := t.dev.allocs } ∧ sameRegs s.dev t.dev ∧
       sameOutside s t) ∧
    (let p := mkPkt 0x0A03 fn hdr ps
     takesNow p s → ctxGo p s 1 → within (p.w 1) (ones 31 0) = true →
     let x := s.dev.ctx p.target
     let freed := { x with slots := x.slots.filter fun e => frameAfter e.2 (p.f 1 31 0) }
     ∃ t, exec (.decodeRelease fn hdr ps) s = .next (answered p t stOk [] p.target) ∧
       t = outputDue ((taken p s).onDev fun d => d.onCtx p.target fun _ => freed) p.target ∧ onlyCtx p.target s t ∧
       (dueFrames x x.waits = 0 →
         t.dev.ctx p.target = freed ∧ t.dev.core = { s.dev.core with ctxs := t.dev.ctxs } ∧ sameRegs s.dev t.dev ∧ sameOutside s t)) ∧
    (let p := mkPkt 0x0A04 fn hdr ps
     takesNow p s → ctxGo p s 0 →
     ∃ t, exec (.decodeResync fn hdr ps) s = .next (answered p t stOk [] p.target) ∧
       t.dev.ctx p.target = { s.dev.ctx p.target with units := [], auOpen := none, auDrop := false, fill := 0, pics := [], midUnit := false } ∧
       onlyCtx p.target s t ∧ t.dev.core = { s.dev.core with ctxs := t.dev.ctxs } ∧
       (∀ a, ¬ eventPage a → ¬ ringPage a → a ≠ rCh (192 + p.target) oChStatus → reg t.dev a = reg s.dev a) ∧ sameOutside s t) ∧
    (let p := mkPkt 0x0A05 fn hdr ps
     let x := s.dev.ctx p.target
     takesNow p s → hdrBad p 0 96 = false → notReader p (s.dev.ctxOwner p.target) = false →
     ∃ t, exec (.decodeQuery fn hdr ps) s = .next (answered p t stOk
         (word ((x.frameSeq - 1) % two32 * two32 + x.concealed.toNat * 2 + x.assured.toNat) ::
           [x.cnt.get 0 1, x.cnt.get 0 2, x.cnt.get 0 3, x.cnt.get 0 4, x.cnt.get 0 5, x.cnt.get 0 6, x.cnt.get 0 7, x.cnt.get 0 8,
            x.cnt.get 0 9]) p.target) ∧
       t.dev.core = s.dev.core ∧ sameRegs s.dev t.dev ∧ sameOutside s t) ∧
    (let p := mkPkt 0x0A06 fn hdr ps
     takesNow p s → ctxGo p s 1 → within (p.w 1) (ones 9 3) = true →
     ∃ t u, exec (.decodeClear fn hdr ps) s = .next (answered p t stOk [] p.target) ∧
       t.dev.ctx p.target = { s.dev.ctx p.target with cnt := u } ∧
       (∀ w, u.get 0 w = if 3 ≤ w ∧ w ≤ 9 ∧ p.b 1 w = true then 0 else (s.dev.ctx p.target).cnt.get 0 w) ∧
       onlyCtx p.target s t ∧ t.dev.core = { s.dev.core with ctxs := t.dev.ctxs } ∧ sameRegs s.dev t.dev ∧ sameOutside s t)

/-- DECODE.CLOSE makes its context CLOSING, ABORT discarding what waits; DECODE_CLOSE_DONE returns a CLOSING context with nothing to
decode to FREE and posts the reply, and then held packets are taken (R16, R224, R397). -/
def Obligations.DecodeCloseFreesTheContext : Prop :=
  (∀ (fn : Nat) (hdr : Word) (ps : List Word) (s : State),
    let p := mkPkt 0x0A02 fn hdr ps
    takesNow p s → ctxGo p s 1 → within (p.w 1) 1 = true →
    ∃ t, exec (.decodeClose fn hdr ps) s = .next t ∧ (t.dev.ctx p.target).phase = .closing ∧
      (t.dev.ctx p.target).abort = p.b 1 0 ∧
      (p.b 1 0 = true → (t.dev.ctx p.target).units = [] ∧ (t.dev.ctx p.target).fill = 0) ∧
      t.dev.rings = s.dev.rings ++ [{ fn := fn, hdr := p.hdr, target := p.target, tag := none, results := [] }] ∧
      onlyCtx p.target s t ∧ t.nv = s.nv ∧ t.pending = s.pending) ∧
  (∀ (c : Fin 96) (s : State), working s.dev = true → (s.dev.ctx c.val).phase = .closing → (s.dev.ctx c.val).units = [] →
    (s.dev.ctx c.val).waiting = [] →
    ∃ t, (s.dev.submitted = [] → exec (.decodeCloseDone c) s = .next t) ∧ exec (.decodeCloseDone c) s = .next (drain t) ∧
      t.dev.ctx c.val = { cnt := (s.dev.ctx c.val).cnt.filter fun e => decide (3 ≤ e.1) } ∧
      t.dev.rings = s.dev.rings.filter (fun o => !(fld o.hdr 63 48 == 0x0A02 && o.target == c.val)) ∧
      (∀ a ∈ t.dev.allocs, a ∈ s.dev.allocs ∧ a.2.2 ≠ 1000 + c.val) ∧ onlyCtx c.val s t ∧ sameOutside s t)

/-- INGEST_PERIOD (R212, R574): the next whole millisecond not yet served is reached, and every assured context is given the whole superblocks
of its credit and load, the thousandths staying as its credit. INGEST_FRAME_OUTPUT (R130, R214 to R217), of a context that the dispatcher serves: with its last picture the access unit leaves
the input buffer; a picture that is not shown is held and gives no output; the rows of one whose turn in display order it is stand in the next output
slot, no other byte of memory changes, and the slot is taken with the frame's FRAME_SEQ.
Where the rules leave a reading or a value open, this is the model's choice: notes/assumptions, entries 22 and 49. -/
def Obligations.IngestPeriodAndFrames : Prop :=
  (∀ (s : State), working s.dev = true →
    ∃ t, exec .ingestPeriod s = .next t ∧ t.dev.now = max s.dev.now ((s.dev.ingestPeriods + 1) * 1000000) ∧
      t.dev.ingestPeriods = s.dev.ingestPeriods + 1 ∧
      (∀ c : Fin 96, (s.dev.ctx c.val).phase ≠ .free → (s.dev.ctx c.val).assured = true →
        (t.dev.ctx c.val).given = ((s.dev.ctx c.val).credit + (s.dev.ctx c.val).load) / 1000 ∧
        (t.dev.ctx c.val).credit = ((s.dev.ctx c.val).credit + (s.dev.ctx c.val).load) % 1000) ∧
      (∀ c, ((s.dev.ctx c).phase = .free ∨ (s.dev.ctx c).assured = false) → t.dev.ctx c = s.dev.ctx c) ∧
      t.dev.streams = s.dev.streams ∧ t.dev.regs = s.dev.regs ∧ sameOutside s t) ∧
  (∀ (c : Fin 96) (f : DecodedFrame) (s : State) (u : AccessUnit) (rest : List AccessUnit),
    let x := s.dev.ctx c.val
    let base := x.outBase + x.nextSlot * x.outStride
    let rows := slotRows (headerSeen (if u.lost && !x.midUnit then lostUnit x else x) f) f
    let left := if f.more then u :: rest else rest
    working s.dev = true → x.phase ≠ .free → x.units = u :: rest → (u.lost = false ∨ u.length ≠ 0) → offPoint x f = false →
    slotBlocked x = false → mayDecode s.dev c.val = true → x.waiting = [] →
    (f.shown = false →
      ∃ t, exec (.ingestFrameOutput c f) s = .next t ∧ (t.dev.ctx c.val).units = left ∧ (t.dev.ctx c.val).waiting = [] ∧
        (t.dev.ctx c.val).slots = x.slots ∧ (t.dev.ctx c.val).frameSeq = x.frameSeq ∧
        (f.existing = none → 0 ∉ f.drops → ((t.dev.ctx c.val).pics.head?.map fun p => (p.unit, p.seq)) = some (u.number, two32 - 1)) ∧
        onlyCtx c.val s t ∧ t.dev.streams = s.dev.streams ∧ sameOutside s t) ∧
    (f.shown = true → f.waits = 0 →
    (∀ r ∈ rows, memGranted s.dev 0xFA (base + r.1) r.2.length true = true ∧ base + r.1 + r.2.length ≤ Config.memBytes) →
    ∃ t, exec (.ingestFrameOutput c f) s = .next t ∧
      (rows.Pairwise (fun p q => p.1 + p.2.length ≤ q.1) →
        ∀ r ∈ rows, ∀ k, k < r.2.length → t.byte (base + r.1 + k) = r.2.getD k 0) ∧
      (∀ a, (∀ r ∈ rows, a < base + r.1 ∨ base + r.1 + r.2.length ≤ a) → t.byte a = s.byte a) ∧
      (t.dev.ctx c.val).units = left ∧ (t.dev.ctx c.val).frameSeq = x.frameSeq + 1 ∧
      (t.dev.ctx c.val).slots = (x.slots.filter fun e => e.1 != x.nextSlot) ++ [(x.nextSlot, x.frameSeq % two32)] ∧
      (t.dev.ctx c.val).nextSlot = (x.nextSlot + 1) % max 1 x.outSlots ∧
      (t.dev.ctx c.val).waiting = [] ∧ onlyCtx c.val s t ∧ t.dev.streams = s.dev.streams ∧ t.memGen = s.memGen ∧ t.nv = s.nv ∧
      t.pending = s.pending))

/-! ### Mouth -/

/-- FIFO_READ_TURN (R259): the Gallery whose turn it is loses the oldest item of its FIFO, both items of a Vein band, and the turn passes on; RESEQ_TMO (R264):
two frame times after an item was held behind NEXT, the missing number is skipped and the gap counted.
Where the rules leave a reading or a value open, this is the model's choice: notes/assumptions, entry 47. -/
def Obligations.MouthReadsAndSkips : Prop :=
  ∀ (s : State), working s.dev = true →
    (∀ g it rest, fifoTurn s.dev = some g → (s.dev.gal g).fifo = it :: rest →
      ∃ t, exec .fifoReadTurn s = .next t ∧ (t.dev.gal g).fifo = (if it.variant = 1 then rest.drop 1 else rest) ∧ (t.dev.gal g).lastRead = s.dev.now ∧
        t.dev.mouth.turn = (g + 1) % 26 ∧ onlyGal g s t ∧ onlyRecords s t) ∧
    (∀ n : Fin 192, (s.dev.stream n.val).held ≠ [] →
      ((s.dev.stream n.val).held.any fun h => h.seq == reseqNext s.dev n.val) = false →
      ∃ t, exec (.reseqTmo n) s = .next t ∧
        max s.dev.now ((s.dev.stream n.val).heldSince + 2 * (s.dev.stream n.val).cfg.frameNs) ≤ t.dev.now ∧
        (((s.dev.stream n.val).held.any fun h => h.seq == seqAdd (reseqNext s.dev n.val) 1) = false →
          reseqNext t.dev n.val = seqAdd (reseqNext s.dev n.val) 1 ∧
          reg t.dev (rMs n.val oMsGaps) = errAdd (reg s.dev (rMs n.val oMsGaps)) 1) ∧ onlyRecords s t)

/-- CALENDAR_SLOT (R334, R335): an empty calendar moves on to the next slot; a queue alone in the earliest slot whose head may leave and
that no shaper holds joins the ready list of its port. PORT_SERVE (R306, R338, R340, R342): an idle port that no host frame holds and whose ready list starts with a queue for it sends the queue's
head once the last host frame has left it: the packet is on the wire for its time, and the recipient's packet and byte counters rise.
The packet's frame is that of R276, encrypted under R360.
Where the rules leave a reading or a value open, this is the model's choice: notes/assumptions, entries 9, 14 and 48. -/
def Obligations.CalendarAndPorts : Prop :=
  (∀ (s : State), working s.dev = true →
    (s.dev.mouth.calendar = [] →
      ∃ t, exec .calendarSlot s = .next t ∧ t.dev.now = s.dev.now / 250 * 250 + 250 ∧ t.dev.recips = s.dev.recips ∧
        t.dev.mouth.calendar = [] ∧ t.dev.regs = s.dev.regs ∧ sameOutside s t) ∧
    (∀ v r e, s.dev.mouth.calendar = [(v, r)] → liveHead (s.dev.recip r) = some e → heldEntry s.dev e = false →
      (s.dev.recip r).rate = 0 →
      ∃ t, exec .calendarSlot s = .next t ∧ t.dev.now = max s.dev.now (v * 250) ∧ t.dev.mouth.calendar = [] ∧
        (t.dev.recip r).place = .ready (portOf s.dev (s.dev.recip r)) ∧
        (t.dev.port (portOf s.dev (s.dev.recip r))).ready =
          ((s.dev.port (portOf s.dev (s.dev.recip r))).ready.filter fun k => k != r) ++ [r] ∧
        (∀ q, q ≠ r → t.dev.recip q = s.dev.recip q) ∧ t.dev.regs = s.dev.regs ∧ sameOutside s t)) ∧
  (∀ (p : Fin 2) (s : State) (r : Nat) (rs : List Nat) (e : QEntry) (q : List QEntry) (b : Stored),
    working s.dev = true → (s.dev.port p.val).wire = none → (s.dev.port p.val).ready = r :: rs → (s.dev.port p.val).up = true →
    portOf s.dev (s.dev.recip r) = p.val → (s.dev.recip r).queue = e :: q → e.void = false → heldEntry s.dev e = false →
    (s.dev.key (s.dev.recip r).keySlot).kind = 1 → storedAt s.dev e.stream e.seq = some b →
    (hostRecord s.dev = false ∨ s.dev.now < (s.dev.port p.val).hostAt) →
    let dst := destOf (s.dev.recip r) p.val
    let now := max s.dev.now (s.dev.port p.val).hostEnd
    ∃ t, exec (.portServe p) s = .next t ∧
      (t.dev.port p.val).wire = some (r, e, now + wireNs s.dev p.val e.len) ∧
      Out.packet p.val r e (b.last && e.idx + 1 == e.count) (rtpTime s.dev e.stream b) dst b.digest4 b.epoch (packetFrame s.dev p.val r e dst)
        ∈ t.dev.out ∧
      (t.dev.recip r).queue = q ∧ (t.dev.recip r).cnt.get 0 16 = (s.dev.recip r).cnt.get 0 16 + 1 ∧
      (t.dev.recip r).cnt.get 0 17 = (s.dev.recip r).cnt.get 0 17 + word e.len ∧
      (∀ k, k ≠ r → t.dev.recip k = s.dev.recip k) ∧ t.dev.streams = s.dev.streams ∧ t.dev.now = now ∧ onlyRecords s t)

/-- SENDER_REPORT and HOST_TRANSMIT (R299, R306, R307, R313): once a second a sender report of a transmit context leaves for each of its
recipients whose port is up, unless its stream has no SRC_UDP; a host record of KIND 4 leaves with its FCS on the port that it names, once the
frame on its wire has left it, and the ring's consumer index moves past the record.
Where the rules leave a reading or a value open, this is the model's choice: notes/assumptions, entry 45. -/
def Obligations.ReportsAndHostFrames : Prop :=
  ∀ (s : State), working s.dev = true →
    (∀ r : Fin 16384,
      let x := s.dev.recip r.val
      let k := x.keySlot
      let key := s.dev.key k
      let ups := (contextOf s.dev x.stream k).filter fun q => (s.dev.port (portOf s.dev (s.dev.recip q))).up
      (srcUdp s.dev x.stream = 0 → exec (.senderReport r) s = .next s) ∧
      (x.valid = true → key.kind = 1 → srcUdp s.dev x.stream ≠ 0 →
      ∃ t, exec (.senderReport r) s = .next t ∧
        t.dev.now = max s.dev.now (key.srAt + 1000000000) ∧
        t.dev.key k = { key with srAt := t.dev.now, srIndex := (key.srIndex + 1) % 2 ^ 31 } ∧
        t.dev.out = s.dev.out ++ ups.map (fun q => .senderReport (portOf s.dev (s.dev.recip q)) k
          (reportFrame t.dev x.stream q (srtcpSeal key.material key.srIndex (reportBytes t.dev x.stream key)))) ∧
        (∀ j, j ≠ k → t.dev.key j = s.dev.key j) ∧ t.dev.regs = s.dev.regs ∧ t.dev.recips = s.dev.recips ∧ sameOutside s t)) ∧
    (∀ (hdr : List Word) (bytes : List Byte),
      let h := hdr.headD 0
      let size := regFld s.dev (rMouthRing 2 8) 31 0
      let cons := regFld s.dev (rMouthRing 2 0x18) 31 0
      let p := fld h 38 38
      size ≠ 0 → cons % size ≠ regFld s.dev (rMouthRing 2 0x10) 31 0 % size → fld h 47 40 = 4 → (s.dev.port p).up = true →
      let d := finishWire (setRegFld s.dev (rMouthRing 2 0x18) 31 0 ((cons + recordBytes (fld h 63 48)) % size)) p
      ∃ t, exec (.hostTransmit hdr bytes) s = .next t ∧ t.dev.now = max d.now (max (s.dev.port p).hostAt (s.dev.port p).hostEnd) ∧
        t.dev.out = d.out ++ [.hostFrame p (bytes.take (fld h 63 48) ++ fcs (bytes.take (fld h 63 48)))] ∧ sameOutside s t ∧
        (t.dev.port p).hostAt = t.dev.now + 100 * wireNs s.dev p (fld h 63 48 + 4) ∧
        (t.dev.port p).hostEnd = t.dev.now + wireNs s.dev p (fld h 63 48 + 4) ∧
        regFld t.dev (rMouthRing 2 0x18) 31 0 = (cons + recordBytes (fld h 63 48)) % size ∧
        ((s.dev.port p).wire = none →
          onlyRegs [rMouthRing 2 0x18] s t ∧ t.dev.streams = s.dev.streams ∧ t.dev.recips = s.dev.recips))

/-- FRAME_RECEIVE (R168, R300 to R304, R325, R528). A one-step Sync of the master that the client follows, on the PTP port, once the path
delay is known: its offset is measured and recorded, a Delay_Req leaves, and an armed profile whose time the corrected clock has reached
lands (R528). A feedback packet that authenticates under the key of the recipient it is attributed to applies its items to that recipient
in order. An uplink packet that its binding admits and its key opens is depacketised. A bad frame and a PAUSE frame are counted against
their port and dropped.
Where the rules leave a reading or a value open, this is the model's choice: notes/assumptions, entries 40, 45, 46 and 94. -/
def Obligations.ReceivedFramesAct : Prop :=
  ∀ (p : Fin 2) (frame : List Byte) (s : State), working s.dev = true → (s.dev.port p.val).up = true →
    let forPtp := fun (g : Datagram) => regFld s.dev rPtpStatus 62 62 = p.val ∧ (g.dstUdp = 319 ∨ g.dstUdp = 320)
    (∀ (udp : Bool) (m : List Byte) (best : PtpMaster) (delay : Int),
      let d := s.dev
      let seq := d.ptp.requests % 65536
      let t1 := ptpStamp m + ptpCorrection m
      let offset := clientTime d - t1 - delay
      let u := ptpSync d offset best.gm
      (if udp then ∃ g, parseFrame frame = .datagram g ∧ forPtp g ∧ g.payload = m else parseFrame frame = .ptp m) →
      regFld d rPtpStatus 62 62 = p.val → netNum m 4 1 = regFld d rMouthCtrl 39 32 →
      netNum m 1 1 % 16 = 2 → 44 ≤ m.length → ptpType m = 0 → bit (word (netNum m 6 1)) 1 = false →
      d.ptp.heardOn = p.val → bestMaster d.ptp.masters = some best → ptpFrom m = best.port → d.ptp.path = some delay →
      ∃ t, exec (.frameReceive p frame) s = .next t ∧
        t.dev = landIfDue (emit { u with ptp := { u.ptp with
          t1 := t1, t2 := clientTime d + (u.ptp.offset - d.ptp.offset), slewAt := d.now, request := some (seq, clientTime u)
          requests := seq + 1 } } (.ptp p.val udp (delayRequest u seq))) ∧
        reg t.dev rPtpOffset = word (signedBits 64 offset) ∧ t.dev.ptp.gm = best.gm ∧ t.dev.ptp.lastAt = d.now ∧
        (offset.natAbs ≤ 500 → 15 ≤ d.ptp.good → t.dev.ptp.locked = true) ∧
        (10000 < offset.natAbs → t.dev.ptp.locked = false) ∧
        (d.fleet.armed = none → t.dev.core = { d.core with ptp := t.dev.ptp } ∧ onlyRegs [rPtpOffset, rPtpGm] s t) ∧
        (∀ time q, d.fleet.armed = some time → d.fleet.staged = some q → time ≤ fleetTime u → setNeeded d q.tableSet = false →
          t.dev.fleet.armed = none ∧ reg t.dev rFleetStatus = word (q.epoch * 2 ^ 48 + q.tableSet)) ∧ onlyRecords s t) ∧
    (∀ (g : Datagram) (n r : Nat) (bytes : List Byte),
      let items := rtcpItems bytes.length bytes
      let d := s.dev.onRecip r fun x => noteRtcp x (srtcpWord g.payload % 2 ^ 31)
      parseFrame frame = .datagram g → ¬ forPtp g → feedbackStream s.dev g.dstUdp (rtcpPt g.payload) = some n →
      sentBy s.dev n g.payload = some r →
      openFeedback s.dev r g.payload = some bytes → (s.dev.recip r).learn = false → (items.any fun i => i.2 == .other) = false →
      ∃ t, exec (.frameReceive p frame) s = .next t ∧
        t.dev = each items d (fun d i => applyItem d r i.1 i.2) ∧ onlyRecords s t) ∧
    (∀ (g : Datagram) (c : Nat) (b : Binding) (payload : List Byte),
      let bs := g.payload
      let n := rtpHeaderLength bs
      let x := s.dev.ctx c
      let index := indexNear (s.dev.key b.keySlot) (netNum bs 2 2)
      parseFrame frame = .datagram g → ¬ forPtp g → feedbackStream s.dev g.dstUdp (rtcpPt bs) = none →
      boundCtx s.dev p.val g.dstUdp g.src.ipv6 = some c →
      x.binding = some b → x.phase = .running → rtpSupported bs = true → netNum bs 1 1 % 128 = b.pt → netNum bs 8 4 = b.ssrc →
      openWith s.dev b.keySlot 2 (fun m => srtpOpen m b.ssrc index (bs.take n) (bs.drop n)) = some payload → formatOk x.codec payload = true →
      ∃ t u, exec (.frameReceive p frame) s = .next t ∧
        u = acceptRtp (s.onDev fun d => d.onKey b.keySlot fun k =>
            { k with index := if k.accepted then max k.index index else index, accepted := true })
          c b (netNum bs 2 2) (netNum bs 4 4) (128 ≤ netNum bs 1 1) payload ∧
        t.dev = u.dev ∧ onlyRecords u t ∧ (t.dev.key b.keySlot).accepted = true) ∧
    (∀ fec : Bool, parseFrame frame = .bad fec →
      ∃ t, exec (.frameReceive p frame) s = .next t ∧ (t.dev.port p.val).badFrames = (s.dev.port p.val).badFrames + 1 ∧
        t.dev.streams = s.dev.streams ∧ t.dev.recips = s.dev.recips ∧ onlyRegs [] s t ∧ onlyRecords s t) ∧
    (parseFrame frame = .pause →
      ∃ t, exec (.frameReceive p frame) s = .next t ∧ (t.dev.port p.val).pauseFrames = (s.dev.port p.val).pauseFrames + 1 ∧
        t.dev.streams = s.dev.streams ∧ t.dev.recips = s.dev.recips ∧ t.dev.regs = s.dev.regs ∧ onlyRecords s t)

/-- The timers of Mouth's tables (R172, R303, R330, R363): REORDER_WINDOW_CLOSE delivers past the gap, so that the window holds fewer
packets; SILENT, LEARNED_SLOT_EXPIRY and GRACE_END each end at their time what they name, and nothing else of the tables. -/
def Obligations.MouthTimersExpire : Prop :=
  ∀ (s : State), working s.dev = true →
    (∀ (c : Fin 96) (b : Binding), (s.dev.ctx c.val).binding = some b → b.window ≠ [] →
      ∃ t b', exec (.reorderWindowClose c) s = .next t ∧ (t.dev.ctx c.val).binding = some b' ∧
        b'.window.length < b.window.length ∧ t.dev.now = max s.dev.now (b.windowAt + b.reorderUs * 1000) ∧ onlyCtx c.val s t) ∧
    (∀ r : Fin 16384,
      let x := s.dev.recip r.val
      x.valid = true → x.reports = true → x.silent = false →
      ∃ t, exec (.silent r) s = .next t ∧
        t.dev.recip r.val =
          (if x.marked && x.clearSent then { x with silent := true, marked := false, lost := 0, clearAt := none, clearSent := false }
            else { x with silent := true }) ∧
        t.dev.now = max s.dev.now (silentAt s.dev r.val) ∧ (∀ q, q ≠ r.val → t.dev.recip q = s.dev.recip q) ∧
        onlyStreams x.stream s t ∧ onlyRegs [] s t ∧ onlyRecord x.stream s t) ∧
    (∀ (r : Fin 16384) (p : Fin 2) (k : Fin 4),
      let l := learnedOf (s.dev.recip r.val) p.val
      let age := regFld s.dev (rPort p.val 0x28) 31 0
      age ≠ 0 → (l.getD k.val {}).valid = true →
      ∃ t, exec (.learnedSlotExpiry r p k) s = .next t ∧
        ((learnedOf (t.dev.recip r.val) p.val).getD k.val {}).valid = false ∧
        (∀ j < 4, j ≠ k.val → (learnedOf (t.dev.recip r.val) p.val).getD j {} = l.getD j {}) ∧
        t.dev.now = max s.dev.now ((l.getD k.val {}).lastSeen + age * 1000000 + 1) ∧
        (∀ q, q ≠ r.val → t.dev.recip q = s.dev.recip q) ∧ t.dev.regs = s.dev.regs ∧ sameOutside s t) ∧
    (∀ (k : Fin 20480) (at_ : Nat),
      let x := s.dev.key k.val
      let ends := x.graceUntil.toList ++ x.older.map fun o => o.2
      at_ ∈ ends → (∀ e ∈ ends, at_ ≤ e) →
      ∃ t, exec (.graceEnd k) s = .next t ∧ (t.dev.key k.val).older = (x.older.filter fun o => decide (at_ < o.2)) ∧
        (x.graceUntil = some at_ → (t.dev.key k.val).graceUntil = none ∧ (t.dev.key k.val).old = 0) ∧
        (x.graceUntil ≠ some at_ → t.dev.key k.val = { x with older := (t.dev.key k.val).older }) ∧
        (x.older = [] → t.dev.key k.val = { x with graceUntil := none, old := 0 }) ∧
        t.dev.now = max s.dev.now at_ ∧ (∀ j, j ≠ k.val → t.dev.key j = s.dev.key j) ∧ t.dev.regs = s.dev.regs ∧ sameOutside s t)

/-- UNLOCKED, PPS_OUT_SECOND and PPS_IN_EDGE (R304, R305): 3 s without a Sync or an Announce unlock PTP time; a pulse leaves at the
next whole second of locked PTP time, and none is skipped; an edge of PPS_IN is stamped. -/
def Obligations.PtpTimersAndPulses : Prop :=
  ∀ (s : State), alive s.dev = true →
    (s.dev.ptp.locked = true →
      (∃ t, exec .unlocked s = .next t ∧ t.dev.ptp = { s.dev.ptp with locked := false, good := 0, bad := 0 } ∧
        t.dev.now = max s.dev.now (s.dev.ptp.lastAt + 3000000000) ∧ onlyRegs [] s t ∧ t.dev.streams = s.dev.streams ∧ sameOutside s t) ∧
      (∃ t, exec .ppsOutSecond s = .next t ∧ t.dev.out = s.dev.out ++ [.pps] ∧
        t.dev.now = max s.dev.now ((s.dev.ptp.ppsNext * 1000000000 : Nat) - s.dev.ptp.offset).toNat ∧
        t.dev.ptp = { s.dev.ptp with ppsNext := s.dev.ptp.ppsNext + 1 } ∧ t.dev.regs = s.dev.regs ∧ sameOutside s t)) ∧
    (∃ t, exec .ppsInEdge s = .next t ∧ reg t.dev rPpsIn = timeWord s.dev ∧ (∀ a, a ≠ rPpsIn → reg t.dev a = reg s.dev a) ∧
      t.dev = { s.dev with regs := t.dev.regs } ∧ sameOutside s t)

/-- LINK_CHANGE and AUDITOR_VISIT (R280, R282, R283, R311): the port takes the link's state; a referenced buffer and a free one whose link
stands lose their stamp; an unreferenced one, which a broken link has cut off, is stamped, and is found leaked 250 ms after its stamp;
a link found broken ends its free list with its buffer, and those beyond are unreferenced.
Where the rules leave a reading or a value open, this is the model's choice: notes/assumptions, entry 108. -/
def Obligations.LinksAndTheAuditor : Prop :=
  ∀ (s : State), working s.dev = true →
    (∀ (p : Fin 2) (link : LinkState),
      ∃ t, exec (.linkChange p link) s = .next t ∧
        t.dev.port p.val = { s.dev.port p.val with
          up := link != .down, gbps := match link with | .down => (s.dev.port p.val).gbps | .at50 => 50 | .at100 => 100 } ∧
        (∀ q : Fin 2, q ≠ p → t.dev.port q.val = s.dev.port q.val) ∧ onlyRegs [rPtpStatus] s t ∧
        t.dev.streams = s.dev.streams ∧ t.dev.recips = s.dev.recips ∧ sameOutside s t) ∧
    (∀ (q : Fin 5) (i : Nat) (f : AuditFinding),
      let stamp := s.dev.mouth.stamps.get 0 (stampKey q.val i)
      let unstamped := s.dev.onMouth fun m => { m with stamps := m.stamps.set 0 (stampKey q.val i) 0 }
      (poolSize s.dev q.val ≤ i → exec (.auditorVisit q i f) s = .next s) ∧
      (i < poolSize s.dev q.val → cutOff s.dev q.val i = false → inUse s.dev q.val i = true →
        exec (.auditorVisit q i f) s = .next { s with dev := unstamped }) ∧
      (i < poolSize s.dev q.val → cutOff s.dev q.val i = false → inUse s.dev q.val i = false → f = .asWritten →
        linkBroken s.dev q.val i = false → exec (.auditorVisit q i f) s = .next { s with dev := unstamped }) ∧
      (∀ w, i < poolSize s.dev q.val → cutOff s.dev q.val i = false → inUse s.dev q.val i = false → f = .link w →
        w ≠ linkWord s.dev q.val i →
        ∃ t, exec (.auditorVisit q i f) s = .next t ∧ freeIn t.dev q.val = min (placeOnList s.dev q.val i) (freeIn s.dev q.val) ∧
          (t.dev.mouth.stamps.get 0 (stampKey q.val i) = 0) ∧
          reg t.dev (rFltCount 0) = errAdd (reg s.dev (rFltCount 0)) 1 ∧ t.dev.streams = s.dev.streams ∧ t.dev.recips = s.dev.recips ∧
          sameOutside s t) ∧
      (i < poolSize s.dev q.val → cutOff s.dev q.val i = true →
        (stamp = 0 →
          ∃ t, exec (.auditorVisit q i f) s = .next t ∧ t.dev.mouth.stamps.get 0 (stampKey q.val i) = s.dev.now + 1 ∧
            t.dev.regs = s.dev.regs ∧ sameOutside s t) ∧
        (stamp ≠ 0 → s.dev.now + 1 < stamp + 250000000 → exec (.auditorVisit q i f) s = .next s) ∧
        (stamp ≠ 0 → stamp + 250000000 ≤ s.dev.now + 1 →
          ∃ t, exec (.auditorVisit q i f) s = .next t ∧ reg t.dev rLeaks = errAdd (reg s.dev rLeaks) 1 ∧
            reg t.dev rLeakAddr = word (bufferAddr s.dev q.val i) ∧
            (regBit s.dev rSumpCtrl 50 = true → freeIn t.dev q.val = freeIn s.dev q.val + 1 ∧ cutOff t.dev q.val i = false) ∧ sameOutside s t)))

/-! ### Recipients and queues -/

/-- RECIP.ADD creates the entry its words spell, with LAST_ACK 0xFFFF_FFFF and its token bucket full; the entry is the target, or the
lowest free one (R31, R315, R324). RECIP.REMOVE frees the entry with everything it held (R326).
Where the rules leave a reading or a value open, this is the model's choice: notes/assumptions, entry 42. -/
def Obligations.RecipAddAndRemove : Prop :=
  (∀ (fn : Nat) (hdr : Word) (ps : List Word) (s : State) (r : Nat),
    let p := mkPkt 0x0601 fn hdr ps
    let x := newRecip s.dev p
    takesNow p s → hdrBadOpen p 7 16384 = false → (p.target = 0xFFFF → fn = 0) →
    notOwner p (s.dev.streamOwner x.stream) = false → addTarget s.dev p = some r →
    recipGranted s.dev fn r x.stream true = true → (x.keySlot < 20480 → keyGranted s.dev fn x.keySlot true = true) →
    addBad s.dev p r = false → (recipsOf s.dev x.stream).length < 4096 →
    ∃ t, exec (.recipAdd fn hdr ps) s = .next (answered p t stOk [] r) ∧ t.dev.recip r = x ∧
      x.valid = true ∧ x.lastAck = 4294967295 ∧ x.stream = p.f 1 62 55 ∧ x.group = p.f 1 54 52 ∧ x.keySlot = p.f 1 31 16 ∧
      x.dstUdp = p.f 1 15 0 ∧ x.clientSsrc = p.f 6 63 32 ∧ x.rate = p.f 7 63 32 ∧ x.burst = p.f 7 23 0 ∧
      x.tokens = 32000 * x.burst ∧
      (∀ q, q ≠ r → t.dev.recip q = s.dev.recip q) ∧ t.dev.core = { s.dev.core with recips := t.dev.recips } ∧
      sameRegs s.dev t.dev ∧ onlyRecord x.stream s t) ∧
  (∀ (fn : Nat) (hdr : Word) (ps : List Word) (s : State),
    let p := mkPkt 0x0602 fn hdr ps
    takesNow p s → entryGo p s 0 →
    ∃ t, exec (.recipRemove fn hdr ps) s = .next (answered p t stOk [] p.target) ∧ t.dev.recip p.target = {} ∧
      (∀ m ∈ t.dev.mouth.mirrors, m.recip ≠ some p.target) ∧ (∀ e ∈ t.dev.mouth.calendar, e.2 ≠ p.target) ∧
      (∀ q, q ≠ p.target → t.dev.recip q = s.dev.recip q) ∧ onlyStreams (s.dev.recip p.target).stream s t ∧ onlyRecord (s.dev.recip p.target).stream s t)

/-- RECIP.MODIFY and MODIFY of RECIP_CMD give the entry the configuration fields of words 0 to 6 and leave its reference state; a change
of RATE or BURST fills the token bucket (R322, R337). -/
def Obligations.ModifyRewritesTheFields : Prop :=
  (∀ (fn : Nat) (hdr : Word) (ps : List Word) (s : State),
    let p := mkPkt 0x0603 fn hdr ps
    let ws : Nat → Word := fun w => p.w (w + 1)
    let y := withWords (s.dev.recip p.target) ws
    takesNow p s → entryGo p s 7 → (fld (ws 0) 31 16 < 20480 → keyGranted s.dev fn (fld (ws 0) 31 16) true = true) →
    modifyBad s.dev p.target ws = false →
    ∃ t, exec (.recipModify fn hdr ps) s = .next (answered p t stOk [] p.target) ∧
      ((s.dev.recip p.target).rate = y.rate → (s.dev.recip p.target).burst = y.burst → t.dev.recip p.target = y) ∧
      (((s.dev.recip p.target).rate ≠ y.rate ∨ (s.dev.recip p.target).burst ≠ y.burst) →
        (t.dev.recip p.target).tokens = 32000 * y.burst ∧ (t.dev.recip p.target).rate = y.rate ∧
        (t.dev.recip p.target).burst = y.burst ∧ (t.dev.recip p.target).dstUdp = y.dstUdp ∧
        (t.dev.recip p.target).lastAck = (s.dev.recip p.target).lastAck ∧ (t.dev.recip p.target).queue = (s.dev.recip p.target).queue) ∧
      (∀ q, q ≠ p.target → t.dev.recip q = s.dev.recip q) ∧ t.dev.streams = s.dev.streams ∧ sameRegs s.dev t.dev ∧ sameOutside s t) ∧
  (∀ (m : Nat) (r : Fin 16384) (s : State),
    let ws : Nat → Word := fun w => reg s.dev (rRecipData w)
    let y := withWords (s.dev.recip r.val) ws
    recipCmdGo m r.val s true → (s.dev.recip r.val).valid = true →
    (fld (ws 0) 31 16 < 20480 → keyGranted s.dev m (fld (ws 0) 31 16) true = true) → modifyBad s.dev r.val ws = false →
    ∃ t, exec (.modify m r) s = .next t ∧ recipCmdOk r.val t ∧
      ((s.dev.recip r.val).rate = y.rate → (s.dev.recip r.val).burst = y.burst → t.dev.recip r.val = y) ∧
      (∀ q, q ≠ r.val → t.dev.recip q = s.dev.recip q) ∧ t.dev.streams = s.dev.streams ∧ onlyRegs [rRecipStatus] s t ∧
      sameOutside s t)

/-- RECIP.QUERY answers sixteen words of the entry, and clears its high-water marks where it is asked to; RECIP.CLEAR clears the
counters whose bits are set; RECIP.FLUSH frees the learned slots of a port (R318, R320, R324, R332, R342). -/
def Obligations.RecipQueryClearFlush : Prop :=
  ∀ (fn : Nat) (hdr : Word) (ps : List Word) (s : State),
    (let p := mkPkt 0x0604 fn hdr ps
     let x := s.dev.recip p.target
     takesNow p s → hdrBad p 1 16384 = false → notOwner p (s.dev.streamOwner x.stream) = false →
     recipGranted s.dev fn p.target x.stream false = true → within (p.w 1) (ones 1 0) = true →
     recipEffect (.recipQuery fn hdr ps) p s ((List.range 16).map fun i => entryWord x (16 * p.f 1 0 0 + i))
       fun x => if p.b 1 1 then { x with latHwm := 0, depthHwm := 0 } else x) ∧
    (let p := mkPkt 0x0605 fn hdr ps
     takesNow p s → entryGo p s 1 → within (p.w 1) (ones 23 18) = true →
     ∃ f, recipEffect (.recipClear fn hdr ps) p s [] f ∧ ∀ x, ∃ u, f x = { x with cnt := u } ∧
       ∀ w, u.get 0 w = if 18 ≤ w ∧ w ≤ 23 ∧ p.b 1 w = true then 0 else x.cnt.get 0 w) ∧
    (let p := mkPkt 0x0606 fn hdr ps
     takesNow p s → entryGo p s 1 → within (p.w 1) 1 = true →
     recipEffect (.recipFlush fn hdr ps) p s [] fun x =>
       if p.f 1 0 0 = 0 then { x with learned0 := [] } else { x with learned1 := [] })

/-- READ, READ_LEARNED, CLEAR, FLUSH_LEARNED and READ_HWM of RECIP_CMD (R319 to R321, R332, R342): the window takes the words of the
entry or of its learned block, and the entry loses what the operation clears; RESULT is 0. While BUSY is 1 each of the six, MODIFY with
them, is discarded and sets OVERRUN.
Where the rules leave a reading or a value open, this is the model's choice: notes/assumptions, entry 23. -/
def Obligations.RecipCmdOperations : Prop :=
  ∀ (m : Nat) (r : Fin 16384) (s : State),
    let x := s.dev.recip r.val
    let discarded : Instr → Prop := fun c => ∃ t, exec c s = .next t ∧ regBit t.dev rRecipStatus 62 = true ∧ onlyRegs [rRecipStatus] s t ∧
      (∀ b : Nat, b ≠ 62 → regBit t.dev rRecipStatus b = regBit s.dev rRecipStatus b) ∧ t.dev.core = s.dev.core ∧ sameOutside s t
    (alive s.dev = true → barGranted s.dev m rRecipCmd true = true → regBit s.dev rRecipStatus 63 = true →
      discarded (.read m r) ∧ (∀ p : Fin 2, discarded (.readLearned m r p) ∧ discarded (.flushLearned m r p)) ∧ discarded (.modify m r) ∧
        discarded (.clear m r) ∧ discarded (.readHwm m r)) ∧
    (recipCmdGo m r.val s false →
      (∃ t, exec (.read m r) s = .next t ∧ recipCmdOk r.val t ∧ (∀ w < 32, reg t.dev (rRecipData w) = entryWord x w) ∧
        t.dev.core = s.dev.core ∧ sameOutside s t) ∧
      (∀ p : Fin 2, x.valid = true →
        ∃ t, exec (.readLearned m r p) s = .next t ∧ recipCmdOk r.val t ∧
          (∀ w < 32, reg t.dev (rRecipData w) = learnedWord (slots4 (learnedOf x p.val)) w) ∧ t.dev.core = s.dev.core ∧
          sameOutside s t)) ∧
    (recipCmdGo m r.val s true → x.valid = true →
      (∃ t u, exec (.clear m r) s = .next t ∧ recipCmdOk r.val t ∧ t.dev.recip r.val = { x with cnt := u } ∧
        (∀ w, u.get 0 w = if 18 ≤ w ∧ w ≤ 23 ∧ bit (reg s.dev (rRecipData 0)) w = true then 0 else x.cnt.get 0 w) ∧
        (∀ q, q ≠ r.val → t.dev.recip q = s.dev.recip q) ∧ onlyRegs [rRecipStatus] s t ∧ sameOutside s t) ∧
      (∀ p : Fin 2, ∃ t, exec (.flushLearned m r p) s = .next t ∧ recipCmdOk r.val t ∧
        t.dev.recip r.val = (if p.val = 0 then { x with learned0 := [] } else { x with learned1 := [] }) ∧
        (∀ q, q ≠ r.val → t.dev.recip q = s.dev.recip q) ∧ onlyRegs [rRecipStatus] s t ∧ sameOutside s t) ∧
      (∃ t, exec (.readHwm m r) s = .next t ∧ recipCmdOk r.val t ∧ (∀ w < 32, reg t.dev (rRecipData w) = entryWord x w) ∧
        t.dev.recip r.val = { x with latHwm := 0, depthHwm := 0 } ∧ (∀ q, q ≠ r.val → t.dev.recip q = s.dev.recip q) ∧ sameOutside s t))

/-- QUEUE.BIND and QUEUE.UNBIND set and drop the binding of a network context, QUEUE.MIRROR turns a mirror on or off, and QUEUE.STREAM
captures the egress registers of its stream, to land at its next release (R298, R303, R308, R312, R313).
Where the rules leave a reading or a value open, this is the model's choice: notes/assumptions, entries 12 and 41. -/
def Obligations.QueueCommands : Prop :=
  ∀ (fn : Nat) (hdr : Word) (ps : List Word) (s : State),
    (let p := mkPkt 0x0620 fn hdr ps
     takesNow p s → ctxGo p s 3 → bindBad s.dev p = false →
     ∃ t, exec (.queueBind fn hdr ps) s = .next (answered p t stOk [] p.target) ∧
       t.dev.ctx p.target = { s.dev.ctx p.target with binding := some (bindingOf p) } ∧ onlyCtx p.target s t ∧
       t.dev.core = { s.dev.core with ctxs := t.dev.ctxs } ∧ sameRegs s.dev t.dev ∧ sameOutside s t) ∧
    (let p := mkPkt 0x0621 fn hdr ps
     takesNow p s → ctxGo p s 0 →
     ∃ t, exec (.queueUnbind fn hdr ps) s = .next (answered p t stOk [] p.target) ∧
       t.dev.ctx p.target = { s.dev.ctx p.target with binding := none } ∧ onlyCtx p.target s t ∧
       t.dev.core = { s.dev.core with ctxs := t.dev.ctxs } ∧ sameRegs s.dev t.dev ∧ sameOutside s t) ∧
    (let p := mkPkt 0x0622 fn hdr ps
     let m := mirrorOf p
     let known := s.dev.mouth.mirrors.any (sameMirror m)
     takesNow p s → fn = 0 → hdrBad p 1 192 = false → streamOff s.dev p = false →
     within (p.w 1) (ones 63 62 ||| ones 45 32) = true → (p.b 1 62 = true → detached s.dev p = false) →
     (p.b 1 63 = true → known = false → s.dev.mouth.mirrors.length < 16) →
     ∃ t, exec (.queueMirror fn hdr ps) s = .next (answered p t stOk [] p.target) ∧
       t.dev.mouth.mirrors = (if p.b 1 63 then (if known then s.dev.mouth.mirrors
           else s.dev.mouth.mirrors ++ [{ m with next := (Config.freeWord s.dev.freeCtr).toNat % 65536 }])
         else s.dev.mouth.mirrors.filter fun x => !sameMirror m x) ∧
       t.dev.core = { s.dev.core with mouth := { s.dev.mouth with mirrors := t.dev.mouth.mirrors }, freeCtr := t.dev.freeCtr } ∧
       sameRegs s.dev t.dev ∧
       sameOutside s t) ∧
    (let p := mkPkt 0x0623 fn hdr ps
     takesNow p s → streamGo p s 2 → queueStreamBad s.dev p = false →
     ∃ t, exec (.queueStream fn hdr ps) s = .next (answered p t stOk [] p.target) ∧
       { addr := rMs p.target oMsCfg, value := p.w 1, stream := p.target : Capture } ∈ t.dev.captured ∧
       { addr := rMs p.target oMsRtp, value := p.w 2, stream := p.target : Capture } ∈ t.dev.captured ∧
       t.dev.stream p.target = { s.dev.stream p.target with
         srcUdpSet := (s.dev.stream p.target).srcUdpSet || fld (p.w 1) 31 16 != 0 } ∧
       onlyStreams p.target s t ∧ sameRegs s.dev t.dev ∧
       t.dev.core = { s.dev.core with streams := t.dev.streams, captured := t.dev.captured, shadow := t.dev.shadow } ∧ sameOutside s t)

/-! ### Keys and Vein -/

/-- KEY.KEK, KEY.LOAD, KEY.ROLL and KEY.ERASE act on the slot they name and on no other (R361 to R364): a KEK takes what the unwrap
yields; an EMPTY slot is loaded with the unwrapped material; a TX slot keeps the new key pending, an RX slot uses it at once
and accepts the old one for the grace; an erased slot is EMPTY.
Where the rules leave a reading or a value open, this is the model's choice: notes/assumptions, entries 12 and 43. -/
def Obligations.KeyCommandsActOnTheirSlot : Prop :=
  ∀ (fn : Nat) (hdr : Word) (ps : List Word) (s : State) (m : Nat),
    (∀ secret : Option Nat,
     let p := mkPkt 0x0701 fn hdr ps none secret
     takesNow p s → fn = 0 → hdrBad p 18 1 = false → within (p.w 1) (ones 2 0) = true → kekUnwrapped p = some m →
     ∃ t, exec (.keyKek fn hdr ps secret) s = .next (answered p t stOk [] p.target) ∧
       t.dev.keks.get none (p.f 1 2 0) = some m ∧ (∀ k, k ≠ p.f 1 2 0 → t.dev.keks.get none k = s.dev.keks.get none k) ∧
       t.dev.core = { s.dev.core with keks := t.dev.keks } ∧ sameRegs s.dev t.dev ∧ sameOutside s t) ∧
    (let p := mkPkt 0x0702 fn hdr ps
     takesNow p s → hdrBad p 10 20480 = false → keyGranted s.dev fn p.target true = true →
     policyAdmits s.dev p.target (p.f 1 63 60) (p.f 1 59 57) = true → (s.dev.key p.target).kind = 0 →
     keyWordsOk s.dev p = true → unwrapped s.dev p = some m →
     ∃ t, exec (.keyLoad fn hdr ps) s = .next (answered p t stOk [] p.target) ∧
       t.dev.key p.target =
         { kind := p.f 1 63 60, material := m, w := p.w 3, keyId := p.w 2, loader := fn, srAt := s.dev.now,
           index := if p.f 1 63 60 = 1 then (Config.freeWord s.dev.freeCtr).toNat % 65536 else 0
           firstIndex := if p.f 1 63 60 = 1 then (Config.freeWord s.dev.freeCtr).toNat % 65536 else 0 } ∧
       (∀ k, k ≠ p.target → t.dev.key k = s.dev.key k) ∧ t.dev.recips = s.dev.recips ∧
       (∀ a, ¬ eventPage a → ¬ ringPage a → a ≠ rFleetStatus → reg t.dev a = reg s.dev a) ∧ sameOutside s t) ∧
    (let p := mkPkt 0x0703 fn hdr ps
     let x := s.dev.key p.target
     takesNow p s → (p.count = 10 ∨ (p.count = 11 ∧ within (p.w 11) (ones 31 0) = true)) → hdrBad p p.count 20480 = false →
     keyGranted s.dev fn p.target true = true → policyAdmits s.dev p.target (p.f 1 63 60) (p.f 1 59 57) = true → keyWordsOk s.dev p = true → unwrapped s.dev p = some m →
     graceOf p ≤ 10000 → x.kind = p.f 1 63 60 → (x.kind = 1 ∨ x.kind = 2) →
     ∃ t, exec (.keyRoll fn hdr ps) s = .next (answered p t stOk [] p.target) ∧
       (x.kind = 1 → t.dev.key p.target = { x with pending := some (m, p.w 2), pendingGraceMs := graceOf p }) ∧
       (x.kind = 2 → t.dev.key p.target =
         { x with
           material := m, keyId := p.w 2, pending := none, old := x.material, graceUntil := some (s.dev.now + graceOf p * 1000000)
           older := (x.graceUntil.toList.map fun t => (x.old, t)) ++ x.older }) ∧
       (∀ k, k ≠ p.target → t.dev.key k = s.dev.key k) ∧ t.dev.core = { s.dev.core with keys := t.dev.keys } ∧
       sameRegs s.dev t.dev ∧ sameOutside s t) ∧
    (let p := mkPkt 0x0704 fn hdr ps
     takesNow p s → hdrBad p 0 20480 = false → keyGranted s.dev fn p.target true = true →
     ∃ t, exec (.keyErase fn hdr ps) s = .next (answered p t stOk [] p.target) ∧ (t.dev.key p.target).kind = 0 ∧
       ((s.dev.key p.target).kind ≠ 0 → t.dev.key p.target = {}) ∧
       (∀ k, k ≠ p.target → t.dev.key k = s.dev.key k) ∧ t.dev.recips = s.dev.recips ∧
       (∀ a, ¬ eventPage a → ¬ ringPage a → a ≠ rFleetStatus → reg t.dev a = reg s.dev a) ∧ sameOutside s t)

/-- KEY.QUERY and VEIN.QUERY answer the words of R576; VEIN.CONFIG waits for its landing with its load; VEIN.RECORD sets the record ring
(R344, R348, R358, R576).
Where the rules leave a reading or a value open, this is the model's choice: notes/assumptions, entry 44. -/
def Obligations.KeyQueryAndVeinCommands : Prop :=
  ∀ (fn : Nat) (hdr : Word) (ps : List Word) (s : State),
    (let p := mkPkt 0x0705 fn hdr ps
     let x := s.dev.key p.target
     takesNow p s → hdrBad p 0 20480 = false → keyGranted s.dev fn p.target false = true →
     streamEffect (.keyQuery fn hdr ps) p s
       (if x.kind = 0 then [0, 0, 0, 0, 0]
        else [ word (x.kind * 2 ^ 60 + x.pending.isSome.toNat * 2 ^ 59 + x.graceUntil.isSome.toNat * 2 ^ 58 + x.loader % 256 * 2 ^ 48
                 + (naming s.dev p.target).length % 8192)
             , x.keyId, (x.pending.map fun q => q.2).getD 0, word (if x.kind = 3 then 0 else min x.index (2 ^ 48 - 1))
             , if fn = 0 then x.w else 0 ]) id) ∧
    (let p := mkPkt 0x0710 fn hdr ps
     let x := s.dev.stream p.target
     let v := veinOf x p
     let load := veinLoad x v
     takesNow p s → streamGo p s 1 → veinOk s.dev p = true → (x.load < load → veinFits s.dev p.target load = true) →
     ∃ t, exec (.veinConfig fn hdr ps) s = .next (answered p t stOk [] p.target) ∧
       (t.dev.stream p.target).veinNext = some (v, load) ∧ (t.dev.stream p.target).veinWord = p.w 1 ∧
       (t.dev.stream p.target).load = max x.load load ∧ (t.dev.stream p.target).vein = x.vein ∧
       (load ≤ x.load → (t.dev.stream p.target).parts = x.parts) ∧ onlyStream p.target s t) ∧
    (let p := mkPkt 0x0711 fn hdr ps
     takesNow p s → streamGo p s 2 → ringWordsOk (p.w 1) (p.w 2) 16 65536 = true →
     streamEffect (.veinRecord fn hdr ps) p s [] fun x =>
       { x with veinRing := { base := (p.w 1).toNat, records := p.f 2 63 32, en := p.b 2 0, next := 0 } }) ∧
    (let p := mkPkt 0x0712 fn hdr ps
     let x := s.dev.stream p.target
     takesNow p s → hdrBad p 0 192 = false → notOwner p (s.dev.streamOwner p.target) = false →
     streamEffect (.veinQuery fn hdr ps) p s
       [ x.veinCnt.get 0 0, x.veinCnt.get 0 1, veinPos s.dev x ((x.nextSeq + two32 - 1) % two32), veinCfgWord x.vein, x.veinWord
       , word x.veinNext.isSome.toNat ] id)

/-! ### Fleet, diagnosis, the persistent record -/

/-- FLEET.STAGE of a newer epoch whose EXPECT is the digest that the profile would have replaces the staged profile; FLEET.CANCEL
discards it; FLEET.QUERY answers its seven words; FLEET.ACTIVATE arms the staged profile, or lands it where its time has passed;
ACTIVATION_LANDING lands the armed profile, and its epoch and table set are in force; DIGEST_RECOMPUTE publishes the digest (R522,
R524 to R528, R532, R536).
Where the rules leave a reading or a value open, this is the model's choice: notes/assumptions, entry 57. -/
def Obligations.FleetProfilesActivate : Prop :=
  (∀ (fn : Nat) (hdr : Word) (ps : List Word) (s : State),
    (let p := mkPkt 0x0801 fn hdr ps
     takesNow p s → fn = 0 → hdrBad p 21 1 = false → stageBad s.dev p = false →
     newer (p.f 1 63 48) (regFld s.dev rFleetStatus 63 48) = true →
     ∃ t, exec (.fleetStage fn hdr ps) s = .next (answered p t stOk [] p.target) ∧
       t.dev.fleet.staged = some (profileOf p) ∧ t.dev.fleet.armed = none ∧ t.dev.fleet.waiting = false ∧
       regFld t.dev rFleetStatus 47 32 = p.f 1 63 48 ∧ regFld t.dev rFleetStatus 63 48 = regFld s.dev rFleetStatus 63 48 ∧
       t.nv = (if p.b 1 46 then { s.nv with ordinal := p.f 1 17 0, ordValid := true } else s.nv) ∧
       (∀ a, ¬ eventPage a → ¬ ringPage a → a ≠ rFleetStatus → reg t.dev a = reg s.dev a) ∧
       t.dev.core = { s.dev.core with fleet := t.dev.fleet } ∧ t.mem = s.mem ∧ t.memGen = s.memGen ∧ t.pending = s.pending) ∧
    (let p := mkPkt 0x0804 fn hdr ps
     takesNow p s → fn = 0 → hdrBad p 1 1 = false → within (p.w 1) (ones 63 48) = true → p.f 1 63 48 ≠ 0 →
     notStaged s.dev (p.f 1 63 48) = false →
     ∃ t, exec (.fleetCancel fn hdr ps) s = .next (answered p t stOk [] p.target) ∧
       t.dev.fleet = { s.dev.fleet with staged := none, armed := none, waiting := false } ∧
       regFld t.dev rFleetStatus 47 32 = 0 ∧ regBit t.dev rFleetStatus 15 = false ∧ regBit t.dev rFleetStatus 13 = false ∧
       (∀ a, ¬ eventPage a → ¬ ringPage a → a ≠ rFleetStatus → reg t.dev a = reg s.dev a) ∧
       t.dev.core = { s.dev.core with fleet := t.dev.fleet } ∧ sameOutside s t) ∧
    (let p := mkPkt 0x0803 fn hdr ps
     takesNow p s → fn = 0 → hdrBad p 0 1 = false →
     answersOnly (.fleetQuery fn hdr ps) p s
       [ setBit (reg s.dev rFleetStatus) 12 s.nv.ordValid, reg s.dev (rFleetDigest 0), reg s.dev (rFleetDigest 1)
       , reg s.dev (rFleetDigest 2), reg s.dev (rFleetDigest 3), actTime s.dev
       , word (if s.nv.ordValid then 2 ^ 63 + s.nv.ordinal else 0) ]) ∧
    (let p := mkPkt 0x0802 fn hdr ps
     let at_ := (p.w 2).toNat
     ∀ q, takesNow p s → fn = 0 → hdrBad p 2 1 = false → within (p.w 1) (ones 63 48) = true → p.f 1 63 48 ≠ 0 →
     at_ ≤ fleetTime s.dev + 30 * 86400 * 1000000000 → s.dev.fleet.staged = some q → q.epoch = p.f 1 63 48 →
     (fleetTime s.dev < at_ →
       ∃ t, exec (.fleetActivate fn hdr ps) s = .next (answered p t stOk [] p.target) ∧
         t.dev.fleet = { s.dev.fleet with armed := some at_ } ∧ reg t.dev rFleetStatus = setBit (reg s.dev rFleetStatus) 15 true ∧
         (∀ a, ¬ eventPage a → ¬ ringPage a → a ≠ rFleetStatus → reg t.dev a = reg s.dev a) ∧
         t.dev.core = { s.dev.core with fleet := t.dev.fleet } ∧ sameOutside s t) ∧
     (at_ ≤ fleetTime s.dev → setNeeded s.dev q.tableSet = false →
       ∃ t, exec (.fleetActivate fn hdr ps) s = .next (answered p t stOk [] p.target) ∧
         t.dev.fleet.staged = none ∧ t.dev.fleet.armed = none ∧
         reg t.dev rFleetStatus = word (q.epoch * 2 ^ 48 + q.tableSet) ∧ t.dev.now = s.dev.now ∧ sameOutside s t))) ∧
  (∀ (s : State), alive s.dev = true →
    (∀ at_ q, s.dev.fleet.armed = some at_ → s.dev.fleet.staged = some q → setNeeded s.dev q.tableSet = false →
      ∃ t, exec .activationLanding s = .next t ∧ t.dev.fleet.staged = none ∧ t.dev.fleet.armed = none ∧
        reg t.dev rFleetStatus = word (q.epoch * 2 ^ 48 + q.tableSet) ∧
        t.dev.now = max s.dev.now ((at_ : Int) - s.dev.ptp.offset).toNat ∧ sameOutside s t) ∧
    (s.dev.fleet.digestDue = true →
      ∃ t, exec .digestRecompute s = .next t ∧ t.dev.fleet.digestDue = false ∧
        (∀ k < 4, reg t.dev (rFleetDigest k) = (digestNow s.dev).getD k 0) ∧
        (∀ a, ¬ eventPage a → a ≠ rFleetStatus → a ∉ [rFleetDigest 0, rFleetDigest 1, rFleetDigest 2, rFleetDigest 3] →
          reg t.dev a = reg s.dev a) ∧
        t.dev.core = { s.dev.core with fleet := t.dev.fleet } ∧ sameOutside s t))

/-- DIAG.RETIRE retires its Gallery with cause 5; DIAG.INJECT counts and captures the fault of its row, marked INJECTED, and with MODE 1
a class F fault stops the device; DIAG.FAULTREC returns the range of the record and the entries asked for, or erases the record;
PERSISTENT_ENTRY_WRITE puts the first entry that waits at the end of the record (R233, R237, R489, R490, R493).
Where the rules leave a reading or a value open, this is the model's choice: notes/assumptions, entry 56. -/
def Obligations.DiagnosisAndTheRecord : Prop :=
  (∀ (fn : Nat) (hdr : Word) (ps : List Word) (s : State),
    (let p := mkPkt 0x0901 fn hdr ps
     let g := p.f 1 63 0
     takesNow p s → fn = 0 → hdrBad p 1 1 = false → g < 26 → retired s.dev g = false → canRetire s.dev g = true →
     ∃ t, exec (.diagRetire fn hdr ps) s = .next (answered p t stOk [] p.target) ∧ retired t.dev g = true ∧
       regFld t.dev (rGal g oGalRetire) 63 56 = 5 ∧ reg t.dev (rGal g oGalRetireTime) = timeWord s.dev ∧
       (let sooner := fun (h : Nat) => (s.dev.gal h).retiredAt != s.dev.now || decide (h < g)
        t.dev.guide.moves = s.dev.guide.moves.takeWhile sooner ++ g :: s.dev.guide.moves.dropWhile sooner) ∧
       (t.dev.gal g).cur = none ∧ (t.dev.gal g).closing = [] ∧ onlyRecords s t) ∧
    (let p := mkPkt 0x0902 fn hdr ps
     ∀ k, takesNow p s → fn = 0 → hdrBad p 1 1 = false → within (p.w 1) (ones 63 43 ||| ones 31 16) = true → injectClass p = some k →
     ∃ t, exec (.diagInject fn hdr ps) s = .next (answered p (restartMet t) stOk [] p.target) ∧ (galsQuiet s → restartMet t = t) ∧
       reg t.dev (rFltCount k) = errAdd (reg s.dev (rFltCount k)) 1 ∧ regBit t.dev rFltStatus (55 - k) = true ∧
       (regBit s.dev (rCap k 0) 63 = false →
         regBit t.dev (rCap k 0) 63 = true ∧ regBit t.dev (rCap k 0) 62 = true ∧ regFld t.dev (rCap k 0) 60 50 = p.f 1 63 53) ∧
       (p.b 1 44 = true → k = 2 → stopped t.dev = true) ∧ (p.b 1 44 = false → stopped t.dev = false) ∧
       t.dev.streams = s.dev.streams ∧ sameOutside s t) ∧
    (let p := mkPkt 0x0903 fn hdr ps
     takesNow p s → fn = 0 → hdrBad p 1 1 = false → within (p.w 1) (ones 63 63 ||| ones 34 0) = true →
     (p.b 1 63 = false → 1 ≤ p.f 1 34 32 → p.f 1 34 32 ≤ 5 →
       answersOnly (.diagFaultrec fn hdr ps) p s
         (recRange s.nv :: ((s.nv.record.filter fun e => decide (p.f 1 31 0 ≤ e.seq)).take (p.f 1 34 32)).flatMap entryWords)) ∧
     (p.b 1 63 = true → regBit s.dev rFltStatus 63 = false → s.dev.roost.entries = [] →
       (s.dev.roost.written.filter fun t => decide (s.dev.upTime < t + 1000000000)).length < 100 →
       ∃ t e, exec (.diagFaultrec fn hdr ps) s = .next (answered p t stOk [recRange t.nv] p.target) ∧
         t.nv.record = [e] ∧ e.kind = 3 ∧ e.seq = s.nv.nextSeq ∧ t.dev.streams = s.dev.streams ∧ t.mem = s.mem ∧
         t.pending = s.pending))) ∧
  (∀ (s : State) (e : RecEntry) (r : List RecEntry),
    s.dev.roost.entries = e :: r → s.dev.roost.up = true → s.nv.record.any (repeatsOf e) = false → s.nv.record.length ≤ 1024 →
    (s.dev.roost.written.filter fun t => decide (s.dev.upTime < t + 1000000000)).length < 100 →
    ∃ t, exec .persistentEntryWrite s = .next t ∧ t.dev.roost.entries = r ∧
      t.nv.record = (if s.nv.record.length = 1024 then s.nv.record.drop 1 else s.nv.record) ++ [{ e with seq := s.nv.nextSeq }] ∧
      t.nv.nextSeq = (s.nv.nextSeq + 1) % 2 ^ 32 ∧ t.dev.core = { s.dev.core with roost := t.dev.roost } ∧
      (∀ a, a ≠ rFltAlert → reg t.dev a = reg s.dev a) ∧ t.mem = s.mem ∧ t.pending = s.pending)

/-! ### DEVICE commands -/

/-- DEVICE.NOP answers; DEVICE.QUERY and DEVICE.IDENTITY answer their words and change nothing; DEVICE.RESET answers and schedules the
reset, which DEVICE_RESET_FIRE makes; SLEEP writes its reply and turns the die off; CALIBRATE asks for a pair of every block named;
DEVICE.CLEAR_FAULT clears what its bits name (R393 to R395, R491, R507, R508, R513). -/
def Obligations.DeviceCommands : Prop :=
  (∀ (fn : Nat) (hdr : Word) (ps : List Word) (s : State),
    (let p := mkPkt 0x0100 fn hdr ps
     takesNow p s → hdrBad p 0 1 = false → answersOnly (.deviceNop fn hdr ps) p s []) ∧
    (let p := mkPkt 0x0101 fn hdr ps
     takesNow p s → hdrBad p 0 1 = false →
     answersOnly (.deviceQuery fn hdr ps) p s
       ([bootStatus s, word (0x0192 * 2 ^ 48 + 0xB1 * 2 ^ 40 + ordinalOf s)] ++ queryCounts s.dev)) ∧
    (let p := mkPkt 0x0102 fn hdr ps
     let chunk := p.f 1 15 0
     takesNow p s → hdrBad p 1 1 = false → within (p.w 1) (ones 15 0) = true → 240 * chunk ≤ Config.certLength →
     ∃ ws, answersOnly (.deviceIdentity fn hdr ps) p s (word (Config.certLength % 2 ^ 32 * 2 ^ 32 + chunk) :: ws) ∧ ws.length = 30 ∧
       ∀ k < 30, ∀ i < 8, 240 * chunk + 8 * k + i < Config.certLength →
         fld (ws.getD k 0) (63 - 8 * i) (56 - 8 * i) = (Config.certByte (240 * chunk + 8 * k + i)).toNat) ∧
    (let p := mkPkt 0x0103 fn hdr ps
     takesNow p s → fn = 0 → hdrBad p 0 1 = false →
     ∃ t, exec (.deviceReset fn hdr ps) s = .next (answered p t stOk [] p.target) ∧
       t.dev.pwr = { s.dev.pwr with resetDue := some (s.dev.now + 100000) } ∧
       t.dev.core = { s.dev.core with pwr := t.dev.pwr } ∧ sameRegs s.dev t.dev ∧ sameOutside s t) ∧
    (let p := mkPkt 0x0104 fn hdr (withOp 1 ps)
     takesNow p s → fn = 0 → ps ≠ [] → hdrBad p 1 1 = false → within (p.w 1) (ones 63 60 ||| ones 31 0) = true →
     p.f 1 31 0 ≤ 86400000 → anyInUse s.dev = false →
     ∃ t, exec (.sleep fn hdr ps) s = .next t ∧ dieReset s t 7 .asleep ∧
       t.dev.pwr.wakeDue = (if p.f 1 31 0 = 0 then none else some (s.dev.upTime + p.f 1 31 0 * 1000000)) ∧
       (p.quiet = false →
         let slot := regFld s.dev (rRing 0 oCqTail) 15 0
         Out.reply 0 slot [slotAddr (reg s.dev (rRing 0 oCqBase)) (slot % regFld s.dev (rRing 0 oCqSize) 16 0)]
           [replyHdr p.hdr 0 p.target stOk false (regBit s.dev (rRing 0 oCqTail) 63)] ∈ t.dev.out)) ∧
    (let p := mkPkt 0x0104 fn hdr (withOp 2 ps)
     takesNow p s → fn = 0 → ps ≠ [] → hdrBad p 1 1 = false → within (p.w 1) (ones 63 60 ||| ones 35 0) = true →
     supplyWarning s.dev = false →
     ∃ t, exec (.calibrate fn hdr ps) s = .next (answered p t stOk [] p.target) ∧
       (∀ b < 36, p.b 1 b = true →
         ((s.dev.calBlk b).stage = 0 → (t.dev.calBlk b).stage = 1 ∨ (t.dev.calBlk b).stage = 2) ∧
         ((s.dev.calBlk b).stage = 0 → 32 ≤ b → (t.dev.calBlk b).stage = 2) ∧
         ((s.dev.calBlk b).stage ≠ 0 → (t.dev.calBlk b).again = true)) ∧
       (∀ b < 36, p.b 1 b = false → (s.dev.calBlk b).stage ≠ 1 → t.dev.calBlk b = s.dev.calBlk b) ∧
       t.dev.core = { s.dev.core with cal := t.dev.cal, freeCtr := t.dev.freeCtr } ∧ sameRegs s.dev t.dev ∧ sameOutside s t) ∧
    (let p := mkPkt 0x0105 fn hdr ps
     takesNow p s → fn = 0 → hdrBad p 1 1 = false → within (p.w 1) (ones 1 0) = true → handling s.dev = false →
     regBit s.dev rFltStatus 62 = false → regBit s.dev rFltStatus 61 = false →
     ∃ t, exec (.deviceClearFault fn hdr ps) s = .next (answered p t stOk [] p.target) ∧
       (p.b 1 0 = true → regBit t.dev (rCap 0 0) 63 = false) ∧
       (p.b 1 1 = true → regBit t.dev rFltStatus 63 = false ∧ regBit t.dev (rCap 1 0) 63 = false) ∧
       (p.b 1 0 = false → reg t.dev (rCap 0 0) = reg s.dev (rCap 0 0)) ∧
       (p.b 1 1 = false → reg t.dev rFltStatus = reg s.dev rFltStatus ∧ reg t.dev (rCap 1 0) = reg s.dev (rCap 1 0)) ∧
       (∀ a, ¬ eventPage a → ¬ ringPage a → a ∉ [rFltStatus, rFltCtrl, rCap 0 0, rCap 1 0] → reg t.dev a = reg s.dev a) ∧
       t.dev.core = s.dev.core ∧ sameOutside s t)) ∧
  (∀ (s : State) (at_ : Nat), alive s.dev = true → s.dev.pwr.resetDue = some at_ →
    ∃ t, exec .deviceResetFire s = .next t ∧ dieReset s t 2 .reset ∧
      t.dev.upTime = s.dev.upTime + (max s.dev.now at_ - s.dev.now))

/-! ### Faults -/

/-- The collector's own commands: FLT_HEARTBEAT ends the fallback, HEARTBEAT_TIMEOUT begins it, FAULT_PULSE_END ends the pulse,
FLT_CTRL_WRITE sets the three controls, CAPTURE_FREE frees a capture, ALERT_RESPONSE that wins clears PEND and puts the address on
the bus (R482, R485, R486, R488). -/
def Obligations.CollectorCommands : Prop :=
  ∀ (s : State),
    (∀ (m : Nat) (v : Word), busGo m rFltHeartbeat s → isGuide m = true → coreRuns s.dev m = true →
      ∃ t, exec (.fltHeartbeat m v) s = .next t ∧ t.dev.flt.heartbeatAt = some s.dev.now ∧ regBit t.dev rFltStatus 60 = false ∧
        onlyRegs [rFltStatus] s t ∧ t.dev.core = { s.dev.core with flt := t.dev.flt } ∧ sameOutside s t) ∧
    (∀ at_, alive s.dev = true → s.dev.flt.heartbeatAt = some at_ →
      ∃ t, exec .heartbeatTimeout s = .next t ∧ regBit t.dev rFltStatus 60 = true ∧ t.dev.flt.heartbeatAt = none ∧
        t.dev.now = max s.dev.now (at_ + 500000) ∧ onlyRegs [rFltStatus] s t ∧ t.dev.streams = s.dev.streams ∧ sameOutside s t) ∧
    (∀ at_, alive s.dev = true → s.dev.flt.pulseEnd = some at_ →
      ∃ t, exec .faultPulseEnd s = .next t ∧ t.dev.flt = { s.dev.flt with pulseEnd := none } ∧ t.dev.now = max s.dev.now at_ ∧
        t.dev.regs = s.dev.regs ∧ t.dev.streams = s.dev.streams ∧ sameOutside s t) ∧
    (∀ (m : Nat) (v : Word), busGo m rFltCtrl s →
      ∃ t, exec (.fltCtrlWrite m v) s = .next t ∧ regFld t.dev rFltCtrl 63 61 = fld v 63 61 ∧
        regFld t.dev rFltCtrl 60 0 = regFld s.dev rFltCtrl 60 0 ∧ t.dev.flt = { s.dev.flt with keepLevel := false } ∧
        onlyRegs [rFltCtrl] s t ∧ t.dev.core = { s.dev.core with flt := t.dev.flt } ∧ sameOutside s t) ∧
    (∀ (m : Nat) (k : Fin 4), busGo m (rCap k.val 0) s →
      ∃ t, exec (.captureFree m k) s = .next t ∧ regBit t.dev (rCap k.val 0) 63 = false ∧ regBit t.dev (rCap k.val 0) 61 = false ∧
        regFld t.dev (rCap k.val 0) 60 0 = regFld s.dev (rCap k.val 0) 60 0 ∧ onlyRegs [rCap k.val 0] s t ∧
        t.dev.core = s.dev.core ∧ sameOutside s t) ∧
    (alertLow s.dev = true →
      (∃ t, exec (.alertResponse true) s = .next t ∧ regBit t.dev rFltAlert 63 = false ∧ t.dev.roost = { s.dev.roost with alert := false } ∧
        t.dev.out = s.dev.out ++ [.alertAddress (0x58 + s.dev.pwr.smbAddr)] ∧ onlyRegs [rFltAlert] s t ∧
        t.dev.core = { s.dev.core with roost := t.dev.roost } ∧ sameOutside s t) ∧
      exec (.alertResponse false) s = .next s)

/-- SHARED_CE is a class C fault and is counted; SHARED_UE is a class F fault and stops the device; FUSE is a class G fault and enters
the grave hold, FAULT_N low (R476 to R481, R488). TAKEOVER hands control to the standby pair, marks the packets without a reply for replay, and is a class D fault;
TAKEOVER_COMPLETE sets TAKEOVER_US and lets command intake resume (R253, R254, R402).
Where the rules leave a reading or a value open, this is the model's choice: notes/assumptions, entry 63. -/
def Obligations.SharedFaultsAndTakeover : Prop :=
  (∀ (s : State), alive s.dev = true →
    (∀ cause : Fin 7, cause.val ≠ 0 →
      ∃ t, exec (.sharedCe cause) s = .next t ∧ reg t.dev (rFltCount 0) = errAdd (reg s.dev (rFltCount 0)) 1 ∧
        regBit t.dev rFltStatus 55 = true ∧ regBit t.dev (rCap 0 0) 63 = true ∧ t.dev.core = s.dev.core ∧ sameOutside s t) ∧
    (∀ cause : Fin 9, 1 ≤ cause.val → cause.val ≤ 6 →
      ∃ t e, exec (.sharedUe cause) s = .next t ∧ stopped t.dev = true ∧
        reg t.dev (rFltCount 2) = errAdd (reg s.dev (rFltCount 2)) 1 ∧ regBit t.dev rFltStatus 62 = true ∧
        regBit t.dev rFltStatus 53 = true ∧ t.dev.roost.entries = s.dev.roost.entries ++ [e] ∧ e.kind = 1 ∧ e.cls = 2 ∧
        t.dev.rings = [] ∧ (∀ g, (t.dev.gal g).cur = none ∧ (t.dev.gal g).closing = []) ∧ (∀ c, (t.dev.chan c).chain = none) ∧
        t.dev.streams = s.dev.streams ∧ sameOutside s t) ∧
    (∀ cause : Fin 4, cause.val ≠ 0 →
      ∃ t e, exec (.fuse cause) s = .next t ∧ dieReset s t s.dev.pwr.resetKind .grave ∧ t.dev.roost.grave = true ∧
        (s.dev.roost.up = true → faultLow t.dev = true) ∧ e ∈ t.dev.roost.entries ∧ e.kind = 1 ∧ e.cls = 3)) ∧
  (∀ (s : State), alive s.dev = true →
    (∀ cause : Fin 5, cause.val ≠ 0 → s.dev.guide.pairA = true → s.dev.guide.pairB = true →
      ∃ t, exec (.takeover cause) s = .next t ∧ t.dev.guide.takeoverAt = some s.dev.now ∧
        regBit t.dev rGuideStatus 63 = !regBit s.dev rGuideStatus 63 ∧ regBit t.dev rGuideStatus 62 = false ∧
        t.dev.guide.pairA = regBit s.dev rGuideStatus 63 ∧ t.dev.guide.pairB = !regBit s.dev rGuideStatus 63 ∧
        t.dev.rings = s.dev.rings.map (fun o => { o with replayed := true }) ∧ regBit t.dev rFltStatus 63 = true ∧
        reg t.dev (rFltCount 1) = errAdd (reg s.dev (rFltCount 1)) 1 ∧ t.dev.streams = s.dev.streams ∧ sameOutside s t) ∧
    (∀ at_, s.dev.guide.takeoverAt = some at_ → s.dev.guide.moves = [] → s.dev.pwr.warnAt = none →
      ∃ t, (s.dev.submitted = [] → exec .takeoverComplete s = .next t) ∧ exec .takeoverComplete s = .next (drain t) ∧ t.dev.guide = { s.dev.guide with takeoverAt := none } ∧
        regFld t.dev rGuideStatus 31 0 = max 1 (ceilDiv (s.dev.now - at_) 1000) % 2 ^ 32 ∧ onlyRegs [rGuideStatus] s t ∧
        t.dev.core = { s.dev.core with guide := t.dev.guide } ∧ sameOutside s t))

/-! ### Supplies, reset, temperature -/

/-- WARN begins a supply warning: counted, and the four Galleries selected, and no others, get ADMIT_HOLD; RECOVERED of the last rail ends
it and leaves an entry; HOLD_MOVE makes the move once, 500 µs after the warning began; ADMIT_HOLD_CLEAR clears ADMIT_HOLD 1 ms after
the warning ended (R496 to R500).
Where the rules leave a reading or a value open, this is the model's choice: notes/assumptions, entry 54. -/
def Obligations.SupplyWarning : Prop :=
  ∀ (s : State), alive s.dev = true →
    (∀ (rail : Fin 2) (mv : Nat), mv < warnLevel rail.val → supplyWarning s.dev = false →
      ∃ t, exec (.warn rail mv) s = .next t ∧ supplyWarning t.dev = true ∧ t.dev.pwr.warnAt = some s.dev.now ∧
        (rail.val = 0 → t.dev.pwr.vinWarn = true ∧ t.dev.pwr.coreWarn = false) ∧
        (rail.val = 1 → t.dev.pwr.vinWarn = false ∧ t.dev.pwr.coreWarn = true) ∧
        reg t.dev rPwrWarns = errAdd (reg s.dev rPwrWarns) 1 ∧
        (∀ g < 26, admitHold t.dev g = (heldSelection s.dev).contains g) ∧
        reg t.dev (rFltCount 0) = errAdd (reg s.dev (rFltCount 0)) 1 ∧ t.dev.streams = s.dev.streams ∧ t.dev.gals = s.dev.gals ∧
        sameOutside s t) ∧
    (∀ mv : Nat,
      (s.dev.pwr.vinWarn = true → s.dev.pwr.coreWarn = false → 10500 < mv →
        ∃ t e, exec (.recovered 0 mv) s = .next t ∧ supplyWarning t.dev = false ∧ t.dev.pwr.warnAt = none ∧
          t.dev.pwr.stableAt = some (s.dev.now + 1000000) ∧ t.dev.roost.entries = s.dev.roost.entries ++ [e] ∧ e.kind = 4 ∧
          t.dev.streams = s.dev.streams ∧ sameOutside s t) ∧
      (s.dev.pwr.coreWarn = true → s.dev.pwr.vinWarn = false → 720 < mv →
        ∃ t e, exec (.recovered 1 mv) s = .next t ∧ supplyWarning t.dev = false ∧ t.dev.pwr.warnAt = none ∧
          t.dev.pwr.stableAt = some (s.dev.now + 1000000) ∧ t.dev.roost.entries = s.dev.roost.entries ++ [e] ∧ e.kind = 4 ∧
          t.dev.streams = s.dev.streams ∧ sameOutside s t)) ∧
    (∀ at_, stopped s.dev = false → s.dev.pwr.warnAt = some at_ → s.dev.pwr.moved = false → s.dev.guide.takeoverAt = none →
      ∃ t, exec .holdMove s = .next t ∧ t.dev.pwr = { s.dev.pwr with moved := true } ∧ t.dev.now = max s.dev.now (at_ + 500000) ∧
        (heldGals s.dev = [] → t.dev.streams = s.dev.streams ∧ t.dev.regs = s.dev.regs) ∧ sameOutside s t) ∧
    (∀ at_, s.dev.pwr.stableAt = some at_ →
      ∃ t, exec .admitHoldClear s = .next t ∧ (∀ g < 26, admitHold t.dev g = false ∧ retired t.dev g = retired s.dev g) ∧
        t.dev.pwr = { s.dev.pwr with stableAt := none } ∧ t.dev.now = max s.dev.now at_ ∧
        (∀ a, (∀ g < 26, a ≠ rGal g oGalStatus) → reg t.dev a = reg s.dev a) ∧ t.dev.streams = s.dev.streams ∧ sameOutside s t)

/-- How the main die enters reset (R395, R478, R495, R501, R502): BROWNOUT, PERST_N_ASSERT of at least 1 µs, HOT_RESET and SHUTDOWN, each
with its cause; STANDBY_RESET resets Roost too and clears the WAKE set.
Where the rules leave a reading or a value open, this is the model's choice: notes/assumptions, entry 54. -/
def Obligations.ResetsAreEntered : Prop :=
  ∀ (s : State),
    (∀ (rail : Fin 2) (mv : Nat), alive s.dev = true → mv < (if rail.val = 0 then 9000 else 660) →
      ∃ t e, exec (.brownout rail mv) s = .next t ∧ dieReset s t (4 + rail.val) .reset ∧
        regBit t.dev rFltAlert 63 = regBit s.dev rFltAlert 59 ∧ e ∈ t.dev.roost.entries ∧ e.kind = 4) ∧
    (∀ lowNs : Nat,
      ((lowNs < 1000 ∨ s.dev.roost.grave = true) → exec (.perstNAssert lowNs) s = .next s) ∧
      (1000 ≤ lowNs → s.dev.roost.grave = false →
        ∃ t, exec (.perstNAssert lowNs) s = .next t ∧ t.dev.pwr.perst = true ∧
          (alive s.dev = true → dieReset s t 1 .reset) ∧
          (alive s.dev = false → t.dev.pwr.die = s.dev.pwr.die ∧ t.dev.regs = s.dev.regs ∧ sameOutside s t))) ∧
    (alive s.dev = true →
      (∃ t, exec .hotReset s = .next t ∧ dieReset s t 3 .reset) ∧
      (∀ (sensor : Fin 32) (degC : Nat),
        (115 < degC → ∃ t e, exec (.shutdown sensor degC) s = .next t ∧ dieReset s t 6 .reset ∧ e ∈ t.dev.roost.entries ∧ e.kind = 4) ∧
        (degC ≤ 115 → exec (.shutdown sensor degC) s = .next s))) ∧
    (∃ t, exec .standbyReset s = .next t ∧ dieReset s t 0 (if s.dev.roost.grave then .grave else .unpowered) ∧
      t.dev.roost.up = false ∧ t.dev.roost.wakeSet = [] ∧ t.dev.roost.grave = s.dev.roost.grave)

/-- How the main die leaves reset (R479, R495, R501, R503, R508, R512, R564): SUPPLY_IN_RANGE starts Roost with its TAP reset, and
powers the die up; PERST_N_RELEASE starts the die, with its boot pairs, in the boot mode sampled; RESET_EXIT ends a reset of cause 2 or 3
100 µs after it began; GRAVE_HOLD_END ends the grave hold; TIMER wakes a sleeping device.
Where the rules leave a reading or a value open, this is the model's choice: notes/assumptions, entry 54. -/
def Obligations.ResetsAreLeft : Prop :=
  ∀ (s : State),
    (∀ mv : Nat, 2900 ≤ mv → s.dev.roost.up = false → s.dev.roost.grave = false → s.dev.pwr.die = .unpowered → 10800 ≤ s.dev.pwr.vin →
      s.dev.pwr.perst = true →
      ∃ t, exec (.supplyInRange 2 mv) s = .next t ∧ t.dev.roost = { s.dev.roost with up := true } ∧ t.dev.tap = {} ∧
        t.dev.pwr = { s.dev.pwr with sb := mv, resetKind := 0, die := .waiting } ∧ t.dev.regs = s.dev.regs ∧ sameOutside s t) ∧
    (∀ mv : Nat, 10800 ≤ mv → s.dev.roost.grave = false → s.dev.pwr.die = .reset → s.dev.pwr.resetKind = 4 ∨ s.dev.pwr.resetKind = 5 →
      s.dev.pwr.backAt = none →
      ∃ t, exec (.supplyInRange 0 mv) s = .next t ∧ t.dev.pwr = { s.dev.pwr with vin := mv, backAt := some s.dev.upTime } ∧
        t.dev.regs = s.dev.regs ∧ sameOutside s t) ∧
    (∀ mode : Fin 4, s.dev.roost.grave = false → (s.dev.pwr.die = .waiting ∨ (s.dev.pwr.die = .reset ∧ s.dev.pwr.resetKind = 1)) →
      ∃ t, exec (.perstNRelease mode) s = .next t ∧ alive t.dev = true ∧ t.dev.pwr.perst = false ∧ t.dev.pwr.bootMode = mode.val ∧
        (mode.val = 3 → stopped t.dev = true) ∧
        (mode.val ≠ 3 → t.dev.regs = s.dev.regs ∧ t.dev.boot.pairs = List.range 32 ++ [35]) ∧
        (∀ b, b < 32 ∨ b = 35 → (t.dev.calBlk b).stage = 2) ∧ t.dev.streams = s.dev.streams ∧ sameOutside s t) ∧
    (s.dev.pwr.die = .reset → s.dev.pwr.resetKind = 2 ∨ s.dev.pwr.resetKind = 3 → s.dev.pwr.bootMode ≠ 3 →
      ∃ t, exec .resetExit s = .next t ∧ t.dev.upTime = max s.dev.upTime (s.dev.pwr.resetAt + 100000) ∧
        (s.dev.pwr.perst = true → t.dev.pwr = { s.dev.pwr with die := .waiting }) ∧
        (s.dev.pwr.perst = false → alive t.dev = true ∧ t.dev.boot.pairs = List.range 32 ++ [35]) ∧
        t.dev.regs = s.dev.regs ∧ sameOutside s t) ∧
    (s.dev.roost.grave = true →
      ∃ t, exec .graveHoldEnd s = .next t ∧ t.dev.roost = { s.dev.roost with grave := false, alert := false, up := false } ∧
        t.dev.pwr.die = .unpowered ∧ t.dev.regs = s.dev.regs ∧ sameOutside s t) ∧
    (∀ at_, s.dev.pwr.die = .asleep → s.dev.pwr.wakeDue = some at_ → s.dev.pwr.perst = true →
      ∃ t, exec .timer s = .next t ∧ t.dev.pwr = { s.dev.pwr with resetKind := 7, wakeDue := none, die := .waiting } ∧
        t.dev.upTime = max s.dev.upTime at_ ∧ t.dev.regs = s.dev.regs ∧ sameOutside s t)

/-- TJ_WARN and TJ_OK set and clear the temperature warning; THERMAL_TRIP above 105 °C is a class F fault; WAKE_LATCH keeps one record of
a WAKE source while the rails are down, and wakes a sleeping device; WAKE_RECORD_DELIVERY hands the records to the PF's queue (R469,
R505, R506).
Where the rules leave a reading or a value open, this is the model's choice: notes/assumptions, entry 55. -/
def Obligations.TemperatureAndWake : Prop :=
  ∀ (s : State),
    (alive s.dev = true →
      (∀ (sensor : Fin 32) (degC : Nat), regBit s.dev rPwrStatus 61 = false → regFld s.dev rPwrCtrl 63 56 ≤ degC →
        ∃ t, exec (.tjWarn sensor degC) s = .next t ∧ regBit t.dev rPwrStatus 61 = true ∧ onlyRegs [rPwrStatus, rFltAlert] s t ∧
          t.dev.core = s.dev.core ∧ sameOutside s t) ∧
      (regBit s.dev rPwrStatus 61 = true →
        ∃ t, exec .tjOk s = .next t ∧ regBit t.dev rPwrStatus 61 = false ∧ onlyRegs [rPwrStatus] s t ∧ t.dev.core = s.dev.core ∧
          sameOutside s t) ∧
      (∀ (sensor : Fin 32) (degC : Nat),
        (105 < degC →
          ∃ t, exec (.thermalTrip sensor degC) s = .next t ∧ stopped t.dev = true ∧
            reg t.dev (rFltCount 2) = errAdd (reg s.dev (rFltCount 2)) 1 ∧ t.dev.streams = s.dev.streams ∧ sameOutside s t) ∧
        (degC ≤ 105 → exec (.thermalTrip sensor degC) s = .next s))) ∧
    (∀ (src : Fin 1280) (cause : Nat),
      (railsDown s.dev = false → exec (.wakeLatch src cause) s = .next s) ∧
      (s.dev.pwr.die = .asleep → s.dev.roost.up = true → src.val ∈ [1248, 1249, 1251, 1255] → s.dev.pwr.perst = true →
        (s.dev.roost.wakeRecs.any fun r => r.1 == src.val) = false →
        (∃ n, (src.val, n) ∈ s.dev.roost.wakeSet ∧ senseTakes src.val n cause = true) →
        ∃ t, exec (.wakeLatch src cause) s = .next t ∧
          t.dev.roost.wakeRecs = s.dev.roost.wakeRecs ++ [(src.val, cause, s.dev.upTime)] ∧
          t.dev.pwr = { s.dev.pwr with resetKind := 7, wakeDue := none, die := .waiting } ∧ t.dev.regs = s.dev.regs ∧ sameOutside s t)) ∧
    (ready s.dev = true → regBit s.dev (rEq 0 oEqCtrl) 63 = true →
      ∃ t, exec .wakeRecordDelivery s = .next t ∧ t.dev.roost = { s.dev.roost with wakeRecs := [] } ∧
        onlyRegs [] s t ∧ t.dev.core = { s.dev.core with roost := t.dev.roost } ∧ sameOutside s t)

/-! ### Boot, calibration, telemetry -/

/-- BOOT_IMAGE starts verification of the image at its offset and of its length; IMAGE_VERIFIED of a good image makes the device READY with its locks set and the boot counted, and
of a bad one turns to the recovery source, fails the boot, or, from the recovery source, enters the grave hold (R368 to R371,
R502).
Where the rules leave a reading or a value open, this is the model's choice: notes/assumptions, entry 53. -/
def Obligations.TheImageBoots : Prop :=
  ∀ (s : State),
    (∀ (m : Nat) (v : Word), busGo m rBootImage s →
      (bootState s.dev = 1 → fromPcie s.dev = true →
        ∃ t, exec (.bootImage m v) s = .next t ∧ bootState t.dev = 2 ∧ regFld t.dev rBootStatus 59 58 = 1 ∧
          regBit t.dev rBootStatus 57 = s.dev.boot.recovery ∧
          t.dev.boot = { s.dev.boot with received := fld v 31 0, offset := 4096 * fld v 63 32 } ∧ onlyRegs [rBootStatus] s t ∧
          t.dev.core = { s.dev.core with boot := t.dev.boot } ∧ sameOutside s t) ∧
      (bootState s.dev ≠ 1 ∨ fromPcie s.dev = false → exec (.bootImage m v) s = .next s)) ∧
    (∀ r : ImageResult, alive s.dev = true → bootState s.dev = 2 →
      (imageError s r = 0 →
        ∃ t, exec (.imageVerified r) s = .next t ∧ ready t.dev = true ∧ regFld t.dev rSecLocks 63 61 = 7 ∧
          t.dev.boot.img = some { svn := r.svn, firmwareId := r.firmwareId, patchId := r.patchId, tableIds := r.tableIds } ∧
          t.dev.roost.bootCount = s.dev.roost.bootCount + 1 ∧ regFld t.dev rBootStatus 31 16 = r.svn % 65536 ∧
          t.nv.svnMin = (if r.raisesSvn then max s.nv.svnMin r.svn else s.nv.svnMin) ∧ t.nv.record = s.nv.record ∧ t.mem = s.mem ∧
          t.dev.streams = s.dev.streams ∧ t.pending = s.pending) ∧
      (imageError s r ≠ 0 → s.dev.boot.recovery = false → s.dev.pwr.bootMode = 0 →
        ∃ t, exec (.imageVerified r) s = .next t ∧ bootState t.dev = 1 ∧ t.dev.boot = { s.dev.boot with recovery := true, received := 0 } ∧
          regFld t.dev rBootStatus 7 0 = imageError s r % 256 ∧ sameOutside s t) ∧
      (imageError s r ≠ 0 → s.dev.boot.recovery = false → s.dev.pwr.bootMode ≠ 0 →
        ∃ t, exec (.imageVerified r) s = .next t ∧ stopped t.dev = true ∧ regFld t.dev rBootStatus 7 0 = imageError s r % 256 ∧
          sameOutside s t) ∧
      (imageError s r ≠ 0 → s.dev.boot.recovery = true →
        ∃ t, exec (.imageVerified r) s = .next t ∧ dieReset s t s.dev.pwr.resetKind .grave ∧ t.dev.roost.grave = true))

/-- CAL_TRIGGER starts a pair where the block has drifted, and is dropped during an attempt; CAL_PAIR_DONE and CAL_RETRY accept values
that agree; a pair that does not agree is retried after 1 ms, and a retry that does not agree leaves the old values in use, counted, with
a class C fault; TELEMETRY_TICK stamps the values of its tick (R510 to R517).
Where the rules leave a reading or a value open, this is the model's choice: notes/assumptions, entries 51 and 52. -/
def Obligations.CalibrationAndTelemetry : Prop :=
  ∀ (s : State),
    (∀ (b : Fin 36) (tj : Int), ready s.dev = true →
      let ref := signedOf 16 (regFld s.dev (rCal b.val 0) 47 32)
      ((s.dev.calBlk b.val).stage = 0 → regBit s.dev rPwrCtrl 47 = true → 16 * regFld s.dev rPwrCtrl 55 48 < (tj - ref).natAbs →
        ∃ t, exec (.calTrigger b tj) s = .next t ∧ ((t.dev.calBlk b.val).stage = 1 ∨ (t.dev.calBlk b.val).stage = 2) ∧
          t.dev.core = { s.dev.core with cal := t.dev.cal, freeCtr := t.dev.freeCtr } ∧ onlyRegs [] s t ∧ sameOutside s t) ∧
      ((s.dev.calBlk b.val).stage ≠ 0 → exec (.calTrigger b tj) s = .next s)) ∧
    (∀ (b : Fin 36) (tj : Int), alive s.dev = true → (s.dev.calBlk b.val).again = false →
      ((s.dev.calBlk b.val).stage = 2 →
        (∃ t, exec (.calPairDone b true tj) s = .next t ∧ (t.dev.calBlk b.val).stage = 0 ∧
          reg t.dev (rCal b.val 8) = reg s.dev (rCal b.val 8) + 1 ∧ reg t.dev (rCal b.val 0x10) = timeWord s.dev ∧
          regFld t.dev (rCal b.val 0) 47 32 = signedBits 16 tj ∧ regBit t.dev (rCal b.val 0) 62 = false ∧
          t.dev.streams = s.dev.streams ∧ sameOutside s t) ∧
        (∃ t, exec (.calPairDone b false tj) s = .next t ∧ (t.dev.calBlk b.val).stage = 3 ∧
          (t.dev.calBlk b.val).startAt = s.dev.now + 1000000 ∧ onlyRegs [] s t ∧ sameOutside s t)) ∧
      ((s.dev.calBlk b.val).stage = 3 → s.dev.boot.pairs.contains b.val = false →
        (∃ t, exec (.calRetry b true tj) s = .next t ∧ (t.dev.calBlk b.val).stage = 0 ∧
          reg t.dev (rCal b.val 8) = reg s.dev (rCal b.val 8) + 1 ∧ t.dev.now = max s.dev.now (s.dev.calBlk b.val).startAt ∧
          regBit t.dev (rCal b.val 0) 62 = false ∧ sameOutside s t) ∧
        (∃ t, exec (.calRetry b false tj) s = .next t ∧ (t.dev.calBlk b.val).stage = 0 ∧
          reg t.dev (rCal b.val 0x18) = errAdd (reg s.dev (rCal b.val 0x18)) 1 ∧ reg t.dev (rCal b.val 8) = reg s.dev (rCal b.val 8) ∧
          regBit t.dev (rCal b.val 0) 62 = true ∧ reg t.dev (rFltCount 0) = errAdd (reg s.dev (rFltCount 0)) 1 ∧
          t.dev.ind = s.dev.ind ∧ sameOutside s t))) ∧
    (∀ values : List (Nat × Bool), alive s.dev = true →
      let k := s.dev.tick + 1
      ∃ t, exec (.telemetryTick values) s = .next t ∧ t.dev.tick = k ∧ t.dev.now = max s.dev.now (k * 1000000) ∧
        reg t.dev rTelTick = word (k % 2 ^ 31) ∧ reg t.dev rTelTickPtp = timeWord t.dev ∧
        (∀ i < 40, i ≠ 6 → i ≠ 7 →
          reg t.dev (rTel i) = if (values.getD i (0, true)).2 then setBit (reg s.dev (rTel i)) 63 true
            else word (k % 2 ^ 31 * 2 ^ 32 + (values.getD i (0, true)).1 % 2 ^ 32)) ∧
        (∀ a, a ≠ rTelTick → a ≠ rTelTickPtp → (∀ i < 40, a ≠ rTel i) → reg t.dev a = reg s.dev a) ∧
        t.dev.streams = s.dev.streams ∧ sameOutside s t)

/-! ### Rings, transport, PCIe -/

/-- RING_ENABLE brings a ring with a valid geometry into service with its indices at 0, refuses another with CAUSE 3, and takes a ring out
of service with its packets; RING_SQ_TAIL submits the packets in the slots up to the new tail, which are taken as far as they can be;
an MCTP_MESSAGE before READY is answered NOT_READY but for DEVICE.QUERY, an image block is received, and the bytes of a message act as the
command or the block that they spell, those of another type or vendor as nothing (R376, R378, R400, R401).
Where the rules leave a reading or a value open, this is the model's choice: notes/assumptions, entries 16, 65 and 97. -/
def Obligations.RingsAndMessages : Prop :=
  ∀ (s : State),
    (∀ (m : Nat) (f : Fin 193) (v : Word), busGo m (rRing f.val oRingCtrl) s →
      let a := fun o => rRing f.val o
      let valid := ringGeometryOk (reg s.dev (a oSqBase)) (reg s.dev (a oSqSize)) &&
        ringGeometryOk (reg s.dev (a oCqBase)) (reg s.dev (a oCqSize))
      (bit v 63 = true → ringEnabled s.dev f.val = false → valid = true →
        ∃ t, exec (.ringEnable m f v) s = .next t ∧ ringEnabled t.dev f.val = true ∧ ringHalted t.dev f.val = false ∧
          reg t.dev (a oSqHead) = 0 ∧ reg t.dev (a oSqTail) = 0 ∧ reg t.dev (a oCqHead) = 0 ∧ reg t.dev (a oCqTail) = word (2 ^ 63) ∧
          (∀ b, b ∉ [a oSqHead, a oSqTail, a oCqHead, a oCqTail, a oRingStatus, a oRingCtrl] → reg t.dev b = reg s.dev b) ∧
          t.dev.core = s.dev.core ∧ sameOutside s t) ∧
      (bit v 63 = true → ringEnabled s.dev f.val = false → valid = false →
        ∃ t, exec (.ringEnable m f v) s = .next t ∧ ringEnabled t.dev f.val = false ∧ regFld t.dev (a oRingStatus) 55 48 = 3 ∧
          (∀ b, b ∉ [a oRingStatus, a oRingCtrl] → reg t.dev b = reg s.dev b) ∧ t.dev.core = s.dev.core ∧ sameOutside s t) ∧
      (bit v 63 = false → ringEnabled s.dev f.val = true →
        ∃ t, exec (.ringEnable m f v) s = .next t ∧ ringEnabled t.dev f.val = false ∧
          t.dev.rings = s.dev.rings.map (fun o => if o.fn = f.val then { o with dropped := true } else o) ∧
          t.dev.submitted = s.dev.submitted.filter (fun p => p.fn != f.val) ∧
          (∀ b, b ≠ a oRingCtrl → reg t.dev b = reg s.dev b) ∧ t.dev.streams = s.dev.streams ∧ sameOutside s t)) ∧
    (∀ (m : Nat) (f : Fin 193) (v : Word) (slots : List Word), busGo m (rRing f.val oSqTail) s →
      (ringEnabled s.dev f.val = false →
        ∃ t, exec (.ringSqTail m f v slots) s = .next t ∧ reg t.dev (rRing f.val oSqTail) = word (fld v 15 0) ∧
          onlyRegs [rRing f.val oSqTail] s t ∧ t.dev.core = s.dev.core ∧ sameOutside s t) ∧
      (ringEnabled s.dev f.val = true →
        let n := max 1 (regFld s.dev (rRing f.val oSqSize) 16 0)
        let avail := (fld v 15 0 % n + n - regFld s.dev (rRing f.val oSqHead) 15 0 % n) % n
        ∃ t, (t.dev.submitted = [] → exec (.ringSqTail m f v slots) s = .next t) ∧ exec (.ringSqTail m f v slots) s = .next (drain t) ∧
          reg t.dev (rRing f.val oSqTail) = word (fld v 15 0) ∧
          t.dev.submitted = (s.dev.submitted.filter fun p => p.fn != f.val) ++ parseSlots avail f.val (slots.take (8 * avail)) ∧
          onlyRegs [rRing f.val oSqTail] s t ∧ t.dev.core = { s.dev.core with submitted := t.dev.submitted } ∧ sameOutside s t)) ∧
    (∀ (tag : Fin 8), s.dev.roost.up = true →
      (∀ (hdr : Word) (ps : List Word), ready s.dev = false → stopped s.dev = false → mctpOutstanding s.dev < 8 →
        (fld hdr 63 48 ≠ 0x0101 →
          exec (.mctpMessage tag (.command hdr ps)) s =
            .next (s.onDev fun d => emit d (.mctp tag.val (mctpReply [replyHdr hdr 0 (fld hdr 31 16) stNotReady false false])))) ∧
        (fld hdr 63 48 = 0x0101 → fld hdr 47 43 = 0 → fld hdr 13 0 = 0 → fld hdr 31 16 = 0 → bit hdr 14 = false →
          exec (.mctpMessage tag (.command hdr ps)) s =
            .next (s.onDev fun d => emit d (.mctp tag.val (mctpReply
              [ replyHdr hdr 5 0 stOk false false, bootStatus s, word (0x0192 * 2 ^ 48 + 0xB1 * 2 ^ 40 + ordinalOf s), 0, 0, 0 ]))))) ∧
      (∀ (off : Nat) (bytes : List Byte) (last : Bool),
        alive s.dev = true → bootState s.dev = 1 → fromSmbus s.dev = true → 1 ≤ bytes.length → bytes.length ≤ 1024 →
        ∃ t, exec (.mctpMessage tag (.imageBlock off bytes last)) s = .next t ∧
          t.dev.boot = { s.dev.boot with
            received := max s.dev.boot.received (off + bytes.length), offset := if last then 0 else s.dev.boot.offset } ∧
          bootState t.dev = (if last then 2 else 1) ∧ onlyRegs [rBootStatus] s t ∧
          t.dev.core = { s.dev.core with boot := t.dev.boot } ∧ sameOutside s t) ∧
      -- a message acts as the body that its bytes spell, most significant byte first
      (∀ (hdr : Word) (ps : List Word) (last : Bool), ps.length = fld hdr 47 43 →
        exec (.mctpMessage tag (.message ([0x7E] ++ natBytesBE 2 Config.vendorId ++ [1, 0, 0, 0] ++ (hdr :: ps).flatMap bytesBE) last)) s =
          exec (.mctpMessage tag (.command hdr ps)) s) ∧
      (∀ (off : Nat) (bytes : List Byte) (last : Bool), off < two32 → 1 ≤ bytes.length → bytes.length ≤ 1024 →
        exec (.mctpMessage tag (.message ([0x7E] ++ natBytesBE 2 Config.vendorId ++ [3, 0, 0, 0] ++ natBytesBE 4 off ++ bytes) last)) s =
          exec (.mctpMessage tag (.imageBlock off bytes last)) s) ∧
      (∀ (bytes : List Byte) (last : Bool), bytes.take 3 ≠ [0x7E] ++ natBytesBE 2 Config.vendorId →
        exec (.mctpMessage tag (.message bytes last)) s = .next s))

/-- FUNCTION_LEVEL_RESET takes the rings and the event queue of its function out of service and returns what a VF owned to the PF;
ERROR_COMPLETION and COMPLETION_TIMEOUT halt a ring, or abandon the chain of a channel; COMPLETION_TIMEOUT_VALUE sets CTO_US;
LATE_COMPLETION is counted; BAR2_ACCESS writes and reads device memory, the links of free buffers among it, where it is granted and does
neither where it is denied;
PCIE_LINK_DOWN and PCIE_LINK_UP move the link's state alone (R21, R381, R404, R412 to R414, R426, R439, R502, R512).
Where the rules leave a reading or a value open, this is the model's choice: notes/assumptions, entries 8 and 9. -/
def Obligations.PcieHappenings : Prop :=
  ∀ (s : State), alive s.dev = true →
    (∀ f : Fin 193,
      ∃ t, exec (.functionLevelReset f) s = .next t ∧ ringEnabled t.dev f.val = false ∧
        regBit t.dev (rEq f.val oEqCtrl) 63 = false ∧ t.dev.submitted = s.dev.submitted.filter (fun p => p.fn != f.val) ∧
        (∀ n < 192, t.dev.streamOwner n = if f.val ≠ 0 ∧ s.dev.streamOwner n = f.val then 0 else s.dev.streamOwner n) ∧
        (∀ c < 96, t.dev.ctxOwner c = if f.val ≠ 0 ∧ s.dev.ctxOwner c = f.val then 0 else s.dev.ctxOwner c) ∧
        t.dev.streams = s.dev.streams ∧ sameOutside s t) ∧
    ((∀ f ≤ 192, ringEnabled s.dev f = true → ringHalted s.dev f = false →
        (∃ t, exec (.errorCompletion (.slots f)) s = .next t ∧ ringHalted t.dev f = true ∧
          regFld t.dev (rRing f oRingStatus) 55 48 = 1 ∧ onlyRegs [rRing f oRingStatus] s t ∧ t.dev.core = s.dev.core ∧ sameOutside s t) ∧
        (∃ t, exec (.completionTimeout (.slots f)) s = .next t ∧ ringHalted t.dev f = true ∧
          regFld t.dev (rRing f oRingStatus) 55 48 = 2 ∧ onlyRegs [rRing f oRingStatus] s t ∧ t.dev.core = s.dev.core ∧ sameOutside s t)) ∧
      (∀ c < 288, (s.dev.chan c).chain.isSome = true →
        (∀ tail : Bool, (tail && (s.dev.chan c).desc.isSome) = false →
          ∃ t, exec (.errorCompletion (.shaft c tail)) s = .next t ∧ (t.dev.chan c).chain = none ∧ (t.dev.chan c).desc = none ∧
            reg t.dev (rCh c (oChErr 3)) = errAdd (reg s.dev (rCh c (oChErr 3))) 1 ∧ onlyRegs [rCh c (oChErr 3)] s t ∧
            t.dev.core = { s.dev.core with chans := t.dev.chans } ∧ sameOutside s t) ∧
        (∀ tail : Bool,
          ∃ t, exec (.completionTimeout (.shaft c tail)) s = .next t ∧ (t.dev.chan c).chain = none ∧ (t.dev.chan c).desc = none ∧
            reg t.dev (rCh c (oChErr 2)) = errAdd (reg s.dev (rCh c (oChErr 2))) 1 ∧ onlyRegs [rCh c (oChErr 2)] s t ∧
            t.dev.core = { s.dev.core with chans := t.dev.chans } ∧ sameOutside s t))) ∧
    (∀ code : Fin 16,
      (∀ us, timeoutRange code.val = some us →
        ∃ t, exec (.completionTimeoutValue code) s = .next t ∧ regFld t.dev rPcieCtrl 31 0 = us ∧
          (∀ a, a ≠ rPcieCtrl → reg t.dev a = reg s.dev a) ∧ t.dev = { s.dev with regs := t.dev.regs } ∧ sameOutside s t) ∧
      (timeoutRange code.val = none → exec (.completionTimeoutValue code) s = .next s)) ∧
    (∃ t, exec .lateCompletion s = .next t ∧ reg t.dev rPcieLateCpl = errAdd (reg s.dev rPcieLateCpl) 1 ∧
      (∀ a, a ≠ rPcieLateCpl → reg t.dev a = reg s.dev a) ∧ t.dev = { s.dev with regs := t.dev.regs } ∧ sameOutside s t) ∧
    (∀ (off len : Nat), off + len ≤ bar2Size s.dev →
      let a := (reg s.dev rPcieBar2Offset).toNat + off
      (∀ bs : List Byte,
        (memGranted s.dev 0 a bs.length true = true →
          ∃ t, exec (.bar2Access off (some bs) len) s = .next t ∧ (∀ k, k < bs.length → t.byte (a + k) = bs.getD k 0) ∧
            (∀ k, k < bs.length → busByte t (a + k) = bs.getD k 0) ∧
            (∀ b, (b < a ∨ a + bs.length ≤ b) → t.byte b = s.byte b) ∧
            ((∀ k, k < bs.length → linkAt s.dev (a + k) = none) → t.dev = s.dev) ∧
            t.dev = { s.dev with mouth := { s.dev.mouth with free := t.dev.mouth.free } } ∧ t.nv = s.nv ∧ t.pending = s.pending) ∧
        (memGranted s.dev 0 a bs.length true = false →
          ∃ t, exec (.bar2Access off (some bs) len) s = .next t ∧ reg t.dev rAccDenied = errAdd (reg s.dev rAccDenied) 1 ∧
            t.dev.core = s.dev.core ∧ sameOutside s t)) ∧
      (memGranted s.dev 0 a len false = true →
        exec (.bar2Access off none len) s = .next (s.onDev fun d => emit d (.bytes ((List.range len).map fun i => busByte s (a + i)) false))) ∧
      (memGranted s.dev 0 a len false = false →
        ∃ t, exec (.bar2Access off none len) s = .next t ∧ Out.bytes (List.replicate len 0) false ∈ t.dev.out ∧
          reg t.dev rAccDenied = errAdd (reg s.dev rAccDenied) 1 ∧ t.dev.core = s.dev.core ∧ sameOutside s t)) ∧
    (∃ t, exec .pcieLinkDown s = .next t ∧ reg t.dev rPcieLink = 0 ∧ t.dev.pwr = { s.dev.pwr with linkUp := false } ∧
      onlyRegs [rPcieLink] s t ∧ t.dev.core = { s.dev.core with pwr := t.dev.pwr } ∧ sameOutside s t) ∧
    (∀ (width speed : Nat) (flit : Bool),
      ∃ t, exec (.pcieLinkUp width speed flit) s = .next t ∧
        reg t.dev rPcieLink = word (width % 256 * 2 ^ 56 + speed % 256 * 2 ^ 48 + flit.toNat * 2 ^ 47) ∧
        t.dev.pwr = { s.dev.pwr with linkUp := true, linkSeen := true } ∧ (s.dev.pwr.linkSeen = false → (t.dev.calBlk 34).stage = 2) ∧
        (∀ b, b ≠ 34 → t.dev.calBlk b = s.dev.calBlk b) ∧ onlyRegs [rPcieLink] s t ∧ t.dev.streams = s.dev.streams ∧ sameOutside s t)

/-! ### Shaft -/

/-- SHAFT_CH_POST queues a chain of the target's owner, counts one for a target that is off as STALE, and one beyond four as OVERRUN;
SHAFT_CH_CTRL_WRITE takes a valid value and ignores another; DESCRIPTOR_START runs the HEAD of the next chain, or starts a descriptor;
DESCRIPTOR_COMPLETE frees the channel's descriptor, and luma rows stand in the frame's slot, and nowhere else (R416 to R418, R422, R424,
R425, R429).
Where the rules leave a reading or a value open, this is the model's choice: notes/assumptions, entries 26 and 50. -/
def Obligations.ShaftMovesDescriptors : Prop :=
  ∀ (s : State) (c : Fin 288),
    (∀ (m : Nat) (v : Word), busGo m (rCh c.val oChPost) s →
      (targetOff s.dev c.val = true →
        ∃ t, exec (.shaftChPost m c v) s = .next t ∧ reg t.dev (rCh c.val (oChErr 5)) = errAdd (reg s.dev (rCh c.val (oChErr 5))) 1 ∧
          (∀ a, a ≠ rCh c.val (oChErr 5) → reg t.dev a = reg s.dev a) ∧ t.dev = { s.dev with regs := t.dev.regs } ∧ sameOutside s t) ∧
      (targetOff s.dev c.val = false → 4 ≤ (s.dev.chan c.val).queue.length →
        ∃ t, exec (.shaftChPost m c v) s = .next t ∧ reg t.dev (rCh c.val (oChErr 6)) = errAdd (reg s.dev (rCh c.val (oChErr 6))) 1 ∧
          onlyRegs [rCh c.val (oChErr 6)] s t ∧ t.dev.core = s.dev.core ∧ sameOutside s t) ∧
      (targetOff s.dev c.val = false → (s.dev.chan c.val).queue.length < 4 →
        ∃ t, exec (.shaftChPost m c v) s = .next t ∧
          t.dev.chan c.val = { s.dev.chan c.val with
            queue := (s.dev.chan c.val).queue ++ [(v.toNat, if c.val < 192 then s.dev.streamOwner c.val else s.dev.ctxOwner (c.val - 192))]
            served := true } ∧
          (∀ k, k ≠ c.val → t.dev.chan k = s.dev.chan k) ∧ t.dev = { s.dev with chans := t.dev.chans } ∧ sameOutside s t)) ∧
    (∀ (m : Nat) (v : Word), busGo m (rCh c.val oChCtrl) s →
      (chCtrlOk s.dev c.val v = true →
        ∃ t, exec (.shaftChCtrlWrite m c v) s = .next t ∧ reg t.dev (rCh c.val oChCtrl) = v ∧
          (∀ a, a ≠ rCh c.val oChCtrl → a ≠ rCh c.val oChStatus → reg t.dev a = reg s.dev a) ∧ t.dev.core = s.dev.core ∧ sameOutside s t) ∧
      (chCtrlOk s.dev c.val v = false →
        ∃ t, exec (.shaftChCtrlWrite m c v) s = .next t ∧ onlyRegs [] s t ∧ t.dev.core = s.dev.core ∧ sameOutside s t)) ∧
    (∀ ws : List Word, working s.dev = true → regBit s.dev rShaftCtrl 63 = true →
      (s.dev.chans.any fun e => e.2.desc.isSome) = false → waits s.dev c.val ws = false → nextOk ws = true →
      (∀ h, (s.dev.chan c.val).chain = some h → h.headDone = true → dType ws ≠ 0 → h.next % 32 = 0 →
        bodyOk s.dev c.val h.frame ws = true →
        ∃ t, exec (.descriptorStart c ws) s = .next t ∧ t.dev.chan c.val = { s.dev.chan c.val with desc := some ws } ∧
          (∀ k, k ≠ c.val → t.dev.chan k = s.dev.chan k) ∧ t.dev = { s.dev with chans := t.dev.chans } ∧ sameOutside s t) ∧
      (∀ addr owner rest, (s.dev.chan c.val).chain = none → (s.dev.chan c.val).queue = (addr, owner) :: rest → dType ws = 0 →
        headOk c.val ws = true → addr % 32 = 0 → dLast ws = false → 1 < regFld s.dev (rCh c.val oChCtrl) 63 48 →
        (c.val < 192 → regBit s.dev (rLan c.val oLanRows) 0 = true →
          frameAfter (regFld s.dev (rLan c.val oLanRows) 63 32) (fld (ws.getD 2 0) 31 0) = false) →
        ∃ t, exec (.descriptorStart c ws) s = .next t ∧
          t.dev.chan c.val = { s.dev.chan c.val with
            queue := rest, desc := none
            chain := some { owner := owner, frame := fld (ws.getD 2 0) 31 0, record := (ws.getD 1 0).toNat, next := (ws.getD 3 0).toNat,
                            descs := 1, headDone := true, ctrl := reg s.dev (rCh c.val oChCtrl) } } ∧
          (∀ k, k ≠ c.val → t.dev.chan k = s.dev.chan k) ∧ onlyRegs [rCh c.val oChDescs] s t ∧
          t.dev.core = { s.dev.core with chans := t.dev.chans } ∧ sameOutside s t)) ∧
    (∀ (bytes : List Byte) (h : Chain) (ws : List Word), working s.dev = true →
      (s.dev.chan c.val).chain = some h → (s.dev.chan c.val).desc = some ws →
      ∃ t, exec (.descriptorComplete c bytes) s = .next t ∧ (t.dev.chan c.val).desc = none ∧ t.nv = s.nv ∧ t.pending = s.pending ∧
        ∀ p : Plane, c.val < 192 → dType ws = 1 → dPlane ws = 0 → planeOf s.dev c.val h.frame ws = some p → dBytes ws ≤ p.pitch →
          bytes.length = dRows ws * dBytes ws →
          (∀ k < dRows ws, memGranted s.dev 0xF8 (p.base + (dFirst ws + k) * p.pitch) (dBytes ws) true = true ∧
            memGranted s.dev h.owner (p.base + (dFirst ws + k) * p.pitch) (dBytes ws) true = true) →
          (∀ k < dRows ws, ∀ j < dBytes ws, t.byte (p.base + (dFirst ws + k) * p.pitch + j) = bytes.getD (k * dBytes ws + j) 0) ∧
          (∀ a, (∀ k < dRows ws, a < p.base + (dFirst ws + k) * p.pitch ∨ p.base + (dFirst ws + k) * p.pitch + dBytes ws ≤ a) →
            t.byte a = s.byte a) ∧
          (frameRows (t.dev.chan c.val) h.frame).luma =
            (frameRows (s.dev.chan c.val) h.frame).luma ++ [(dFirst ws, dFirst ws + dRows ws)])

/-! ### The memory controller -/

/-- CORRECTED and UNCORRECTED are counted and leave memory below the output FIFOs as it is; an unreadable source row is missing, an unreadable line of a context
in use hurts it; SCRUB_LINE and NEIGHBOUR are counted; REFRESH_WINDOW clears the tracked rows; AGE_PROMOTION moves a request that has
waited AGE_NS one class up (R447 to R450, R452).
Where the rules leave a reading or a value open, this is the model's choice: notes/assumptions, entries 61 and 62. -/
def Obligations.MemoryControllerCounts : Prop :=
  ∀ (s : State) (m : Fin 32), alive s.dev = true →
    (∀ (line : Nat) (rewritten : Bool),
      ∃ t, exec (.corrected m line rewritten) s = .next t ∧
        reg t.dev (rMc m.val oMcCe) = errAdd (reg s.dev (rMc m.val oMcCe)) 1 ∧
        reg t.dev (rMc m.val oMcLastErr) = word (line % 2 ^ 36) ∧ regBit t.dev rFltStatus 55 = true ∧
        t.dev.core = { s.dev.core with memc := t.dev.memc } ∧ sameOutside s t) ∧
    (∀ (line : Nat) (tag : Bool),
      (∃ t, exec (.uncorrected m line tag .scrubber) s = .next t ∧
        reg t.dev (rMc m.val oMcUe) = errAdd (reg s.dev (rMc m.val oMcUe)) 1 ∧
        reg t.dev (rMc m.val oMcLastErr) = word (2 ^ 63 + tag.toNat * 2 ^ 62 + line % 2 ^ 36) ∧
        reg t.dev (rFltCount 0) = errAdd (reg s.dev (rFltCount 0)) 1 ∧ t.dev.core = { s.dev.core with gals := t.dev.gals } ∧
        (∀ g, (t.dev.gal g).fifo.map (fun it => { it with place := none }) = (s.dev.gal g).fifo.map fun it => { it with place := none }) ∧
        onlyOutputs s t) ∧
      (∀ n frame row,
        ∃ t, exec (.uncorrected m line tag (.source n frame row)) s = .next t ∧
          reg t.dev (rMc m.val oMcUe) = errAdd (reg s.dev (rMc m.val oMcUe)) 1 ∧
          (row, row + 1) ∈ (frameRows (t.dev.chan n) frame).missing ∧ (∀ k, k ≠ n → t.dev.stream k = s.dev.stream k) ∧ onlyOutputs s t) ∧
      (∀ k sbs, (s.dev.ctx k).phase ≠ .free →
        ∃ t, exec (.uncorrected m line tag (.ingest k sbs)) s = .next t ∧
          reg t.dev (rMc m.val oMcUe) = errAdd (reg s.dev (rMc m.val oMcUe)) 1 ∧
          t.dev.ctx k = { s.dev.ctx k with hurt := (s.dev.ctx k).hurt + sbs } ∧ onlyCtx k s t ∧
          t.dev.streams = s.dev.streams ∧ onlyOutputs s t)) ∧
    (∀ line : Nat,
      (∃ t, exec (.scrubLine m line 0) s = .next t ∧ reg t.dev (rMc m.val oMcScrubbed) = reg s.dev (rMc m.val oMcScrubbed) + 1 ∧
        onlyRegs [rMc m.val oMcScrubbed] s t ∧ t.dev.core = s.dev.core ∧ sameOutside s t) ∧
      (∃ t, exec (.scrubLine m line 1) s = .next t ∧ reg t.dev (rMc m.val oMcScrubbed) = reg s.dev (rMc m.val oMcScrubbed) + 1 ∧
        reg t.dev (rMc m.val oMcCe) = errAdd (reg s.dev (rMc m.val oMcCe)) 1 ∧ sameOutside s t)) ∧
    (∀ (bank : Fin 16) (row : Nat),
      ∃ t, exec (.neighbour m bank row) s = .next t ∧ reg t.dev (rMc m.val oMcNrr) = reg s.dev (rMc m.val oMcNrr) + 1 ∧
        (row, 0) ∈ t.dev.memc.rows.get [] (16 * m.val + bank.val) ∧
        (∀ k, k ≠ 16 * m.val + bank.val → t.dev.memc.rows.get [] k = s.dev.memc.rows.get [] k) ∧
        onlyRegs [rMc m.val oMcNrr] s t ∧ t.dev.core = { s.dev.core with memc := t.dev.memc } ∧ sameOutside s t) ∧
    (∃ t, exec .refreshWindow s = .next t ∧ (∀ k, t.dev.memc.rows.get [] k = []) ∧
      t.dev = { s.dev with memc := { s.dev.memc with rows := t.dev.memc.rows } } ∧ sameOutside s t) ∧
    (∀ (cls : Fin 4) (arrived who : Nat), cls.val ≠ 0 →
      s.dev.memc.promoted.find? (sameRequest m.val cls.val arrived who) = none →
      ∃ t, exec (.agePromotion m cls arrived who) s = .next t ∧
        t.dev.now = max s.dev.now (arrived + regFld s.dev (rClassAge cls.val) 31 0) ∧
        (m.val, cls.val - 1, arrived, who, t.dev.now) ∈ t.dev.memc.promoted ∧ t.dev.regs = s.dev.regs ∧
        t.dev.streams = s.dev.streams ∧ sameOutside s t)

/-- The three address orders are bijections of the 59.5 GiB below the mirror region onto the 1,904 MiB of each of the 32 channels; FINE
spreads every 8 KiB of aligned addresses over all channels, PAGE keeps each 4 KiB page on one, HALVES confines each half of the
addresses to 16 channels; with the mirror region, whose two copies lie on channels c and c + 16 at the same local address, no two
backed addresses share a place (R444, R445). -/
def Obligations.AddressOrdersAreBijections : Prop :=
  (∀ order < 3,
    (∀ a < 63887638528, (orderMap order a).1 < 32 ∧ (orderMap order a).2 < 1996488704) ∧
    (∀ c < 32, ∀ x < 1996488704, ∃ a < 63887638528, orderMap order a = (c, x) ∧ ∀ b < 63887638528, orderMap order b = (c, x) → b = a)) ∧
  (∀ a, a % 8192 = 0 → ∀ c < 32, ∃ i < 32, (orderMap 0 (a + 256 * i)).1 = c) ∧
  (∀ a b, a / 4096 = b / 4096 → (orderMap 1 a).1 = (orderMap 1 b).1) ∧
  (∀ a < 63887638528, (orderMap 2 a).1 < 16 ↔ a < 31943819264) ∧
  (∀ x < 268435456, (mirrorMap false x).1 < 16 ∧ mirrorMap true x = ((mirrorMap false x).1 + 16, (mirrorMap false x).2) ∧
    1996488704 ≤ (mirrorMap false x).2 ∧ (mirrorMap false x).2 < 2013265920) ∧
  (∀ (d : Dev) (a b : Nat), a < Config.memBytes → b < Config.memBytes → channelOf d a = channelOf d b → a = b)

/-! ### Event queues -/

/-- EQ_ENABLE brings a queue with a valid geometry into service, empty, and reports another as ERROR; EQ_HEAD sets HEAD; EQ_CPL clears
ACTIVE of a source that waits for this function, and counts another completion as spurious; FAST_PEND frees the slots whose bits are
set; COAL_US_EXPIRY sends vector 0 (R465 to R467, R471).
Where the rules leave a reading or a value open, this is the model's choice: notes/assumptions, entry 59. -/
def Obligations.EventQueueRegisters : Prop :=
  ∀ (s : State) (f : Fin 193),
    (∀ (m : Nat) (v : Word), busGo m (rEq f.val oEqCtrl) s →
      let n := regFld s.dev (rEq f.val oEqSize) 16 0
      let valid := (reg s.dev (rEq f.val oEqBase)).toNat % 4096 = 0 ∧ isPow2 n = true ∧ 256 ≤ n ∧ n ≤ 65536
      (fld v 47 32 = 0 ∨ fld v 15 0 = 0 → exec (.eqEnable m f v) s = .next s) ∧
      (fld v 47 32 ≠ 0 → fld v 15 0 ≠ 0 → bit v 63 = true → regBit s.dev (rEq f.val oEqCtrl) 63 = false →
        (valid →
          ∃ t, exec (.eqEnable m f v) s = .next t ∧ regBit t.dev (rEq f.val oEqCtrl) 63 = true ∧ reg t.dev (rEq f.val oEqHead) = 0 ∧
            reg t.dev (rEq f.val oEqTail) = word (2 ^ 63) ∧ regBit t.dev (rEq f.val oEqStatus) 63 = false ∧
            regFld t.dev (rEq f.val oEqCtrl) 47 32 = fld v 47 32 ∧ regFld t.dev (rEq f.val oEqCtrl) 15 0 = fld v 15 0 ∧
            (∀ a, a ∉ [rEq f.val oEqCtrl, rEq f.val oEqHead, rEq f.val oEqTail, rEq f.val oEqStatus] → reg t.dev a = reg s.dev a) ∧
            t.dev.core = s.dev.core ∧ sameOutside s t) ∧
        (¬ valid →
          ∃ t, exec (.eqEnable m f v) s = .next t ∧ regBit t.dev (rEq f.val oEqCtrl) 63 = false ∧
            regBit t.dev (rEq f.val oEqStatus) 63 = true ∧
            (∀ a, a ∉ [rEq f.val oEqCtrl, rEq f.val oEqStatus] → reg t.dev a = reg s.dev a) ∧ t.dev.core = s.dev.core ∧
            sameOutside s t))) ∧
    (∀ (m : Nat) (v : Word), busGo m (rEq f.val oEqHead) s →
      ∃ t, exec (.eqHead m f v) s = .next t ∧ reg t.dev (rEq f.val oEqHead) = word (fld v 15 0) ∧
        (∀ a, a ≠ rEq f.val oEqHead → reg t.dev a = reg s.dev a) ∧ t.dev.core = s.dev.core ∧ sameOutside s t) ∧
    (∀ (m : Nat) (v : Word), busGo m (rEq f.val oEqCpl) s →
      let src := fld v 10 0
      (s.dev.activeFn.get 0 src ≠ f.val + 1 →
        ∃ t, exec (.eqCpl m f v) s = .next t ∧ reg t.dev (rEq f.val oEqSpurious) = errAdd (reg s.dev (rEq f.val oEqSpurious)) 1 ∧
          (∀ a, a ≠ rEq f.val oEqSpurious → reg t.dev a = reg s.dev a) ∧ t.dev = { s.dev with regs := t.dev.regs } ∧ sameOutside s t) ∧
      (s.dev.activeFn.get 0 src = f.val + 1 →
        ∃ t, exec (.eqCpl m f v) s = .next t ∧ onlyRegs [] s t ∧ t.dev.core = s.dev.core ∧ sameOutside s t ∧
          ((srcEn s.dev src = false ∨ srcSense s.dev src ≠ 0) → srcActive t.dev src = false ∧ t.dev.regs = s.dev.regs) ∧
          (srcSense s.dev src = 0 → srcState s.dev src = false → s.dev.srcs.get [] src = [] → srcActive t.dev src = false))) ∧
    (∀ (m : Nat) (v : Word), busGo m (rEq f.val oFastPend) s →
      ∃ t, exec (.fastPend m f v) s = .next t ∧
        (∀ k < 16, regBit t.dev (rEq f.val oFastPend) k = (regBit s.dev (rEq f.val oFastPend) k && !bit v k)) ∧
        (∀ a, a ≠ rEq f.val oFastPend → reg t.dev a = reg s.dev a) ∧ t.dev = { s.dev with regs := t.dev.regs } ∧ sameOutside s t) ∧
    (alive s.dev = true → (s.dev.eqx f.val).since ≠ 0 →
      ∃ t, exec (.coalUsExpiry f) s = .next t ∧ t.dev.out = s.dev.out ++ [.msix f.val 0] ∧ (t.dev.eqx f.val).since = 0 ∧
        t.dev.now = max s.dev.now ((s.dev.eqx f.val).firstAt + regFld s.dev (rEq f.val oEqCtrl) 15 0 * 1000) ∧
        t.dev.regs = s.dev.regs ∧ t.dev.streams = s.dev.streams ∧ sameOutside s t)

/-! ### BAR0 -/

/-- The Guide mailbox behaves as memory for masters 0xF0 to 0xF3 and 0xFF; for every other master it reads as zero and ignores writes; no
such access is a denial, and none raises an event (R540). -/
def Obligations.MailboxIsGuideMemory : Prop :=
  ∀ (m a : Nat) (s : State), alive s.dev = true → 0x1000 ≤ a → a < 0x100000 → a % 8 = 0 →
    (barGranted s.dev m a true = true → ∀ v : Word,
      ((isGuide m = true ∨ m = 0xFF) →
        ∃ t, exec (.registerWrite m a v true) s = .next t ∧ reg t.dev a = v ∧ (∀ b, b ≠ a → reg t.dev b = reg s.dev b) ∧
          t.dev = { s.dev with regs := t.dev.regs } ∧ sameOutside s t) ∧
      (isGuide m = false → m ≠ 0xFF → exec (.registerWrite m a v true) s = .next s)) ∧
    (barGranted s.dev m a false = true →
      ((isGuide m = true ∨ m = 0xFF) → exec (.rcRead m a true) s = .next (s.onDev fun d => emit d (.read m (reg d a)))) ∧
      (isGuide m = false → m ≠ 0xFF → exec (.rcRead m a true) s = .next (s.onDev fun d => emit d (.read m 0))))

/-- Accesses to registers (R370, R472, R541 to R544, R547, R548, R551 to R555): REGISTER_WRITE sets a register without a behaviour of its
own and counts a narrow write; RC_READ returns the register and clears its RC fields, but not over SMBus or JTAG; COUNTER_CLEAR clears
the counters whose bits are set; LOCK_SET sets lock bits and clears none; SHADOW_WRITE changes the shadow alone; CFG_COMMIT_ALL and
CFG_COMMIT_GROUP land every shadow captured, or none; IND_DATA_READ and IND_DATA_WRITE reach the word that IND_ADDR names.
Where the rules leave a reading or a value open, this is the model's choice: notes/assumptions, entries 28, 58, 59 and 60. -/
def Obligations.RegisterAccesses : Prop :=
  ∀ (s : State) (m : Nat),
    (∀ v : Word, busGo m rGlbScratch s →
      ∃ t, exec (.registerWrite m rGlbScratch v true) s = .next t ∧ reg t.dev rGlbScratch = v ∧
        (∀ a, a ≠ rGlbScratch → reg t.dev a = reg s.dev a) ∧ t.dev = { s.dev with regs := t.dev.regs } ∧ sameOutside s t) ∧
    (∀ (a : Nat) (v : Word) (wide : Bool), alive s.dev = true → barGranted s.dev m a true = true → tokenPage a = none →
      (wide = false ∨ a % 8 ≠ 0) →
      ∃ t, exec (.registerWrite m a v wide) s = .next t ∧ reg t.dev rGlbNarrow = errAdd (reg s.dev rGlbNarrow) 1 ∧
        (∀ b, b ≠ rGlbNarrow → reg t.dev b = reg s.dev b) ∧ t.dev = { s.dev with regs := t.dev.regs } ∧ sameOutside s t) ∧
    (∀ (a : Nat) (i : RegInfo), alive s.dev = true → barGranted s.dev m a false = true → a % 8 = 0 → (regAt a).2 = some i →
      i.wo = false → a ≠ rIndData → (a < 0x600100 ∨ 0x6001A0 ≤ a) →
      ∃ t, exec (.rcRead m a true) s = .next t ∧ t.dev.out = s.dev.out ++ [.read m (regValue s a)] ∧
        reg t.dev a = (if m = 0xFE ∨ m = 0xFF then reg s.dev a else (reg s.dev a &&& ~~~i.rc) ||| (i.reset &&& i.rc)) ∧
        (∀ b, b ≠ a → reg t.dev b = reg s.dev b) ∧ t.dev.core = s.dev.core ∧ sameOutside s t) ∧
    (∀ (a : Nat) (v : Word) (l : List (Nat × Nat)), busGo m a s → clearBits a = some l →
      ∃ t, exec (.counterClear m a v) s = .next t ∧
        (∀ b, reg t.dev b = if (l.any fun x => x.2 == b && bit v x.1) then 0 else reg s.dev b) ∧
        t.dev = { s.dev with regs := t.dev.regs } ∧ sameOutside s t) ∧
    (∀ v : Word,
      (busGo m rSecLocks s →
        ∃ t, exec (.lockSet m rSecLocks v) s = .next t ∧ reg t.dev rSecLocks = reg s.dev rSecLocks ||| (v &&& ones 63 61) ∧
          (∀ a, a ≠ rSecLocks → reg t.dev a = reg s.dev a) ∧ t.dev = { s.dev with regs := t.dev.regs } ∧ sameOutside s t) ∧
      (∀ g : Fin 26, busGo m (rGal g.val oUcCtrl) s →
        ∃ t, exec (.lockSet m (rGal g.val oUcCtrl) v) s = .next t ∧
          regBit t.dev (rGal g.val oUcCtrl) 62 = (regBit s.dev (rGal g.val oUcCtrl) 62 || bit v 62) ∧
          t.dev.core = s.dev.core ∧ sameOutside s t)) ∧
    (∀ (a : Nat) (v : Word) (i : RegInfo), busGo m a s → (regAt a).2 = some i → i.shadow = true → i.rl = 0 → mayConfigure m a = true →
      ∃ t, exec (.shadowWrite m a v) s = .next t ∧
        t.dev.shadow.get none a = some ((v &&& i.rw) ||| ((s.dev.shadow.get none a).getD (reg s.dev a) &&& ~~~i.rw)) ∧
        (∀ b, b ≠ a → t.dev.shadow.get none b = s.dev.shadow.get none b) ∧ t.dev = { s.dev with shadow := t.dev.shadow } ∧
        sameOutside s t) ∧
    (∀ (i : Instr) (pick : Nat → Bool), busGo m rCfgCommit s →
      ((i = .cfgCommitAll m ∧ pick = fun _ => true) ∨ ∃ g : Fin 16, i = .cfgCommitGroup m g ∧ pick = inGroup s.dev g.val) →
      let caps := pendingOf s.dev pick
      ((caps.all fun c => memberOk s.dev caps c) = false →
        ∃ t, exec i s = .next t ∧ regBit t.dev rCfgStatus 63 = true ∧ t.dev.shadow = (s.dev.shadow.filter fun e => !pick e.1) ∧
          onlyRegs [rCfgStatus] s t ∧ t.dev.core = { s.dev.core with shadow := t.dev.shadow } ∧ sameOutside s t) ∧
      ((caps.all fun c => memberOk s.dev caps c) = true → (caps.all fun c => decide (0x400000 ≤ c.1) && decide (c.1 < 0x4C0000)) = true →
        (caps.map fun c => c.1).Nodup →
        ∃ t, exec i s = .next t ∧ (∀ c ∈ caps, reg t.dev c.1 = c.2) ∧
          (∀ a, a ∉ caps.map (fun c => c.1) → reg t.dev a = reg s.dev a) ∧
          t.dev = { s.dev with shadow := s.dev.shadow.filter fun e => !pick e.1, regs := t.dev.regs } ∧ sameOutside s t)) ∧
    (let sp := regFld s.dev rIndAddr 63 56
     let u := regFld s.dev rIndAddr 55 48
     let w := regFld s.dev rIndAddr 23 0
     (alive s.dev = true → barGranted s.dev m rIndData false = true →
       (indOk sp u w = true →
         ∃ t, exec (.indDataRead m) s = .next t ∧ t.dev.out = s.dev.out ++ [.read m (indWord s sp u w)] ∧
           (∀ a, a ≠ rIndAddr → reg t.dev a = reg s.dev a) ∧ t.dev.core = s.dev.core ∧ sameOutside s t) ∧
       (indOk sp u w = false →
         ∃ t, exec (.indDataRead m) s = .next t ∧ t.dev.out = s.dev.out ++ [.read m 0] ∧ regBit t.dev rIndStatus 62 = true ∧
           (∀ a, a ≠ rIndAddr → a ≠ rIndStatus → reg t.dev a = reg s.dev a) ∧ t.dev.core = s.dev.core ∧ sameOutside s t)) ∧
     (∀ v : Word, busGo m rIndData s →
       (indOk sp u w = true → 2 ≤ sp → (isGuide m = true ∨ m = 0xFF) →
         ∃ t, exec (.indDataWrite m v) s = .next t ∧ t.dev.ind.get none (indKey sp u w) = some v ∧
           (∀ k, k ≠ indKey sp u w → t.dev.ind.get none k = s.dev.ind.get none k) ∧
           (∀ a, a ≠ rIndAddr → reg t.dev a = reg s.dev a) ∧ t.dev.core = { s.dev.core with ind := t.dev.ind } ∧ sameOutside s t) ∧
       ((indOk sp u w = false ∨ sp < 2 ∨ (isGuide m = false ∧ m ≠ 0xFF)) →
         ∃ t, exec (.indDataWrite m v) s = .next t ∧ regBit t.dev rIndStatus 62 = true ∧
           (∀ a, a ≠ rIndAddr → a ≠ rIndStatus → reg t.dev a = reg s.dev a) ∧ t.dev.core = s.dev.core ∧ sameOutside s t)))

/-! ### JTAG -/

/-- TAP_RESET and the fifth rising edge of TCK in a row with TMS high reset the TAP; any other edge moves its state machine, in which five
edges with TMS high lead from every state to Test-Logic-Reset; without V3P3_SB nothing moves (R564).
Where the rules leave a reading or a value open, this is the model's choice: notes/assumptions, entry 64. -/
def Obligations.TapFollowsTck : Prop :=
  ∀ (s : State),
    (s.dev.roost.up = true →
      (∃ t, exec .tapReset s = .next t ∧ t.dev.tap = ({} : Tap) ∧ t.dev = { s.dev with tap := t.dev.tap } ∧ sameOutside s t) ∧
      (∀ tms tdi : Bool,
        ∃ t, exec (.tckRisingEdge tms tdi) s = .next t ∧ t.dev = { s.dev with tap := t.dev.tap } ∧ sameOutside s t ∧
          t.dev.tap.run = (if tms then s.dev.tap.run + 1 else 0) ∧
          (tms = true → 4 ≤ s.dev.tap.run → t.dev.tap.st = .testLogicReset ∧ t.dev.tap.extest = false) ∧
          ((tms = false ∨ s.dev.tap.run < 4) →
            t.dev.tap.st = s.dev.tap.st.next tms ∧
            (s.dev.tap.st.next tms = .updateIr → t.dev.tap.extest = (alive s.dev && Config.isExtest t.dev.tap.shift)) ∧
            (s.dev.tap.st.next tms = .updateDr → t.dev.tap.data = t.dev.tap.shift) ∧
            (s.dev.tap.st = .shiftDr → tms = false → t.dev.tap.shift = tdi :: s.dev.tap.shift)))) ∧
    (s.dev.roost.up = false →
      exec .tapReset s = .next s ∧ ∀ tms tdi : Bool, exec (.tckRisingEdge tms tdi) s = .next s) ∧
    (∀ st : TapState, ((((st.next true).next true).next true).next true).next true = .testLogicReset)

/-! ### The machine -/

/-- A step takes the command at the front of the queue and is that command's effect on the state with the rest of the queue; on an empty
queue the block idles for 1 ns, the model's choice (notes/assumptions/10.md). -/
def Obligations.StepRunsTheFrontCommand : Prop :=
  (∀ (c : Instr) (rest : List Instr) (s : State), step { s with pending := c :: rest } = exec c { s with pending := rest }) ∧
  (∀ s : State, s.pending = [] →
    ∃ t, step s = .next t ∧ t.dev = { s.dev with now := s.dev.now + 1, upTime := s.dev.upTime + 1 } ∧ sameOutside s t)

/-- After reset, and after every reset of the main die, stream n is owned by VF n + 1, and every decode context by the PF (R18). -/
def Obligations.OwnershipAfterReset : Prop :=
  ∀ d : Dev, (d = State.reset.dev ∨ ∃ s kind die, d = (enterReset s kind die).dev) →
    (∀ n < 192, d.streamOwner n = n + 1) ∧ (∀ c < 96, d.ctxOwner c = 0)

/-- The queue is empty and device memory is canonical after reset, and every BAR0 register holds its reset value.
Where the rules leave a reading or a value open, this is the model's choice: notes/assumptions, entries 5 and 6. -/
def Obligations.ResetIsCanonical : Prop :=
  State.reset.memOk ∧ State.reset.pending = [] ∧ (∀ a, reg State.reset.dev a = regReset a) ∧ alive State.reset.dev = false

/-- Every step keeps device memory canonical: addresses strictly rising and backed, no byte listed that equals what an unlisted address
reads as (R441). -/
def Obligations.StepKeepsMemoryCanonical : Prop :=
  ∀ s t : State, s.memOk → step s = .next t → t.memOk
end

