-- ==== Sys2Proof/Laws/State.lean ====
section
/-! SUPPORT. What each named update of the state leaves as it was: one lemma per field. -/

namespace Sys2Proof.Machine

/-! ### `setReg` -/

@[simp] theorem setReg_now (d : Dev) (a : Nat) (v : Word) : (setReg d a v).now = d.now := rfl
@[simp] theorem setReg_tick (d : Dev) (a : Nat) (v : Word) : (setReg d a v).tick = d.tick := rfl
@[simp] theorem setReg_pcie (d : Dev) (a : Nat) (v : Word) : (setReg d a v).pcie = d.pcie := rfl
@[simp] theorem setReg_upTime (d : Dev) (a : Nat) (v : Word) : (setReg d a v).upTime = d.upTime := rfl
@[simp] theorem setReg_freeCtr (d : Dev) (a : Nat) (v : Word) : (setReg d a v).freeCtr = d.freeCtr := rfl
@[simp] theorem setReg_acc (d : Dev) (a : Nat) (v : Word) : (setReg d a v).acc = d.acc := rfl
@[simp] theorem setReg_accStd (d : Dev) (a : Nat) (v : Word) : (setReg d a v).accStd = d.accStd := rfl
@[simp] theorem setReg_shadow (d : Dev) (a : Nat) (v : Word) : (setReg d a v).shadow = d.shadow := rfl
@[simp] theorem setReg_captured (d : Dev) (a : Nat) (v : Word) : (setReg d a v).captured = d.captured := rfl
@[simp] theorem setReg_snaps (d : Dev) (a : Nat) (v : Word) : (setReg d a v).snaps = d.snaps := rfl
@[simp] theorem setReg_out (d : Dev) (a : Nat) (v : Word) : (setReg d a v).out = d.out := rfl
@[simp] theorem setReg_streams (d : Dev) (a : Nat) (v : Word) : (setReg d a v).streams = d.streams := rfl
@[simp] theorem setReg_sOwner (d : Dev) (a : Nat) (v : Word) : (setReg d a v).sOwner = d.sOwner := rfl
@[simp] theorem setReg_ctxs (d : Dev) (a : Nat) (v : Word) : (setReg d a v).ctxs = d.ctxs := rfl
@[simp] theorem setReg_cOwner (d : Dev) (a : Nat) (v : Word) : (setReg d a v).cOwner = d.cOwner := rfl
@[simp] theorem setReg_gals (d : Dev) (a : Nat) (v : Word) : (setReg d a v).gals = d.gals := rfl
@[simp] theorem setReg_chans (d : Dev) (a : Nat) (v : Word) : (setReg d a v).chans = d.chans := rfl
@[simp] theorem setReg_recips (d : Dev) (a : Nat) (v : Word) : (setReg d a v).recips = d.recips := rfl
@[simp] theorem setReg_keys (d : Dev) (a : Nat) (v : Word) : (setReg d a v).keys = d.keys := rfl
@[simp] theorem setReg_keks (d : Dev) (a : Nat) (v : Word) : (setReg d a v).keks = d.keks := rfl
@[simp] theorem setReg_mouth (d : Dev) (a : Nat) (v : Word) : (setReg d a v).mouth = d.mouth := rfl
@[simp] theorem setReg_rings (d : Dev) (a : Nat) (v : Word) : (setReg d a v).rings = d.rings := rfl
@[simp] theorem setReg_submitted (d : Dev) (a : Nat) (v : Word) : (setReg d a v).submitted = d.submitted := rfl
@[simp] theorem setReg_srcs (d : Dev) (a : Nat) (v : Word) : (setReg d a v).srcs = d.srcs := rfl
@[simp] theorem setReg_turn (d : Dev) (a : Nat) (v : Word) : (setReg d a v).turn = d.turn := rfl
@[simp] theorem setReg_fastMet (d : Dev) (a : Nat) (v : Word) : (setReg d a v).fastMet = d.fastMet := rfl
@[simp] theorem setReg_ingestPeriods (d : Dev) (a : Nat) (v : Word) : (setReg d a v).ingestPeriods = d.ingestPeriods := rfl
@[simp] theorem setReg_ingestTurn (d : Dev) (a : Nat) (v : Word) : (setReg d a v).ingestTurn = d.ingestTurn := rfl
@[simp] theorem setReg_activeFn (d : Dev) (a : Nat) (v : Word) : (setReg d a v).activeFn = d.activeFn := rfl
@[simp] theorem setReg_eqs (d : Dev) (a : Nat) (v : Word) : (setReg d a v).eqs = d.eqs := rfl
@[simp] theorem setReg_lastRaised (d : Dev) (a : Nat) (v : Word) : (setReg d a v).lastRaised = d.lastRaised := rfl
@[simp] theorem setReg_flt (d : Dev) (a : Nat) (v : Word) : (setReg d a v).flt = d.flt := rfl
@[simp] theorem setReg_roost (d : Dev) (a : Nat) (v : Word) : (setReg d a v).roost = d.roost := rfl
@[simp] theorem setReg_pwr (d : Dev) (a : Nat) (v : Word) : (setReg d a v).pwr = d.pwr := rfl
@[simp] theorem setReg_cal (d : Dev) (a : Nat) (v : Word) : (setReg d a v).cal = d.cal := rfl
@[simp] theorem setReg_boot (d : Dev) (a : Nat) (v : Word) : (setReg d a v).boot = d.boot := rfl
@[simp] theorem setReg_guide (d : Dev) (a : Nat) (v : Word) : (setReg d a v).guide = d.guide := rfl
@[simp] theorem setReg_fleet (d : Dev) (a : Nat) (v : Word) : (setReg d a v).fleet = d.fleet := rfl
@[simp] theorem setReg_ptp (d : Dev) (a : Nat) (v : Word) : (setReg d a v).ptp = d.ptp := rfl
@[simp] theorem setReg_memc (d : Dev) (a : Nat) (v : Word) : (setReg d a v).memc = d.memc := rfl
@[simp] theorem setReg_ind (d : Dev) (a : Nat) (v : Word) : (setReg d a v).ind = d.ind := rfl
@[simp] theorem setReg_indGen (d : Dev) (a : Nat) (v : Word) : (setReg d a v).indGen = d.indGen := rfl
@[simp] theorem setReg_tap (d : Dev) (a : Nat) (v : Word) : (setReg d a v).tap = d.tap := rfl
@[simp] theorem setReg_allocs (d : Dev) (a : Nat) (v : Word) : (setReg d a v).allocs = d.allocs := rfl
@[simp] theorem setReg_syncAt (d : Dev) (a : Nat) (v : Word) : (setReg d a v).syncAt = d.syncAt := rfl

/-! ### `emit` -/

@[simp] theorem emit_now (d : Dev) (o : Out) : (emit d o).now = d.now := rfl
@[simp] theorem emit_tick (d : Dev) (o : Out) : (emit d o).tick = d.tick := rfl
@[simp] theorem emit_pcie (d : Dev) (o : Out) : (emit d o).pcie = d.pcie := rfl
@[simp] theorem emit_upTime (d : Dev) (o : Out) : (emit d o).upTime = d.upTime := rfl
@[simp] theorem emit_freeCtr (d : Dev) (o : Out) : (emit d o).freeCtr = d.freeCtr := rfl
@[simp] theorem emit_regs (d : Dev) (o : Out) : (emit d o).regs = d.regs := rfl
@[simp] theorem emit_acc (d : Dev) (o : Out) : (emit d o).acc = d.acc := rfl
@[simp] theorem emit_accStd (d : Dev) (o : Out) : (emit d o).accStd = d.accStd := rfl
@[simp] theorem emit_shadow (d : Dev) (o : Out) : (emit d o).shadow = d.shadow := rfl
@[simp] theorem emit_captured (d : Dev) (o : Out) : (emit d o).captured = d.captured := rfl
@[simp] theorem emit_snaps (d : Dev) (o : Out) : (emit d o).snaps = d.snaps := rfl
@[simp] theorem emit_streams (d : Dev) (o : Out) : (emit d o).streams = d.streams := rfl
@[simp] theorem emit_sOwner (d : Dev) (o : Out) : (emit d o).sOwner = d.sOwner := rfl
@[simp] theorem emit_ctxs (d : Dev) (o : Out) : (emit d o).ctxs = d.ctxs := rfl
@[simp] theorem emit_cOwner (d : Dev) (o : Out) : (emit d o).cOwner = d.cOwner := rfl
@[simp] theorem emit_gals (d : Dev) (o : Out) : (emit d o).gals = d.gals := rfl
@[simp] theorem emit_chans (d : Dev) (o : Out) : (emit d o).chans = d.chans := rfl
@[simp] theorem emit_recips (d : Dev) (o : Out) : (emit d o).recips = d.recips := rfl
@[simp] theorem emit_keys (d : Dev) (o : Out) : (emit d o).keys = d.keys := rfl
@[simp] theorem emit_keks (d : Dev) (o : Out) : (emit d o).keks = d.keks := rfl
@[simp] theorem emit_mouth (d : Dev) (o : Out) : (emit d o).mouth = d.mouth := rfl
@[simp] theorem emit_rings (d : Dev) (o : Out) : (emit d o).rings = d.rings := rfl
@[simp] theorem emit_submitted (d : Dev) (o : Out) : (emit d o).submitted = d.submitted := rfl
@[simp] theorem emit_srcs (d : Dev) (o : Out) : (emit d o).srcs = d.srcs := rfl
@[simp] theorem emit_turn (d : Dev) (o : Out) : (emit d o).turn = d.turn := rfl
@[simp] theorem emit_fastMet (d : Dev) (o : Out) : (emit d o).fastMet = d.fastMet := rfl
@[simp] theorem emit_ingestPeriods (d : Dev) (o : Out) : (emit d o).ingestPeriods = d.ingestPeriods := rfl
@[simp] theorem emit_ingestTurn (d : Dev) (o : Out) : (emit d o).ingestTurn = d.ingestTurn := rfl
@[simp] theorem emit_activeFn (d : Dev) (o : Out) : (emit d o).activeFn = d.activeFn := rfl
@[simp] theorem emit_eqs (d : Dev) (o : Out) : (emit d o).eqs = d.eqs := rfl
@[simp] theorem emit_lastRaised (d : Dev) (o : Out) : (emit d o).lastRaised = d.lastRaised := rfl
@[simp] theorem emit_flt (d : Dev) (o : Out) : (emit d o).flt = d.flt := rfl
@[simp] theorem emit_roost (d : Dev) (o : Out) : (emit d o).roost = d.roost := rfl
@[simp] theorem emit_pwr (d : Dev) (o : Out) : (emit d o).pwr = d.pwr := rfl
@[simp] theorem emit_cal (d : Dev) (o : Out) : (emit d o).cal = d.cal := rfl
@[simp] theorem emit_boot (d : Dev) (o : Out) : (emit d o).boot = d.boot := rfl
@[simp] theorem emit_guide (d : Dev) (o : Out) : (emit d o).guide = d.guide := rfl
@[simp] theorem emit_fleet (d : Dev) (o : Out) : (emit d o).fleet = d.fleet := rfl
@[simp] theorem emit_ptp (d : Dev) (o : Out) : (emit d o).ptp = d.ptp := rfl
@[simp] theorem emit_memc (d : Dev) (o : Out) : (emit d o).memc = d.memc := rfl
@[simp] theorem emit_ind (d : Dev) (o : Out) : (emit d o).ind = d.ind := rfl
@[simp] theorem emit_indGen (d : Dev) (o : Out) : (emit d o).indGen = d.indGen := rfl
@[simp] theorem emit_tap (d : Dev) (o : Out) : (emit d o).tap = d.tap := rfl
@[simp] theorem emit_allocs (d : Dev) (o : Out) : (emit d o).allocs = d.allocs := rfl
@[simp] theorem emit_syncAt (d : Dev) (o : Out) : (emit d o).syncAt = d.syncAt := rfl

/-! ### `Dev.setStream` -/

@[simp] theorem Dev.setStream_now (d : Dev) (n : Nat) (x : Stream) : (Dev.setStream d n x).now = d.now := rfl
@[simp] theorem Dev.setStream_tick (d : Dev) (n : Nat) (x : Stream) : (Dev.setStream d n x).tick = d.tick := rfl
@[simp] theorem Dev.setStream_pcie (d : Dev) (n : Nat) (x : Stream) : (Dev.setStream d n x).pcie = d.pcie := rfl
@[simp] theorem Dev.setStream_upTime (d : Dev) (n : Nat) (x : Stream) : (Dev.setStream d n x).upTime = d.upTime := rfl
@[simp] theorem Dev.setStream_freeCtr (d : Dev) (n : Nat) (x : Stream) : (Dev.setStream d n x).freeCtr = d.freeCtr := rfl
@[simp] theorem Dev.setStream_regs (d : Dev) (n : Nat) (x : Stream) : (Dev.setStream d n x).regs = d.regs := rfl
@[simp] theorem Dev.setStream_acc (d : Dev) (n : Nat) (x : Stream) : (Dev.setStream d n x).acc = d.acc := rfl
@[simp] theorem Dev.setStream_accStd (d : Dev) (n : Nat) (x : Stream) : (Dev.setStream d n x).accStd = d.accStd := rfl
@[simp] theorem Dev.setStream_shadow (d : Dev) (n : Nat) (x : Stream) : (Dev.setStream d n x).shadow = d.shadow := rfl
@[simp] theorem Dev.setStream_captured (d : Dev) (n : Nat) (x : Stream) : (Dev.setStream d n x).captured = d.captured := rfl
@[simp] theorem Dev.setStream_snaps (d : Dev) (n : Nat) (x : Stream) : (Dev.setStream d n x).snaps = d.snaps := rfl
@[simp] theorem Dev.setStream_out (d : Dev) (n : Nat) (x : Stream) : (Dev.setStream d n x).out = d.out := rfl
@[simp] theorem Dev.setStream_sOwner (d : Dev) (n : Nat) (x : Stream) : (Dev.setStream d n x).sOwner = d.sOwner := rfl
@[simp] theorem Dev.setStream_ctxs (d : Dev) (n : Nat) (x : Stream) : (Dev.setStream d n x).ctxs = d.ctxs := rfl
@[simp] theorem Dev.setStream_cOwner (d : Dev) (n : Nat) (x : Stream) : (Dev.setStream d n x).cOwner = d.cOwner := rfl
@[simp] theorem Dev.setStream_gals (d : Dev) (n : Nat) (x : Stream) : (Dev.setStream d n x).gals = d.gals := rfl
@[simp] theorem Dev.setStream_chans (d : Dev) (n : Nat) (x : Stream) : (Dev.setStream d n x).chans = d.chans := rfl
@[simp] theorem Dev.setStream_recips (d : Dev) (n : Nat) (x : Stream) : (Dev.setStream d n x).recips = d.recips := rfl
@[simp] theorem Dev.setStream_keys (d : Dev) (n : Nat) (x : Stream) : (Dev.setStream d n x).keys = d.keys := rfl
@[simp] theorem Dev.setStream_keks (d : Dev) (n : Nat) (x : Stream) : (Dev.setStream d n x).keks = d.keks := rfl
@[simp] theorem Dev.setStream_mouth (d : Dev) (n : Nat) (x : Stream) : (Dev.setStream d n x).mouth = d.mouth := rfl
@[simp] theorem Dev.setStream_rings (d : Dev) (n : Nat) (x : Stream) : (Dev.setStream d n x).rings = d.rings := rfl
@[simp] theorem Dev.setStream_submitted (d : Dev) (n : Nat) (x : Stream) : (Dev.setStream d n x).submitted = d.submitted := rfl
@[simp] theorem Dev.setStream_srcs (d : Dev) (n : Nat) (x : Stream) : (Dev.setStream d n x).srcs = d.srcs := rfl
@[simp] theorem Dev.setStream_turn (d : Dev) (n : Nat) (x : Stream) : (Dev.setStream d n x).turn = d.turn := rfl
@[simp] theorem Dev.setStream_fastMet (d : Dev) (n : Nat) (x : Stream) : (Dev.setStream d n x).fastMet = d.fastMet := rfl
@[simp] theorem Dev.setStream_ingestPeriods (d : Dev) (n : Nat) (x : Stream) : (Dev.setStream d n x).ingestPeriods = d.ingestPeriods := rfl
@[simp] theorem Dev.setStream_ingestTurn (d : Dev) (n : Nat) (x : Stream) : (Dev.setStream d n x).ingestTurn = d.ingestTurn := rfl
@[simp] theorem Dev.setStream_activeFn (d : Dev) (n : Nat) (x : Stream) : (Dev.setStream d n x).activeFn = d.activeFn := rfl
@[simp] theorem Dev.setStream_eqs (d : Dev) (n : Nat) (x : Stream) : (Dev.setStream d n x).eqs = d.eqs := rfl
@[simp] theorem Dev.setStream_lastRaised (d : Dev) (n : Nat) (x : Stream) : (Dev.setStream d n x).lastRaised = d.lastRaised := rfl
@[simp] theorem Dev.setStream_flt (d : Dev) (n : Nat) (x : Stream) : (Dev.setStream d n x).flt = d.flt := rfl
@[simp] theorem Dev.setStream_roost (d : Dev) (n : Nat) (x : Stream) : (Dev.setStream d n x).roost = d.roost := rfl
@[simp] theorem Dev.setStream_pwr (d : Dev) (n : Nat) (x : Stream) : (Dev.setStream d n x).pwr = d.pwr := rfl
@[simp] theorem Dev.setStream_cal (d : Dev) (n : Nat) (x : Stream) : (Dev.setStream d n x).cal = d.cal := rfl
@[simp] theorem Dev.setStream_boot (d : Dev) (n : Nat) (x : Stream) : (Dev.setStream d n x).boot = d.boot := rfl
@[simp] theorem Dev.setStream_guide (d : Dev) (n : Nat) (x : Stream) : (Dev.setStream d n x).guide = d.guide := rfl
@[simp] theorem Dev.setStream_fleet (d : Dev) (n : Nat) (x : Stream) : (Dev.setStream d n x).fleet = d.fleet := rfl
@[simp] theorem Dev.setStream_ptp (d : Dev) (n : Nat) (x : Stream) : (Dev.setStream d n x).ptp = d.ptp := rfl
@[simp] theorem Dev.setStream_memc (d : Dev) (n : Nat) (x : Stream) : (Dev.setStream d n x).memc = d.memc := rfl
@[simp] theorem Dev.setStream_ind (d : Dev) (n : Nat) (x : Stream) : (Dev.setStream d n x).ind = d.ind := rfl
@[simp] theorem Dev.setStream_indGen (d : Dev) (n : Nat) (x : Stream) : (Dev.setStream d n x).indGen = d.indGen := rfl
@[simp] theorem Dev.setStream_tap (d : Dev) (n : Nat) (x : Stream) : (Dev.setStream d n x).tap = d.tap := rfl
@[simp] theorem Dev.setStream_allocs (d : Dev) (n : Nat) (x : Stream) : (Dev.setStream d n x).allocs = d.allocs := rfl
@[simp] theorem Dev.setStream_syncAt (d : Dev) (n : Nat) (x : Stream) : (Dev.setStream d n x).syncAt = d.syncAt := rfl

/-! ### `Dev.setCtx` -/

@[simp] theorem Dev.setCtx_now (d : Dev) (c : Nat) (x : Ctx) : (Dev.setCtx d c x).now = d.now := rfl
@[simp] theorem Dev.setCtx_tick (d : Dev) (c : Nat) (x : Ctx) : (Dev.setCtx d c x).tick = d.tick := rfl
@[simp] theorem Dev.setCtx_pcie (d : Dev) (c : Nat) (x : Ctx) : (Dev.setCtx d c x).pcie = d.pcie := rfl
@[simp] theorem Dev.setCtx_upTime (d : Dev) (c : Nat) (x : Ctx) : (Dev.setCtx d c x).upTime = d.upTime := rfl
@[simp] theorem Dev.setCtx_freeCtr (d : Dev) (c : Nat) (x : Ctx) : (Dev.setCtx d c x).freeCtr = d.freeCtr := rfl
@[simp] theorem Dev.setCtx_regs (d : Dev) (c : Nat) (x : Ctx) : (Dev.setCtx d c x).regs = d.regs := rfl
@[simp] theorem Dev.setCtx_acc (d : Dev) (c : Nat) (x : Ctx) : (Dev.setCtx d c x).acc = d.acc := rfl
@[simp] theorem Dev.setCtx_accStd (d : Dev) (c : Nat) (x : Ctx) : (Dev.setCtx d c x).accStd = d.accStd := rfl
@[simp] theorem Dev.setCtx_shadow (d : Dev) (c : Nat) (x : Ctx) : (Dev.setCtx d c x).shadow = d.shadow := rfl
@[simp] theorem Dev.setCtx_captured (d : Dev) (c : Nat) (x : Ctx) : (Dev.setCtx d c x).captured = d.captured := rfl
@[simp] theorem Dev.setCtx_snaps (d : Dev) (c : Nat) (x : Ctx) : (Dev.setCtx d c x).snaps = d.snaps := rfl
@[simp] theorem Dev.setCtx_out (d : Dev) (c : Nat) (x : Ctx) : (Dev.setCtx d c x).out = d.out := rfl
@[simp] theorem Dev.setCtx_streams (d : Dev) (c : Nat) (x : Ctx) : (Dev.setCtx d c x).streams = d.streams := rfl
@[simp] theorem Dev.setCtx_sOwner (d : Dev) (c : Nat) (x : Ctx) : (Dev.setCtx d c x).sOwner = d.sOwner := rfl
@[simp] theorem Dev.setCtx_cOwner (d : Dev) (c : Nat) (x : Ctx) : (Dev.setCtx d c x).cOwner = d.cOwner := rfl
@[simp] theorem Dev.setCtx_gals (d : Dev) (c : Nat) (x : Ctx) : (Dev.setCtx d c x).gals = d.gals := rfl
@[simp] theorem Dev.setCtx_chans (d : Dev) (c : Nat) (x : Ctx) : (Dev.setCtx d c x).chans = d.chans := rfl
@[simp] theorem Dev.setCtx_recips (d : Dev) (c : Nat) (x : Ctx) : (Dev.setCtx d c x).recips = d.recips := rfl
@[simp] theorem Dev.setCtx_keys (d : Dev) (c : Nat) (x : Ctx) : (Dev.setCtx d c x).keys = d.keys := rfl
@[simp] theorem Dev.setCtx_keks (d : Dev) (c : Nat) (x : Ctx) : (Dev.setCtx d c x).keks = d.keks := rfl
@[simp] theorem Dev.setCtx_mouth (d : Dev) (c : Nat) (x : Ctx) : (Dev.setCtx d c x).mouth = d.mouth := rfl
@[simp] theorem Dev.setCtx_rings (d : Dev) (c : Nat) (x : Ctx) : (Dev.setCtx d c x).rings = d.rings := rfl
@[simp] theorem Dev.setCtx_submitted (d : Dev) (c : Nat) (x : Ctx) : (Dev.setCtx d c x).submitted = d.submitted := rfl
@[simp] theorem Dev.setCtx_srcs (d : Dev) (c : Nat) (x : Ctx) : (Dev.setCtx d c x).srcs = d.srcs := rfl
@[simp] theorem Dev.setCtx_turn (d : Dev) (c : Nat) (x : Ctx) : (Dev.setCtx d c x).turn = d.turn := rfl
@[simp] theorem Dev.setCtx_fastMet (d : Dev) (c : Nat) (x : Ctx) : (Dev.setCtx d c x).fastMet = d.fastMet := rfl
@[simp] theorem Dev.setCtx_ingestPeriods (d : Dev) (c : Nat) (x : Ctx) : (Dev.setCtx d c x).ingestPeriods = d.ingestPeriods := rfl
@[simp] theorem Dev.setCtx_ingestTurn (d : Dev) (c : Nat) (x : Ctx) : (Dev.setCtx d c x).ingestTurn = d.ingestTurn := rfl
@[simp] theorem Dev.setCtx_activeFn (d : Dev) (c : Nat) (x : Ctx) : (Dev.setCtx d c x).activeFn = d.activeFn := rfl
@[simp] theorem Dev.setCtx_eqs (d : Dev) (c : Nat) (x : Ctx) : (Dev.setCtx d c x).eqs = d.eqs := rfl
@[simp] theorem Dev.setCtx_lastRaised (d : Dev) (c : Nat) (x : Ctx) : (Dev.setCtx d c x).lastRaised = d.lastRaised := rfl
@[simp] theorem Dev.setCtx_flt (d : Dev) (c : Nat) (x : Ctx) : (Dev.setCtx d c x).flt = d.flt := rfl
@[simp] theorem Dev.setCtx_roost (d : Dev) (c : Nat) (x : Ctx) : (Dev.setCtx d c x).roost = d.roost := rfl
@[simp] theorem Dev.setCtx_pwr (d : Dev) (c : Nat) (x : Ctx) : (Dev.setCtx d c x).pwr = d.pwr := rfl
@[simp] theorem Dev.setCtx_cal (d : Dev) (c : Nat) (x : Ctx) : (Dev.setCtx d c x).cal = d.cal := rfl
@[simp] theorem Dev.setCtx_boot (d : Dev) (c : Nat) (x : Ctx) : (Dev.setCtx d c x).boot = d.boot := rfl
@[simp] theorem Dev.setCtx_guide (d : Dev) (c : Nat) (x : Ctx) : (Dev.setCtx d c x).guide = d.guide := rfl
@[simp] theorem Dev.setCtx_fleet (d : Dev) (c : Nat) (x : Ctx) : (Dev.setCtx d c x).fleet = d.fleet := rfl
@[simp] theorem Dev.setCtx_ptp (d : Dev) (c : Nat) (x : Ctx) : (Dev.setCtx d c x).ptp = d.ptp := rfl
@[simp] theorem Dev.setCtx_memc (d : Dev) (c : Nat) (x : Ctx) : (Dev.setCtx d c x).memc = d.memc := rfl
@[simp] theorem Dev.setCtx_ind (d : Dev) (c : Nat) (x : Ctx) : (Dev.setCtx d c x).ind = d.ind := rfl
@[simp] theorem Dev.setCtx_indGen (d : Dev) (c : Nat) (x : Ctx) : (Dev.setCtx d c x).indGen = d.indGen := rfl
@[simp] theorem Dev.setCtx_tap (d : Dev) (c : Nat) (x : Ctx) : (Dev.setCtx d c x).tap = d.tap := rfl
@[simp] theorem Dev.setCtx_allocs (d : Dev) (c : Nat) (x : Ctx) : (Dev.setCtx d c x).allocs = d.allocs := rfl
@[simp] theorem Dev.setCtx_syncAt (d : Dev) (c : Nat) (x : Ctx) : (Dev.setCtx d c x).syncAt = d.syncAt := rfl

/-! ### `Dev.setGal` -/

@[simp] theorem Dev.setGal_now (d : Dev) (g : Nat) (x : Gal) : (Dev.setGal d g x).now = d.now := rfl
@[simp] theorem Dev.setGal_tick (d : Dev) (g : Nat) (x : Gal) : (Dev.setGal d g x).tick = d.tick := rfl
@[simp] theorem Dev.setGal_pcie (d : Dev) (g : Nat) (x : Gal) : (Dev.setGal d g x).pcie = d.pcie := rfl
@[simp] theorem Dev.setGal_upTime (d : Dev) (g : Nat) (x : Gal) : (Dev.setGal d g x).upTime = d.upTime := rfl
@[simp] theorem Dev.setGal_freeCtr (d : Dev) (g : Nat) (x : Gal) : (Dev.setGal d g x).freeCtr = d.freeCtr := rfl
@[simp] theorem Dev.setGal_regs (d : Dev) (g : Nat) (x : Gal) : (Dev.setGal d g x).regs = d.regs := rfl
@[simp] theorem Dev.setGal_acc (d : Dev) (g : Nat) (x : Gal) : (Dev.setGal d g x).acc = d.acc := rfl
@[simp] theorem Dev.setGal_accStd (d : Dev) (g : Nat) (x : Gal) : (Dev.setGal d g x).accStd = d.accStd := rfl
@[simp] theorem Dev.setGal_shadow (d : Dev) (g : Nat) (x : Gal) : (Dev.setGal d g x).shadow = d.shadow := rfl
@[simp] theorem Dev.setGal_captured (d : Dev) (g : Nat) (x : Gal) : (Dev.setGal d g x).captured = d.captured := rfl
@[simp] theorem Dev.setGal_snaps (d : Dev) (g : Nat) (x : Gal) : (Dev.setGal d g x).snaps = d.snaps := rfl
@[simp] theorem Dev.setGal_out (d : Dev) (g : Nat) (x : Gal) : (Dev.setGal d g x).out = d.out := rfl
@[simp] theorem Dev.setGal_streams (d : Dev) (g : Nat) (x : Gal) : (Dev.setGal d g x).streams = d.streams := rfl
@[simp] theorem Dev.setGal_sOwner (d : Dev) (g : Nat) (x : Gal) : (Dev.setGal d g x).sOwner = d.sOwner := rfl
@[simp] theorem Dev.setGal_ctxs (d : Dev) (g : Nat) (x : Gal) : (Dev.setGal d g x).ctxs = d.ctxs := rfl
@[simp] theorem Dev.setGal_cOwner (d : Dev) (g : Nat) (x : Gal) : (Dev.setGal d g x).cOwner = d.cOwner := rfl
@[simp] theorem Dev.setGal_chans (d : Dev) (g : Nat) (x : Gal) : (Dev.setGal d g x).chans = d.chans := rfl
@[simp] theorem Dev.setGal_recips (d : Dev) (g : Nat) (x : Gal) : (Dev.setGal d g x).recips = d.recips := rfl
@[simp] theorem Dev.setGal_keys (d : Dev) (g : Nat) (x : Gal) : (Dev.setGal d g x).keys = d.keys := rfl
@[simp] theorem Dev.setGal_keks (d : Dev) (g : Nat) (x : Gal) : (Dev.setGal d g x).keks = d.keks := rfl
@[simp] theorem Dev.setGal_mouth (d : Dev) (g : Nat) (x : Gal) : (Dev.setGal d g x).mouth = d.mouth := rfl
@[simp] theorem Dev.setGal_rings (d : Dev) (g : Nat) (x : Gal) : (Dev.setGal d g x).rings = d.rings := rfl
@[simp] theorem Dev.setGal_submitted (d : Dev) (g : Nat) (x : Gal) : (Dev.setGal d g x).submitted = d.submitted := rfl
@[simp] theorem Dev.setGal_srcs (d : Dev) (g : Nat) (x : Gal) : (Dev.setGal d g x).srcs = d.srcs := rfl
@[simp] theorem Dev.setGal_turn (d : Dev) (g : Nat) (x : Gal) : (Dev.setGal d g x).turn = d.turn := rfl
@[simp] theorem Dev.setGal_fastMet (d : Dev) (g : Nat) (x : Gal) : (Dev.setGal d g x).fastMet = d.fastMet := rfl
@[simp] theorem Dev.setGal_ingestPeriods (d : Dev) (g : Nat) (x : Gal) : (Dev.setGal d g x).ingestPeriods = d.ingestPeriods := rfl
@[simp] theorem Dev.setGal_ingestTurn (d : Dev) (g : Nat) (x : Gal) : (Dev.setGal d g x).ingestTurn = d.ingestTurn := rfl
@[simp] theorem Dev.setGal_activeFn (d : Dev) (g : Nat) (x : Gal) : (Dev.setGal d g x).activeFn = d.activeFn := rfl
@[simp] theorem Dev.setGal_eqs (d : Dev) (g : Nat) (x : Gal) : (Dev.setGal d g x).eqs = d.eqs := rfl
@[simp] theorem Dev.setGal_lastRaised (d : Dev) (g : Nat) (x : Gal) : (Dev.setGal d g x).lastRaised = d.lastRaised := rfl
@[simp] theorem Dev.setGal_flt (d : Dev) (g : Nat) (x : Gal) : (Dev.setGal d g x).flt = d.flt := rfl
@[simp] theorem Dev.setGal_roost (d : Dev) (g : Nat) (x : Gal) : (Dev.setGal d g x).roost = d.roost := rfl
@[simp] theorem Dev.setGal_pwr (d : Dev) (g : Nat) (x : Gal) : (Dev.setGal d g x).pwr = d.pwr := rfl
@[simp] theorem Dev.setGal_cal (d : Dev) (g : Nat) (x : Gal) : (Dev.setGal d g x).cal = d.cal := rfl
@[simp] theorem Dev.setGal_boot (d : Dev) (g : Nat) (x : Gal) : (Dev.setGal d g x).boot = d.boot := rfl
@[simp] theorem Dev.setGal_guide (d : Dev) (g : Nat) (x : Gal) : (Dev.setGal d g x).guide = d.guide := rfl
@[simp] theorem Dev.setGal_fleet (d : Dev) (g : Nat) (x : Gal) : (Dev.setGal d g x).fleet = d.fleet := rfl
@[simp] theorem Dev.setGal_ptp (d : Dev) (g : Nat) (x : Gal) : (Dev.setGal d g x).ptp = d.ptp := rfl
@[simp] theorem Dev.setGal_memc (d : Dev) (g : Nat) (x : Gal) : (Dev.setGal d g x).memc = d.memc := rfl
@[simp] theorem Dev.setGal_ind (d : Dev) (g : Nat) (x : Gal) : (Dev.setGal d g x).ind = d.ind := rfl
@[simp] theorem Dev.setGal_indGen (d : Dev) (g : Nat) (x : Gal) : (Dev.setGal d g x).indGen = d.indGen := rfl
@[simp] theorem Dev.setGal_tap (d : Dev) (g : Nat) (x : Gal) : (Dev.setGal d g x).tap = d.tap := rfl
@[simp] theorem Dev.setGal_allocs (d : Dev) (g : Nat) (x : Gal) : (Dev.setGal d g x).allocs = d.allocs := rfl
@[simp] theorem Dev.setGal_syncAt (d : Dev) (g : Nat) (x : Gal) : (Dev.setGal d g x).syncAt = d.syncAt := rfl

/-! ### `Dev.setChan` -/

@[simp] theorem Dev.setChan_now (d : Dev) (c : Nat) (x : Chan) : (Dev.setChan d c x).now = d.now := rfl
@[simp] theorem Dev.setChan_tick (d : Dev) (c : Nat) (x : Chan) : (Dev.setChan d c x).tick = d.tick := rfl
@[simp] theorem Dev.setChan_pcie (d : Dev) (c : Nat) (x : Chan) : (Dev.setChan d c x).pcie = d.pcie := rfl
@[simp] theorem Dev.setChan_upTime (d : Dev) (c : Nat) (x : Chan) : (Dev.setChan d c x).upTime = d.upTime := rfl
@[simp] theorem Dev.setChan_freeCtr (d : Dev) (c : Nat) (x : Chan) : (Dev.setChan d c x).freeCtr = d.freeCtr := rfl
@[simp] theorem Dev.setChan_regs (d : Dev) (c : Nat) (x : Chan) : (Dev.setChan d c x).regs = d.regs := rfl
@[simp] theorem Dev.setChan_acc (d : Dev) (c : Nat) (x : Chan) : (Dev.setChan d c x).acc = d.acc := rfl
@[simp] theorem Dev.setChan_accStd (d : Dev) (c : Nat) (x : Chan) : (Dev.setChan d c x).accStd = d.accStd := rfl
@[simp] theorem Dev.setChan_shadow (d : Dev) (c : Nat) (x : Chan) : (Dev.setChan d c x).shadow = d.shadow := rfl
@[simp] theorem Dev.setChan_captured (d : Dev) (c : Nat) (x : Chan) : (Dev.setChan d c x).captured = d.captured := rfl
@[simp] theorem Dev.setChan_snaps (d : Dev) (c : Nat) (x : Chan) : (Dev.setChan d c x).snaps = d.snaps := rfl
@[simp] theorem Dev.setChan_out (d : Dev) (c : Nat) (x : Chan) : (Dev.setChan d c x).out = d.out := rfl
@[simp] theorem Dev.setChan_streams (d : Dev) (c : Nat) (x : Chan) : (Dev.setChan d c x).streams = d.streams := rfl
@[simp] theorem Dev.setChan_sOwner (d : Dev) (c : Nat) (x : Chan) : (Dev.setChan d c x).sOwner = d.sOwner := rfl
@[simp] theorem Dev.setChan_ctxs (d : Dev) (c : Nat) (x : Chan) : (Dev.setChan d c x).ctxs = d.ctxs := rfl
@[simp] theorem Dev.setChan_cOwner (d : Dev) (c : Nat) (x : Chan) : (Dev.setChan d c x).cOwner = d.cOwner := rfl
@[simp] theorem Dev.setChan_gals (d : Dev) (c : Nat) (x : Chan) : (Dev.setChan d c x).gals = d.gals := rfl
@[simp] theorem Dev.setChan_recips (d : Dev) (c : Nat) (x : Chan) : (Dev.setChan d c x).recips = d.recips := rfl
@[simp] theorem Dev.setChan_keys (d : Dev) (c : Nat) (x : Chan) : (Dev.setChan d c x).keys = d.keys := rfl
@[simp] theorem Dev.setChan_keks (d : Dev) (c : Nat) (x : Chan) : (Dev.setChan d c x).keks = d.keks := rfl
@[simp] theorem Dev.setChan_mouth (d : Dev) (c : Nat) (x : Chan) : (Dev.setChan d c x).mouth = d.mouth := rfl
@[simp] theorem Dev.setChan_rings (d : Dev) (c : Nat) (x : Chan) : (Dev.setChan d c x).rings = d.rings := rfl
@[simp] theorem Dev.setChan_submitted (d : Dev) (c : Nat) (x : Chan) : (Dev.setChan d c x).submitted = d.submitted := rfl
@[simp] theorem Dev.setChan_srcs (d : Dev) (c : Nat) (x : Chan) : (Dev.setChan d c x).srcs = d.srcs := rfl
@[simp] theorem Dev.setChan_turn (d : Dev) (c : Nat) (x : Chan) : (Dev.setChan d c x).turn = d.turn := rfl
@[simp] theorem Dev.setChan_fastMet (d : Dev) (c : Nat) (x : Chan) : (Dev.setChan d c x).fastMet = d.fastMet := rfl
@[simp] theorem Dev.setChan_ingestPeriods (d : Dev) (c : Nat) (x : Chan) : (Dev.setChan d c x).ingestPeriods = d.ingestPeriods := rfl
@[simp] theorem Dev.setChan_ingestTurn (d : Dev) (c : Nat) (x : Chan) : (Dev.setChan d c x).ingestTurn = d.ingestTurn := rfl
@[simp] theorem Dev.setChan_activeFn (d : Dev) (c : Nat) (x : Chan) : (Dev.setChan d c x).activeFn = d.activeFn := rfl
@[simp] theorem Dev.setChan_eqs (d : Dev) (c : Nat) (x : Chan) : (Dev.setChan d c x).eqs = d.eqs := rfl
@[simp] theorem Dev.setChan_lastRaised (d : Dev) (c : Nat) (x : Chan) : (Dev.setChan d c x).lastRaised = d.lastRaised := rfl
@[simp] theorem Dev.setChan_flt (d : Dev) (c : Nat) (x : Chan) : (Dev.setChan d c x).flt = d.flt := rfl
@[simp] theorem Dev.setChan_roost (d : Dev) (c : Nat) (x : Chan) : (Dev.setChan d c x).roost = d.roost := rfl
@[simp] theorem Dev.setChan_pwr (d : Dev) (c : Nat) (x : Chan) : (Dev.setChan d c x).pwr = d.pwr := rfl
@[simp] theorem Dev.setChan_cal (d : Dev) (c : Nat) (x : Chan) : (Dev.setChan d c x).cal = d.cal := rfl
@[simp] theorem Dev.setChan_boot (d : Dev) (c : Nat) (x : Chan) : (Dev.setChan d c x).boot = d.boot := rfl
@[simp] theorem Dev.setChan_guide (d : Dev) (c : Nat) (x : Chan) : (Dev.setChan d c x).guide = d.guide := rfl
@[simp] theorem Dev.setChan_fleet (d : Dev) (c : Nat) (x : Chan) : (Dev.setChan d c x).fleet = d.fleet := rfl
@[simp] theorem Dev.setChan_ptp (d : Dev) (c : Nat) (x : Chan) : (Dev.setChan d c x).ptp = d.ptp := rfl
@[simp] theorem Dev.setChan_memc (d : Dev) (c : Nat) (x : Chan) : (Dev.setChan d c x).memc = d.memc := rfl
@[simp] theorem Dev.setChan_ind (d : Dev) (c : Nat) (x : Chan) : (Dev.setChan d c x).ind = d.ind := rfl
@[simp] theorem Dev.setChan_indGen (d : Dev) (c : Nat) (x : Chan) : (Dev.setChan d c x).indGen = d.indGen := rfl
@[simp] theorem Dev.setChan_tap (d : Dev) (c : Nat) (x : Chan) : (Dev.setChan d c x).tap = d.tap := rfl
@[simp] theorem Dev.setChan_allocs (d : Dev) (c : Nat) (x : Chan) : (Dev.setChan d c x).allocs = d.allocs := rfl
@[simp] theorem Dev.setChan_syncAt (d : Dev) (c : Nat) (x : Chan) : (Dev.setChan d c x).syncAt = d.syncAt := rfl

/-! ### `Dev.setRecip` -/

@[simp] theorem Dev.setRecip_now (d : Dev) (r : Nat) (x : Recip) : (Dev.setRecip d r x).now = d.now := rfl
@[simp] theorem Dev.setRecip_tick (d : Dev) (r : Nat) (x : Recip) : (Dev.setRecip d r x).tick = d.tick := rfl
@[simp] theorem Dev.setRecip_pcie (d : Dev) (r : Nat) (x : Recip) : (Dev.setRecip d r x).pcie = d.pcie := rfl
@[simp] theorem Dev.setRecip_upTime (d : Dev) (r : Nat) (x : Recip) : (Dev.setRecip d r x).upTime = d.upTime := rfl
@[simp] theorem Dev.setRecip_freeCtr (d : Dev) (r : Nat) (x : Recip) : (Dev.setRecip d r x).freeCtr = d.freeCtr := rfl
@[simp] theorem Dev.setRecip_regs (d : Dev) (r : Nat) (x : Recip) : (Dev.setRecip d r x).regs = d.regs := rfl
@[simp] theorem Dev.setRecip_acc (d : Dev) (r : Nat) (x : Recip) : (Dev.setRecip d r x).acc = d.acc := rfl
@[simp] theorem Dev.setRecip_accStd (d : Dev) (r : Nat) (x : Recip) : (Dev.setRecip d r x).accStd = d.accStd := rfl
@[simp] theorem Dev.setRecip_shadow (d : Dev) (r : Nat) (x : Recip) : (Dev.setRecip d r x).shadow = d.shadow := rfl
@[simp] theorem Dev.setRecip_captured (d : Dev) (r : Nat) (x : Recip) : (Dev.setRecip d r x).captured = d.captured := rfl
@[simp] theorem Dev.setRecip_snaps (d : Dev) (r : Nat) (x : Recip) : (Dev.setRecip d r x).snaps = d.snaps := rfl
@[simp] theorem Dev.setRecip_out (d : Dev) (r : Nat) (x : Recip) : (Dev.setRecip d r x).out = d.out := rfl
@[simp] theorem Dev.setRecip_streams (d : Dev) (r : Nat) (x : Recip) : (Dev.setRecip d r x).streams = d.streams := rfl
@[simp] theorem Dev.setRecip_sOwner (d : Dev) (r : Nat) (x : Recip) : (Dev.setRecip d r x).sOwner = d.sOwner := rfl
@[simp] theorem Dev.setRecip_ctxs (d : Dev) (r : Nat) (x : Recip) : (Dev.setRecip d r x).ctxs = d.ctxs := rfl
@[simp] theorem Dev.setRecip_cOwner (d : Dev) (r : Nat) (x : Recip) : (Dev.setRecip d r x).cOwner = d.cOwner := rfl
@[simp] theorem Dev.setRecip_gals (d : Dev) (r : Nat) (x : Recip) : (Dev.setRecip d r x).gals = d.gals := rfl
@[simp] theorem Dev.setRecip_chans (d : Dev) (r : Nat) (x : Recip) : (Dev.setRecip d r x).chans = d.chans := rfl
@[simp] theorem Dev.setRecip_keys (d : Dev) (r : Nat) (x : Recip) : (Dev.setRecip d r x).keys = d.keys := rfl
@[simp] theorem Dev.setRecip_keks (d : Dev) (r : Nat) (x : Recip) : (Dev.setRecip d r x).keks = d.keks := rfl
@[simp] theorem Dev.setRecip_mouth (d : Dev) (r : Nat) (x : Recip) : (Dev.setRecip d r x).mouth = d.mouth := rfl
@[simp] theorem Dev.setRecip_rings (d : Dev) (r : Nat) (x : Recip) : (Dev.setRecip d r x).rings = d.rings := rfl
@[simp] theorem Dev.setRecip_submitted (d : Dev) (r : Nat) (x : Recip) : (Dev.setRecip d r x).submitted = d.submitted := rfl
@[simp] theorem Dev.setRecip_srcs (d : Dev) (r : Nat) (x : Recip) : (Dev.setRecip d r x).srcs = d.srcs := rfl
@[simp] theorem Dev.setRecip_turn (d : Dev) (r : Nat) (x : Recip) : (Dev.setRecip d r x).turn = d.turn := rfl
@[simp] theorem Dev.setRecip_fastMet (d : Dev) (r : Nat) (x : Recip) : (Dev.setRecip d r x).fastMet = d.fastMet := rfl
@[simp] theorem Dev.setRecip_ingestPeriods (d : Dev) (r : Nat) (x : Recip) : (Dev.setRecip d r x).ingestPeriods = d.ingestPeriods := rfl
@[simp] theorem Dev.setRecip_ingestTurn (d : Dev) (r : Nat) (x : Recip) : (Dev.setRecip d r x).ingestTurn = d.ingestTurn := rfl
@[simp] theorem Dev.setRecip_activeFn (d : Dev) (r : Nat) (x : Recip) : (Dev.setRecip d r x).activeFn = d.activeFn := rfl
@[simp] theorem Dev.setRecip_eqs (d : Dev) (r : Nat) (x : Recip) : (Dev.setRecip d r x).eqs = d.eqs := rfl
@[simp] theorem Dev.setRecip_lastRaised (d : Dev) (r : Nat) (x : Recip) : (Dev.setRecip d r x).lastRaised = d.lastRaised := rfl
@[simp] theorem Dev.setRecip_flt (d : Dev) (r : Nat) (x : Recip) : (Dev.setRecip d r x).flt = d.flt := rfl
@[simp] theorem Dev.setRecip_roost (d : Dev) (r : Nat) (x : Recip) : (Dev.setRecip d r x).roost = d.roost := rfl
@[simp] theorem Dev.setRecip_pwr (d : Dev) (r : Nat) (x : Recip) : (Dev.setRecip d r x).pwr = d.pwr := rfl
@[simp] theorem Dev.setRecip_cal (d : Dev) (r : Nat) (x : Recip) : (Dev.setRecip d r x).cal = d.cal := rfl
@[simp] theorem Dev.setRecip_boot (d : Dev) (r : Nat) (x : Recip) : (Dev.setRecip d r x).boot = d.boot := rfl
@[simp] theorem Dev.setRecip_guide (d : Dev) (r : Nat) (x : Recip) : (Dev.setRecip d r x).guide = d.guide := rfl
@[simp] theorem Dev.setRecip_fleet (d : Dev) (r : Nat) (x : Recip) : (Dev.setRecip d r x).fleet = d.fleet := rfl
@[simp] theorem Dev.setRecip_ptp (d : Dev) (r : Nat) (x : Recip) : (Dev.setRecip d r x).ptp = d.ptp := rfl
@[simp] theorem Dev.setRecip_memc (d : Dev) (r : Nat) (x : Recip) : (Dev.setRecip d r x).memc = d.memc := rfl
@[simp] theorem Dev.setRecip_ind (d : Dev) (r : Nat) (x : Recip) : (Dev.setRecip d r x).ind = d.ind := rfl
@[simp] theorem Dev.setRecip_indGen (d : Dev) (r : Nat) (x : Recip) : (Dev.setRecip d r x).indGen = d.indGen := rfl
@[simp] theorem Dev.setRecip_tap (d : Dev) (r : Nat) (x : Recip) : (Dev.setRecip d r x).tap = d.tap := rfl
@[simp] theorem Dev.setRecip_allocs (d : Dev) (r : Nat) (x : Recip) : (Dev.setRecip d r x).allocs = d.allocs := rfl
@[simp] theorem Dev.setRecip_syncAt (d : Dev) (r : Nat) (x : Recip) : (Dev.setRecip d r x).syncAt = d.syncAt := rfl

/-! ### `Dev.setKey` -/

@[simp] theorem Dev.setKey_now (d : Dev) (k : Nat) (x : Key) : (Dev.setKey d k x).now = d.now := rfl
@[simp] theorem Dev.setKey_tick (d : Dev) (k : Nat) (x : Key) : (Dev.setKey d k x).tick = d.tick := rfl
@[simp] theorem Dev.setKey_pcie (d : Dev) (k : Nat) (x : Key) : (Dev.setKey d k x).pcie = d.pcie := rfl
@[simp] theorem Dev.setKey_upTime (d : Dev) (k : Nat) (x : Key) : (Dev.setKey d k x).upTime = d.upTime := rfl
@[simp] theorem Dev.setKey_freeCtr (d : Dev) (k : Nat) (x : Key) : (Dev.setKey d k x).freeCtr = d.freeCtr := rfl
@[simp] theorem Dev.setKey_regs (d : Dev) (k : Nat) (x : Key) : (Dev.setKey d k x).regs = d.regs := rfl
@[simp] theorem Dev.setKey_acc (d : Dev) (k : Nat) (x : Key) : (Dev.setKey d k x).acc = d.acc := rfl
@[simp] theorem Dev.setKey_accStd (d : Dev) (k : Nat) (x : Key) : (Dev.setKey d k x).accStd = d.accStd := rfl
@[simp] theorem Dev.setKey_shadow (d : Dev) (k : Nat) (x : Key) : (Dev.setKey d k x).shadow = d.shadow := rfl
@[simp] theorem Dev.setKey_captured (d : Dev) (k : Nat) (x : Key) : (Dev.setKey d k x).captured = d.captured := rfl
@[simp] theorem Dev.setKey_snaps (d : Dev) (k : Nat) (x : Key) : (Dev.setKey d k x).snaps = d.snaps := rfl
@[simp] theorem Dev.setKey_out (d : Dev) (k : Nat) (x : Key) : (Dev.setKey d k x).out = d.out := rfl
@[simp] theorem Dev.setKey_streams (d : Dev) (k : Nat) (x : Key) : (Dev.setKey d k x).streams = d.streams := rfl
@[simp] theorem Dev.setKey_sOwner (d : Dev) (k : Nat) (x : Key) : (Dev.setKey d k x).sOwner = d.sOwner := rfl
@[simp] theorem Dev.setKey_ctxs (d : Dev) (k : Nat) (x : Key) : (Dev.setKey d k x).ctxs = d.ctxs := rfl
@[simp] theorem Dev.setKey_cOwner (d : Dev) (k : Nat) (x : Key) : (Dev.setKey d k x).cOwner = d.cOwner := rfl
@[simp] theorem Dev.setKey_gals (d : Dev) (k : Nat) (x : Key) : (Dev.setKey d k x).gals = d.gals := rfl
@[simp] theorem Dev.setKey_chans (d : Dev) (k : Nat) (x : Key) : (Dev.setKey d k x).chans = d.chans := rfl
@[simp] theorem Dev.setKey_recips (d : Dev) (k : Nat) (x : Key) : (Dev.setKey d k x).recips = d.recips := rfl
@[simp] theorem Dev.setKey_keks (d : Dev) (k : Nat) (x : Key) : (Dev.setKey d k x).keks = d.keks := rfl
@[simp] theorem Dev.setKey_mouth (d : Dev) (k : Nat) (x : Key) : (Dev.setKey d k x).mouth = d.mouth := rfl
@[simp] theorem Dev.setKey_rings (d : Dev) (k : Nat) (x : Key) : (Dev.setKey d k x).rings = d.rings := rfl
@[simp] theorem Dev.setKey_submitted (d : Dev) (k : Nat) (x : Key) : (Dev.setKey d k x).submitted = d.submitted := rfl
@[simp] theorem Dev.setKey_srcs (d : Dev) (k : Nat) (x : Key) : (Dev.setKey d k x).srcs = d.srcs := rfl
@[simp] theorem Dev.setKey_turn (d : Dev) (k : Nat) (x : Key) : (Dev.setKey d k x).turn = d.turn := rfl
@[simp] theorem Dev.setKey_fastMet (d : Dev) (k : Nat) (x : Key) : (Dev.setKey d k x).fastMet = d.fastMet := rfl
@[simp] theorem Dev.setKey_ingestPeriods (d : Dev) (k : Nat) (x : Key) : (Dev.setKey d k x).ingestPeriods = d.ingestPeriods := rfl
@[simp] theorem Dev.setKey_ingestTurn (d : Dev) (k : Nat) (x : Key) : (Dev.setKey d k x).ingestTurn = d.ingestTurn := rfl
@[simp] theorem Dev.setKey_activeFn (d : Dev) (k : Nat) (x : Key) : (Dev.setKey d k x).activeFn = d.activeFn := rfl
@[simp] theorem Dev.setKey_eqs (d : Dev) (k : Nat) (x : Key) : (Dev.setKey d k x).eqs = d.eqs := rfl
@[simp] theorem Dev.setKey_lastRaised (d : Dev) (k : Nat) (x : Key) : (Dev.setKey d k x).lastRaised = d.lastRaised := rfl
@[simp] theorem Dev.setKey_flt (d : Dev) (k : Nat) (x : Key) : (Dev.setKey d k x).flt = d.flt := rfl
@[simp] theorem Dev.setKey_roost (d : Dev) (k : Nat) (x : Key) : (Dev.setKey d k x).roost = d.roost := rfl
@[simp] theorem Dev.setKey_pwr (d : Dev) (k : Nat) (x : Key) : (Dev.setKey d k x).pwr = d.pwr := rfl
@[simp] theorem Dev.setKey_cal (d : Dev) (k : Nat) (x : Key) : (Dev.setKey d k x).cal = d.cal := rfl
@[simp] theorem Dev.setKey_boot (d : Dev) (k : Nat) (x : Key) : (Dev.setKey d k x).boot = d.boot := rfl
@[simp] theorem Dev.setKey_guide (d : Dev) (k : Nat) (x : Key) : (Dev.setKey d k x).guide = d.guide := rfl
@[simp] theorem Dev.setKey_fleet (d : Dev) (k : Nat) (x : Key) : (Dev.setKey d k x).fleet = d.fleet := rfl
@[simp] theorem Dev.setKey_ptp (d : Dev) (k : Nat) (x : Key) : (Dev.setKey d k x).ptp = d.ptp := rfl
@[simp] theorem Dev.setKey_memc (d : Dev) (k : Nat) (x : Key) : (Dev.setKey d k x).memc = d.memc := rfl
@[simp] theorem Dev.setKey_ind (d : Dev) (k : Nat) (x : Key) : (Dev.setKey d k x).ind = d.ind := rfl
@[simp] theorem Dev.setKey_indGen (d : Dev) (k : Nat) (x : Key) : (Dev.setKey d k x).indGen = d.indGen := rfl
@[simp] theorem Dev.setKey_tap (d : Dev) (k : Nat) (x : Key) : (Dev.setKey d k x).tap = d.tap := rfl
@[simp] theorem Dev.setKey_allocs (d : Dev) (k : Nat) (x : Key) : (Dev.setKey d k x).allocs = d.allocs := rfl
@[simp] theorem Dev.setKey_syncAt (d : Dev) (k : Nat) (x : Key) : (Dev.setKey d k x).syncAt = d.syncAt := rfl

/-! ### `Dev.setStreamOwner` -/

@[simp] theorem Dev.setStreamOwner_now (d : Dev) (n m : Nat) : (Dev.setStreamOwner d n m).now = d.now := rfl
@[simp] theorem Dev.setStreamOwner_tick (d : Dev) (n m : Nat) : (Dev.setStreamOwner d n m).tick = d.tick := rfl
@[simp] theorem Dev.setStreamOwner_pcie (d : Dev) (n m : Nat) : (Dev.setStreamOwner d n m).pcie = d.pcie := rfl
@[simp] theorem Dev.setStreamOwner_upTime (d : Dev) (n m : Nat) : (Dev.setStreamOwner d n m).upTime = d.upTime := rfl
@[simp] theorem Dev.setStreamOwner_freeCtr (d : Dev) (n m : Nat) : (Dev.setStreamOwner d n m).freeCtr = d.freeCtr := rfl
@[simp] theorem Dev.setStreamOwner_regs (d : Dev) (n m : Nat) : (Dev.setStreamOwner d n m).regs = d.regs := rfl
@[simp] theorem Dev.setStreamOwner_acc (d : Dev) (n m : Nat) : (Dev.setStreamOwner d n m).acc = d.acc := rfl
@[simp] theorem Dev.setStreamOwner_accStd (d : Dev) (n m : Nat) : (Dev.setStreamOwner d n m).accStd = d.accStd := rfl
@[simp] theorem Dev.setStreamOwner_shadow (d : Dev) (n m : Nat) : (Dev.setStreamOwner d n m).shadow = d.shadow := rfl
@[simp] theorem Dev.setStreamOwner_captured (d : Dev) (n m : Nat) : (Dev.setStreamOwner d n m).captured = d.captured := rfl
@[simp] theorem Dev.setStreamOwner_snaps (d : Dev) (n m : Nat) : (Dev.setStreamOwner d n m).snaps = d.snaps := rfl
@[simp] theorem Dev.setStreamOwner_out (d : Dev) (n m : Nat) : (Dev.setStreamOwner d n m).out = d.out := rfl
@[simp] theorem Dev.setStreamOwner_streams (d : Dev) (n m : Nat) : (Dev.setStreamOwner d n m).streams = d.streams := rfl
@[simp] theorem Dev.setStreamOwner_ctxs (d : Dev) (n m : Nat) : (Dev.setStreamOwner d n m).ctxs = d.ctxs := rfl
@[simp] theorem Dev.setStreamOwner_cOwner (d : Dev) (n m : Nat) : (Dev.setStreamOwner d n m).cOwner = d.cOwner := rfl
@[simp] theorem Dev.setStreamOwner_gals (d : Dev) (n m : Nat) : (Dev.setStreamOwner d n m).gals = d.gals := rfl
@[simp] theorem Dev.setStreamOwner_chans (d : Dev) (n m : Nat) : (Dev.setStreamOwner d n m).chans = d.chans := rfl
@[simp] theorem Dev.setStreamOwner_recips (d : Dev) (n m : Nat) : (Dev.setStreamOwner d n m).recips = d.recips := rfl
@[simp] theorem Dev.setStreamOwner_keys (d : Dev) (n m : Nat) : (Dev.setStreamOwner d n m).keys = d.keys := rfl
@[simp] theorem Dev.setStreamOwner_keks (d : Dev) (n m : Nat) : (Dev.setStreamOwner d n m).keks = d.keks := rfl
@[simp] theorem Dev.setStreamOwner_mouth (d : Dev) (n m : Nat) : (Dev.setStreamOwner d n m).mouth = d.mouth := rfl
@[simp] theorem Dev.setStreamOwner_rings (d : Dev) (n m : Nat) : (Dev.setStreamOwner d n m).rings = d.rings := rfl
@[simp] theorem Dev.setStreamOwner_submitted (d : Dev) (n m : Nat) : (Dev.setStreamOwner d n m).submitted = d.submitted := rfl
@[simp] theorem Dev.setStreamOwner_srcs (d : Dev) (n m : Nat) : (Dev.setStreamOwner d n m).srcs = d.srcs := rfl
@[simp] theorem Dev.setStreamOwner_turn (d : Dev) (n m : Nat) : (Dev.setStreamOwner d n m).turn = d.turn := rfl
@[simp] theorem Dev.setStreamOwner_fastMet (d : Dev) (n m : Nat) : (Dev.setStreamOwner d n m).fastMet = d.fastMet := rfl
@[simp] theorem Dev.setStreamOwner_ingestPeriods (d : Dev) (n m : Nat) : (Dev.setStreamOwner d n m).ingestPeriods = d.ingestPeriods := rfl
@[simp] theorem Dev.setStreamOwner_ingestTurn (d : Dev) (n m : Nat) : (Dev.setStreamOwner d n m).ingestTurn = d.ingestTurn := rfl
@[simp] theorem Dev.setStreamOwner_activeFn (d : Dev) (n m : Nat) : (Dev.setStreamOwner d n m).activeFn = d.activeFn := rfl
@[simp] theorem Dev.setStreamOwner_eqs (d : Dev) (n m : Nat) : (Dev.setStreamOwner d n m).eqs = d.eqs := rfl
@[simp] theorem Dev.setStreamOwner_lastRaised (d : Dev) (n m : Nat) : (Dev.setStreamOwner d n m).lastRaised = d.lastRaised := rfl
@[simp] theorem Dev.setStreamOwner_flt (d : Dev) (n m : Nat) : (Dev.setStreamOwner d n m).flt = d.flt := rfl
@[simp] theorem Dev.setStreamOwner_roost (d : Dev) (n m : Nat) : (Dev.setStreamOwner d n m).roost = d.roost := rfl
@[simp] theorem Dev.setStreamOwner_pwr (d : Dev) (n m : Nat) : (Dev.setStreamOwner d n m).pwr = d.pwr := rfl
@[simp] theorem Dev.setStreamOwner_cal (d : Dev) (n m : Nat) : (Dev.setStreamOwner d n m).cal = d.cal := rfl
@[simp] theorem Dev.setStreamOwner_boot (d : Dev) (n m : Nat) : (Dev.setStreamOwner d n m).boot = d.boot := rfl
@[simp] theorem Dev.setStreamOwner_guide (d : Dev) (n m : Nat) : (Dev.setStreamOwner d n m).guide = d.guide := rfl
@[simp] theorem Dev.setStreamOwner_fleet (d : Dev) (n m : Nat) : (Dev.setStreamOwner d n m).fleet = d.fleet := rfl
@[simp] theorem Dev.setStreamOwner_ptp (d : Dev) (n m : Nat) : (Dev.setStreamOwner d n m).ptp = d.ptp := rfl
@[simp] theorem Dev.setStreamOwner_memc (d : Dev) (n m : Nat) : (Dev.setStreamOwner d n m).memc = d.memc := rfl
@[simp] theorem Dev.setStreamOwner_ind (d : Dev) (n m : Nat) : (Dev.setStreamOwner d n m).ind = d.ind := rfl
@[simp] theorem Dev.setStreamOwner_indGen (d : Dev) (n m : Nat) : (Dev.setStreamOwner d n m).indGen = d.indGen := rfl
@[simp] theorem Dev.setStreamOwner_tap (d : Dev) (n m : Nat) : (Dev.setStreamOwner d n m).tap = d.tap := rfl
@[simp] theorem Dev.setStreamOwner_allocs (d : Dev) (n m : Nat) : (Dev.setStreamOwner d n m).allocs = d.allocs := rfl
@[simp] theorem Dev.setStreamOwner_syncAt (d : Dev) (n m : Nat) : (Dev.setStreamOwner d n m).syncAt = d.syncAt := rfl

/-! ### `Dev.setCtxOwner` -/

@[simp] theorem Dev.setCtxOwner_now (d : Dev) (c m : Nat) : (Dev.setCtxOwner d c m).now = d.now := rfl
@[simp] theorem Dev.setCtxOwner_tick (d : Dev) (c m : Nat) : (Dev.setCtxOwner d c m).tick = d.tick := rfl
@[simp] theorem Dev.setCtxOwner_pcie (d : Dev) (c m : Nat) : (Dev.setCtxOwner d c m).pcie = d.pcie := rfl
@[simp] theorem Dev.setCtxOwner_upTime (d : Dev) (c m : Nat) : (Dev.setCtxOwner d c m).upTime = d.upTime := rfl
@[simp] theorem Dev.setCtxOwner_freeCtr (d : Dev) (c m : Nat) : (Dev.setCtxOwner d c m).freeCtr = d.freeCtr := rfl
@[simp] theorem Dev.setCtxOwner_regs (d : Dev) (c m : Nat) : (Dev.setCtxOwner d c m).regs = d.regs := rfl
@[simp] theorem Dev.setCtxOwner_acc (d : Dev) (c m : Nat) : (Dev.setCtxOwner d c m).acc = d.acc := rfl
@[simp] theorem Dev.setCtxOwner_accStd (d : Dev) (c m : Nat) : (Dev.setCtxOwner d c m).accStd = d.accStd := rfl
@[simp] theorem Dev.setCtxOwner_shadow (d : Dev) (c m : Nat) : (Dev.setCtxOwner d c m).shadow = d.shadow := rfl
@[simp] theorem Dev.setCtxOwner_captured (d : Dev) (c m : Nat) : (Dev.setCtxOwner d c m).captured = d.captured := rfl
@[simp] theorem Dev.setCtxOwner_snaps (d : Dev) (c m : Nat) : (Dev.setCtxOwner d c m).snaps = d.snaps := rfl
@[simp] theorem Dev.setCtxOwner_out (d : Dev) (c m : Nat) : (Dev.setCtxOwner d c m).out = d.out := rfl
@[simp] theorem Dev.setCtxOwner_streams (d : Dev) (c m : Nat) : (Dev.setCtxOwner d c m).streams = d.streams := rfl
@[simp] theorem Dev.setCtxOwner_sOwner (d : Dev) (c m : Nat) : (Dev.setCtxOwner d c m).sOwner = d.sOwner := rfl
@[simp] theorem Dev.setCtxOwner_ctxs (d : Dev) (c m : Nat) : (Dev.setCtxOwner d c m).ctxs = d.ctxs := rfl
@[simp] theorem Dev.setCtxOwner_gals (d : Dev) (c m : Nat) : (Dev.setCtxOwner d c m).gals = d.gals := rfl
@[simp] theorem Dev.setCtxOwner_chans (d : Dev) (c m : Nat) : (Dev.setCtxOwner d c m).chans = d.chans := rfl
@[simp] theorem Dev.setCtxOwner_recips (d : Dev) (c m : Nat) : (Dev.setCtxOwner d c m).recips = d.recips := rfl
@[simp] theorem Dev.setCtxOwner_keys (d : Dev) (c m : Nat) : (Dev.setCtxOwner d c m).keys = d.keys := rfl
@[simp] theorem Dev.setCtxOwner_keks (d : Dev) (c m : Nat) : (Dev.setCtxOwner d c m).keks = d.keks := rfl
@[simp] theorem Dev.setCtxOwner_mouth (d : Dev) (c m : Nat) : (Dev.setCtxOwner d c m).mouth = d.mouth := rfl
@[simp] theorem Dev.setCtxOwner_rings (d : Dev) (c m : Nat) : (Dev.setCtxOwner d c m).rings = d.rings := rfl
@[simp] theorem Dev.setCtxOwner_submitted (d : Dev) (c m : Nat) : (Dev.setCtxOwner d c m).submitted = d.submitted := rfl
@[simp] theorem Dev.setCtxOwner_srcs (d : Dev) (c m : Nat) : (Dev.setCtxOwner d c m).srcs = d.srcs := rfl
@[simp] theorem Dev.setCtxOwner_turn (d : Dev) (c m : Nat) : (Dev.setCtxOwner d c m).turn = d.turn := rfl
@[simp] theorem Dev.setCtxOwner_fastMet (d : Dev) (c m : Nat) : (Dev.setCtxOwner d c m).fastMet = d.fastMet := rfl
@[simp] theorem Dev.setCtxOwner_ingestPeriods (d : Dev) (c m : Nat) : (Dev.setCtxOwner d c m).ingestPeriods = d.ingestPeriods := rfl
@[simp] theorem Dev.setCtxOwner_ingestTurn (d : Dev) (c m : Nat) : (Dev.setCtxOwner d c m).ingestTurn = d.ingestTurn := rfl
@[simp] theorem Dev.setCtxOwner_activeFn (d : Dev) (c m : Nat) : (Dev.setCtxOwner d c m).activeFn = d.activeFn := rfl
@[simp] theorem Dev.setCtxOwner_eqs (d : Dev) (c m : Nat) : (Dev.setCtxOwner d c m).eqs = d.eqs := rfl
@[simp] theorem Dev.setCtxOwner_lastRaised (d : Dev) (c m : Nat) : (Dev.setCtxOwner d c m).lastRaised = d.lastRaised := rfl
@[simp] theorem Dev.setCtxOwner_flt (d : Dev) (c m : Nat) : (Dev.setCtxOwner d c m).flt = d.flt := rfl
@[simp] theorem Dev.setCtxOwner_roost (d : Dev) (c m : Nat) : (Dev.setCtxOwner d c m).roost = d.roost := rfl
@[simp] theorem Dev.setCtxOwner_pwr (d : Dev) (c m : Nat) : (Dev.setCtxOwner d c m).pwr = d.pwr := rfl
@[simp] theorem Dev.setCtxOwner_cal (d : Dev) (c m : Nat) : (Dev.setCtxOwner d c m).cal = d.cal := rfl
@[simp] theorem Dev.setCtxOwner_boot (d : Dev) (c m : Nat) : (Dev.setCtxOwner d c m).boot = d.boot := rfl
@[simp] theorem Dev.setCtxOwner_guide (d : Dev) (c m : Nat) : (Dev.setCtxOwner d c m).guide = d.guide := rfl
@[simp] theorem Dev.setCtxOwner_fleet (d : Dev) (c m : Nat) : (Dev.setCtxOwner d c m).fleet = d.fleet := rfl
@[simp] theorem Dev.setCtxOwner_ptp (d : Dev) (c m : Nat) : (Dev.setCtxOwner d c m).ptp = d.ptp := rfl
@[simp] theorem Dev.setCtxOwner_memc (d : Dev) (c m : Nat) : (Dev.setCtxOwner d c m).memc = d.memc := rfl
@[simp] theorem Dev.setCtxOwner_ind (d : Dev) (c m : Nat) : (Dev.setCtxOwner d c m).ind = d.ind := rfl
@[simp] theorem Dev.setCtxOwner_indGen (d : Dev) (c m : Nat) : (Dev.setCtxOwner d c m).indGen = d.indGen := rfl
@[simp] theorem Dev.setCtxOwner_tap (d : Dev) (c m : Nat) : (Dev.setCtxOwner d c m).tap = d.tap := rfl
@[simp] theorem Dev.setCtxOwner_allocs (d : Dev) (c m : Nat) : (Dev.setCtxOwner d c m).allocs = d.allocs := rfl
@[simp] theorem Dev.setCtxOwner_syncAt (d : Dev) (c m : Nat) : (Dev.setCtxOwner d c m).syncAt = d.syncAt := rfl

/-! ### `Dev.onMouth` -/

@[simp] theorem Dev.onMouth_now (d : Dev) (f : Mouth → Mouth) : (Dev.onMouth d f).now = d.now := rfl
@[simp] theorem Dev.onMouth_tick (d : Dev) (f : Mouth → Mouth) : (Dev.onMouth d f).tick = d.tick := rfl
@[simp] theorem Dev.onMouth_pcie (d : Dev) (f : Mouth → Mouth) : (Dev.onMouth d f).pcie = d.pcie := rfl
@[simp] theorem Dev.onMouth_upTime (d : Dev) (f : Mouth → Mouth) : (Dev.onMouth d f).upTime = d.upTime := rfl
@[simp] theorem Dev.onMouth_freeCtr (d : Dev) (f : Mouth → Mouth) : (Dev.onMouth d f).freeCtr = d.freeCtr := rfl
@[simp] theorem Dev.onMouth_regs (d : Dev) (f : Mouth → Mouth) : (Dev.onMouth d f).regs = d.regs := rfl
@[simp] theorem Dev.onMouth_acc (d : Dev) (f : Mouth → Mouth) : (Dev.onMouth d f).acc = d.acc := rfl
@[simp] theorem Dev.onMouth_accStd (d : Dev) (f : Mouth → Mouth) : (Dev.onMouth d f).accStd = d.accStd := rfl
@[simp] theorem Dev.onMouth_shadow (d : Dev) (f : Mouth → Mouth) : (Dev.onMouth d f).shadow = d.shadow := rfl
@[simp] theorem Dev.onMouth_captured (d : Dev) (f : Mouth → Mouth) : (Dev.onMouth d f).captured = d.captured := rfl
@[simp] theorem Dev.onMouth_snaps (d : Dev) (f : Mouth → Mouth) : (Dev.onMouth d f).snaps = d.snaps := rfl
@[simp] theorem Dev.onMouth_out (d : Dev) (f : Mouth → Mouth) : (Dev.onMouth d f).out = d.out := rfl
@[simp] theorem Dev.onMouth_streams (d : Dev) (f : Mouth → Mouth) : (Dev.onMouth d f).streams = d.streams := rfl
@[simp] theorem Dev.onMouth_sOwner (d : Dev) (f : Mouth → Mouth) : (Dev.onMouth d f).sOwner = d.sOwner := rfl
@[simp] theorem Dev.onMouth_ctxs (d : Dev) (f : Mouth → Mouth) : (Dev.onMouth d f).ctxs = d.ctxs := rfl
@[simp] theorem Dev.onMouth_cOwner (d : Dev) (f : Mouth → Mouth) : (Dev.onMouth d f).cOwner = d.cOwner := rfl
@[simp] theorem Dev.onMouth_gals (d : Dev) (f : Mouth → Mouth) : (Dev.onMouth d f).gals = d.gals := rfl
@[simp] theorem Dev.onMouth_chans (d : Dev) (f : Mouth → Mouth) : (Dev.onMouth d f).chans = d.chans := rfl
@[simp] theorem Dev.onMouth_recips (d : Dev) (f : Mouth → Mouth) : (Dev.onMouth d f).recips = d.recips := rfl
@[simp] theorem Dev.onMouth_keys (d : Dev) (f : Mouth → Mouth) : (Dev.onMouth d f).keys = d.keys := rfl
@[simp] theorem Dev.onMouth_keks (d : Dev) (f : Mouth → Mouth) : (Dev.onMouth d f).keks = d.keks := rfl
@[simp] theorem Dev.onMouth_rings (d : Dev) (f : Mouth → Mouth) : (Dev.onMouth d f).rings = d.rings := rfl
@[simp] theorem Dev.onMouth_submitted (d : Dev) (f : Mouth → Mouth) : (Dev.onMouth d f).submitted = d.submitted := rfl
@[simp] theorem Dev.onMouth_srcs (d : Dev) (f : Mouth → Mouth) : (Dev.onMouth d f).srcs = d.srcs := rfl
@[simp] theorem Dev.onMouth_turn (d : Dev) (f : Mouth → Mouth) : (Dev.onMouth d f).turn = d.turn := rfl
@[simp] theorem Dev.onMouth_fastMet (d : Dev) (f : Mouth → Mouth) : (Dev.onMouth d f).fastMet = d.fastMet := rfl
@[simp] theorem Dev.onMouth_ingestPeriods (d : Dev) (f : Mouth → Mouth) : (Dev.onMouth d f).ingestPeriods = d.ingestPeriods := rfl
@[simp] theorem Dev.onMouth_ingestTurn (d : Dev) (f : Mouth → Mouth) : (Dev.onMouth d f).ingestTurn = d.ingestTurn := rfl
@[simp] theorem Dev.onMouth_activeFn (d : Dev) (f : Mouth → Mouth) : (Dev.onMouth d f).activeFn = d.activeFn := rfl
@[simp] theorem Dev.onMouth_eqs (d : Dev) (f : Mouth → Mouth) : (Dev.onMouth d f).eqs = d.eqs := rfl
@[simp] theorem Dev.onMouth_lastRaised (d : Dev) (f : Mouth → Mouth) : (Dev.onMouth d f).lastRaised = d.lastRaised := rfl
@[simp] theorem Dev.onMouth_flt (d : Dev) (f : Mouth → Mouth) : (Dev.onMouth d f).flt = d.flt := rfl
@[simp] theorem Dev.onMouth_roost (d : Dev) (f : Mouth → Mouth) : (Dev.onMouth d f).roost = d.roost := rfl
@[simp] theorem Dev.onMouth_pwr (d : Dev) (f : Mouth → Mouth) : (Dev.onMouth d f).pwr = d.pwr := rfl
@[simp] theorem Dev.onMouth_cal (d : Dev) (f : Mouth → Mouth) : (Dev.onMouth d f).cal = d.cal := rfl
@[simp] theorem Dev.onMouth_boot (d : Dev) (f : Mouth → Mouth) : (Dev.onMouth d f).boot = d.boot := rfl
@[simp] theorem Dev.onMouth_guide (d : Dev) (f : Mouth → Mouth) : (Dev.onMouth d f).guide = d.guide := rfl
@[simp] theorem Dev.onMouth_fleet (d : Dev) (f : Mouth → Mouth) : (Dev.onMouth d f).fleet = d.fleet := rfl
@[simp] theorem Dev.onMouth_ptp (d : Dev) (f : Mouth → Mouth) : (Dev.onMouth d f).ptp = d.ptp := rfl
@[simp] theorem Dev.onMouth_memc (d : Dev) (f : Mouth → Mouth) : (Dev.onMouth d f).memc = d.memc := rfl
@[simp] theorem Dev.onMouth_ind (d : Dev) (f : Mouth → Mouth) : (Dev.onMouth d f).ind = d.ind := rfl
@[simp] theorem Dev.onMouth_indGen (d : Dev) (f : Mouth → Mouth) : (Dev.onMouth d f).indGen = d.indGen := rfl
@[simp] theorem Dev.onMouth_tap (d : Dev) (f : Mouth → Mouth) : (Dev.onMouth d f).tap = d.tap := rfl
@[simp] theorem Dev.onMouth_allocs (d : Dev) (f : Mouth → Mouth) : (Dev.onMouth d f).allocs = d.allocs := rfl
@[simp] theorem Dev.onMouth_syncAt (d : Dev) (f : Mouth → Mouth) : (Dev.onMouth d f).syncAt = d.syncAt := rfl

/-! ### `Dev.setCal` -/

@[simp] theorem Dev.setCal_now (d : Dev) (b : Nat) (x : CalBlk) : (Dev.setCal d b x).now = d.now := rfl
@[simp] theorem Dev.setCal_tick (d : Dev) (b : Nat) (x : CalBlk) : (Dev.setCal d b x).tick = d.tick := rfl
@[simp] theorem Dev.setCal_pcie (d : Dev) (b : Nat) (x : CalBlk) : (Dev.setCal d b x).pcie = d.pcie := rfl
@[simp] theorem Dev.setCal_upTime (d : Dev) (b : Nat) (x : CalBlk) : (Dev.setCal d b x).upTime = d.upTime := rfl
@[simp] theorem Dev.setCal_freeCtr (d : Dev) (b : Nat) (x : CalBlk) : (Dev.setCal d b x).freeCtr = d.freeCtr := rfl
@[simp] theorem Dev.setCal_regs (d : Dev) (b : Nat) (x : CalBlk) : (Dev.setCal d b x).regs = d.regs := rfl
@[simp] theorem Dev.setCal_acc (d : Dev) (b : Nat) (x : CalBlk) : (Dev.setCal d b x).acc = d.acc := rfl
@[simp] theorem Dev.setCal_accStd (d : Dev) (b : Nat) (x : CalBlk) : (Dev.setCal d b x).accStd = d.accStd := rfl
@[simp] theorem Dev.setCal_shadow (d : Dev) (b : Nat) (x : CalBlk) : (Dev.setCal d b x).shadow = d.shadow := rfl
@[simp] theorem Dev.setCal_captured (d : Dev) (b : Nat) (x : CalBlk) : (Dev.setCal d b x).captured = d.captured := rfl
@[simp] theorem Dev.setCal_snaps (d : Dev) (b : Nat) (x : CalBlk) : (Dev.setCal d b x).snaps = d.snaps := rfl
@[simp] theorem Dev.setCal_out (d : Dev) (b : Nat) (x : CalBlk) : (Dev.setCal d b x).out = d.out := rfl
@[simp] theorem Dev.setCal_streams (d : Dev) (b : Nat) (x : CalBlk) : (Dev.setCal d b x).streams = d.streams := rfl
@[simp] theorem Dev.setCal_sOwner (d : Dev) (b : Nat) (x : CalBlk) : (Dev.setCal d b x).sOwner = d.sOwner := rfl
@[simp] theorem Dev.setCal_ctxs (d : Dev) (b : Nat) (x : CalBlk) : (Dev.setCal d b x).ctxs = d.ctxs := rfl
@[simp] theorem Dev.setCal_cOwner (d : Dev) (b : Nat) (x : CalBlk) : (Dev.setCal d b x).cOwner = d.cOwner := rfl
@[simp] theorem Dev.setCal_gals (d : Dev) (b : Nat) (x : CalBlk) : (Dev.setCal d b x).gals = d.gals := rfl
@[simp] theorem Dev.setCal_chans (d : Dev) (b : Nat) (x : CalBlk) : (Dev.setCal d b x).chans = d.chans := rfl
@[simp] theorem Dev.setCal_recips (d : Dev) (b : Nat) (x : CalBlk) : (Dev.setCal d b x).recips = d.recips := rfl
@[simp] theorem Dev.setCal_keys (d : Dev) (b : Nat) (x : CalBlk) : (Dev.setCal d b x).keys = d.keys := rfl
@[simp] theorem Dev.setCal_keks (d : Dev) (b : Nat) (x : CalBlk) : (Dev.setCal d b x).keks = d.keks := rfl
@[simp] theorem Dev.setCal_mouth (d : Dev) (b : Nat) (x : CalBlk) : (Dev.setCal d b x).mouth = d.mouth := rfl
@[simp] theorem Dev.setCal_rings (d : Dev) (b : Nat) (x : CalBlk) : (Dev.setCal d b x).rings = d.rings := rfl
@[simp] theorem Dev.setCal_submitted (d : Dev) (b : Nat) (x : CalBlk) : (Dev.setCal d b x).submitted = d.submitted := rfl
@[simp] theorem Dev.setCal_srcs (d : Dev) (b : Nat) (x : CalBlk) : (Dev.setCal d b x).srcs = d.srcs := rfl
@[simp] theorem Dev.setCal_turn (d : Dev) (b : Nat) (x : CalBlk) : (Dev.setCal d b x).turn = d.turn := rfl
@[simp] theorem Dev.setCal_fastMet (d : Dev) (b : Nat) (x : CalBlk) : (Dev.setCal d b x).fastMet = d.fastMet := rfl
@[simp] theorem Dev.setCal_ingestPeriods (d : Dev) (b : Nat) (x : CalBlk) : (Dev.setCal d b x).ingestPeriods = d.ingestPeriods := rfl
@[simp] theorem Dev.setCal_ingestTurn (d : Dev) (b : Nat) (x : CalBlk) : (Dev.setCal d b x).ingestTurn = d.ingestTurn := rfl
@[simp] theorem Dev.setCal_activeFn (d : Dev) (b : Nat) (x : CalBlk) : (Dev.setCal d b x).activeFn = d.activeFn := rfl
@[simp] theorem Dev.setCal_eqs (d : Dev) (b : Nat) (x : CalBlk) : (Dev.setCal d b x).eqs = d.eqs := rfl
@[simp] theorem Dev.setCal_lastRaised (d : Dev) (b : Nat) (x : CalBlk) : (Dev.setCal d b x).lastRaised = d.lastRaised := rfl
@[simp] theorem Dev.setCal_flt (d : Dev) (b : Nat) (x : CalBlk) : (Dev.setCal d b x).flt = d.flt := rfl
@[simp] theorem Dev.setCal_roost (d : Dev) (b : Nat) (x : CalBlk) : (Dev.setCal d b x).roost = d.roost := rfl
@[simp] theorem Dev.setCal_pwr (d : Dev) (b : Nat) (x : CalBlk) : (Dev.setCal d b x).pwr = d.pwr := rfl
@[simp] theorem Dev.setCal_boot (d : Dev) (b : Nat) (x : CalBlk) : (Dev.setCal d b x).boot = d.boot := rfl
@[simp] theorem Dev.setCal_guide (d : Dev) (b : Nat) (x : CalBlk) : (Dev.setCal d b x).guide = d.guide := rfl
@[simp] theorem Dev.setCal_fleet (d : Dev) (b : Nat) (x : CalBlk) : (Dev.setCal d b x).fleet = d.fleet := rfl
@[simp] theorem Dev.setCal_ptp (d : Dev) (b : Nat) (x : CalBlk) : (Dev.setCal d b x).ptp = d.ptp := rfl
@[simp] theorem Dev.setCal_memc (d : Dev) (b : Nat) (x : CalBlk) : (Dev.setCal d b x).memc = d.memc := rfl
@[simp] theorem Dev.setCal_ind (d : Dev) (b : Nat) (x : CalBlk) : (Dev.setCal d b x).ind = d.ind := rfl
@[simp] theorem Dev.setCal_indGen (d : Dev) (b : Nat) (x : CalBlk) : (Dev.setCal d b x).indGen = d.indGen := rfl
@[simp] theorem Dev.setCal_tap (d : Dev) (b : Nat) (x : CalBlk) : (Dev.setCal d b x).tap = d.tap := rfl
@[simp] theorem Dev.setCal_allocs (d : Dev) (b : Nat) (x : CalBlk) : (Dev.setCal d b x).allocs = d.allocs := rfl
@[simp] theorem Dev.setCal_syncAt (d : Dev) (b : Nat) (x : CalBlk) : (Dev.setCal d b x).syncAt = d.syncAt := rfl

/-! ### `Dev.setEqx` -/

@[simp] theorem Dev.setEqx_now (d : Dev) (f : Nat) (x : EqX) : (Dev.setEqx d f x).now = d.now := rfl
@[simp] theorem Dev.setEqx_tick (d : Dev) (f : Nat) (x : EqX) : (Dev.setEqx d f x).tick = d.tick := rfl
@[simp] theorem Dev.setEqx_pcie (d : Dev) (f : Nat) (x : EqX) : (Dev.setEqx d f x).pcie = d.pcie := rfl
@[simp] theorem Dev.setEqx_upTime (d : Dev) (f : Nat) (x : EqX) : (Dev.setEqx d f x).upTime = d.upTime := rfl
@[simp] theorem Dev.setEqx_freeCtr (d : Dev) (f : Nat) (x : EqX) : (Dev.setEqx d f x).freeCtr = d.freeCtr := rfl
@[simp] theorem Dev.setEqx_regs (d : Dev) (f : Nat) (x : EqX) : (Dev.setEqx d f x).regs = d.regs := rfl
@[simp] theorem Dev.setEqx_acc (d : Dev) (f : Nat) (x : EqX) : (Dev.setEqx d f x).acc = d.acc := rfl
@[simp] theorem Dev.setEqx_accStd (d : Dev) (f : Nat) (x : EqX) : (Dev.setEqx d f x).accStd = d.accStd := rfl
@[simp] theorem Dev.setEqx_shadow (d : Dev) (f : Nat) (x : EqX) : (Dev.setEqx d f x).shadow = d.shadow := rfl
@[simp] theorem Dev.setEqx_captured (d : Dev) (f : Nat) (x : EqX) : (Dev.setEqx d f x).captured = d.captured := rfl
@[simp] theorem Dev.setEqx_snaps (d : Dev) (f : Nat) (x : EqX) : (Dev.setEqx d f x).snaps = d.snaps := rfl
@[simp] theorem Dev.setEqx_out (d : Dev) (f : Nat) (x : EqX) : (Dev.setEqx d f x).out = d.out := rfl
@[simp] theorem Dev.setEqx_streams (d : Dev) (f : Nat) (x : EqX) : (Dev.setEqx d f x).streams = d.streams := rfl
@[simp] theorem Dev.setEqx_sOwner (d : Dev) (f : Nat) (x : EqX) : (Dev.setEqx d f x).sOwner = d.sOwner := rfl
@[simp] theorem Dev.setEqx_ctxs (d : Dev) (f : Nat) (x : EqX) : (Dev.setEqx d f x).ctxs = d.ctxs := rfl
@[simp] theorem Dev.setEqx_cOwner (d : Dev) (f : Nat) (x : EqX) : (Dev.setEqx d f x).cOwner = d.cOwner := rfl
@[simp] theorem Dev.setEqx_gals (d : Dev) (f : Nat) (x : EqX) : (Dev.setEqx d f x).gals = d.gals := rfl
@[simp] theorem Dev.setEqx_chans (d : Dev) (f : Nat) (x : EqX) : (Dev.setEqx d f x).chans = d.chans := rfl
@[simp] theorem Dev.setEqx_recips (d : Dev) (f : Nat) (x : EqX) : (Dev.setEqx d f x).recips = d.recips := rfl
@[simp] theorem Dev.setEqx_keys (d : Dev) (f : Nat) (x : EqX) : (Dev.setEqx d f x).keys = d.keys := rfl
@[simp] theorem Dev.setEqx_keks (d : Dev) (f : Nat) (x : EqX) : (Dev.setEqx d f x).keks = d.keks := rfl
@[simp] theorem Dev.setEqx_mouth (d : Dev) (f : Nat) (x : EqX) : (Dev.setEqx d f x).mouth = d.mouth := rfl
@[simp] theorem Dev.setEqx_rings (d : Dev) (f : Nat) (x : EqX) : (Dev.setEqx d f x).rings = d.rings := rfl
@[simp] theorem Dev.setEqx_submitted (d : Dev) (f : Nat) (x : EqX) : (Dev.setEqx d f x).submitted = d.submitted := rfl
@[simp] theorem Dev.setEqx_srcs (d : Dev) (f : Nat) (x : EqX) : (Dev.setEqx d f x).srcs = d.srcs := rfl
@[simp] theorem Dev.setEqx_turn (d : Dev) (f : Nat) (x : EqX) : (Dev.setEqx d f x).turn = d.turn := rfl
@[simp] theorem Dev.setEqx_fastMet (d : Dev) (f : Nat) (x : EqX) : (Dev.setEqx d f x).fastMet = d.fastMet := rfl
@[simp] theorem Dev.setEqx_ingestPeriods (d : Dev) (f : Nat) (x : EqX) : (Dev.setEqx d f x).ingestPeriods = d.ingestPeriods := rfl
@[simp] theorem Dev.setEqx_ingestTurn (d : Dev) (f : Nat) (x : EqX) : (Dev.setEqx d f x).ingestTurn = d.ingestTurn := rfl
@[simp] theorem Dev.setEqx_activeFn (d : Dev) (f : Nat) (x : EqX) : (Dev.setEqx d f x).activeFn = d.activeFn := rfl
@[simp] theorem Dev.setEqx_lastRaised (d : Dev) (f : Nat) (x : EqX) : (Dev.setEqx d f x).lastRaised = d.lastRaised := rfl
@[simp] theorem Dev.setEqx_flt (d : Dev) (f : Nat) (x : EqX) : (Dev.setEqx d f x).flt = d.flt := rfl
@[simp] theorem Dev.setEqx_roost (d : Dev) (f : Nat) (x : EqX) : (Dev.setEqx d f x).roost = d.roost := rfl
@[simp] theorem Dev.setEqx_pwr (d : Dev) (f : Nat) (x : EqX) : (Dev.setEqx d f x).pwr = d.pwr := rfl
@[simp] theorem Dev.setEqx_cal (d : Dev) (f : Nat) (x : EqX) : (Dev.setEqx d f x).cal = d.cal := rfl
@[simp] theorem Dev.setEqx_boot (d : Dev) (f : Nat) (x : EqX) : (Dev.setEqx d f x).boot = d.boot := rfl
@[simp] theorem Dev.setEqx_guide (d : Dev) (f : Nat) (x : EqX) : (Dev.setEqx d f x).guide = d.guide := rfl
@[simp] theorem Dev.setEqx_fleet (d : Dev) (f : Nat) (x : EqX) : (Dev.setEqx d f x).fleet = d.fleet := rfl
@[simp] theorem Dev.setEqx_ptp (d : Dev) (f : Nat) (x : EqX) : (Dev.setEqx d f x).ptp = d.ptp := rfl
@[simp] theorem Dev.setEqx_memc (d : Dev) (f : Nat) (x : EqX) : (Dev.setEqx d f x).memc = d.memc := rfl
@[simp] theorem Dev.setEqx_ind (d : Dev) (f : Nat) (x : EqX) : (Dev.setEqx d f x).ind = d.ind := rfl
@[simp] theorem Dev.setEqx_indGen (d : Dev) (f : Nat) (x : EqX) : (Dev.setEqx d f x).indGen = d.indGen := rfl
@[simp] theorem Dev.setEqx_tap (d : Dev) (f : Nat) (x : EqX) : (Dev.setEqx d f x).tap = d.tap := rfl
@[simp] theorem Dev.setEqx_allocs (d : Dev) (f : Nat) (x : EqX) : (Dev.setEqx d f x).allocs = d.allocs := rfl
@[simp] theorem Dev.setEqx_syncAt (d : Dev) (f : Nat) (x : EqX) : (Dev.setEqx d f x).syncAt = d.syncAt := rfl

/-! ### States -/

@[simp] theorem State.onDev_pending (s : State) (f : Dev → Dev) : (s.onDev f).pending = s.pending := rfl
@[simp] theorem State.onDev_mem (s : State) (f : Dev → Dev) : (s.onDev f).mem = s.mem := rfl
@[simp] theorem State.onDev_memGen (s : State) (f : Dev → Dev) : (s.onDev f).memGen = s.memGen := rfl
@[simp] theorem State.onDev_nv (s : State) (f : Dev → Dev) : (s.onDev f).nv = s.nv := rfl
@[simp] theorem State.onDev_dev (s : State) (f : Dev → Dev) : (s.onDev f).dev = f s.dev := rfl
@[simp] theorem State.store_pending (s : State) (a : Nat) (bs : List Byte) : (s.store a bs).pending = s.pending := rfl
@[simp] theorem State.store_memGen (s : State) (a : Nat) (bs : List Byte) : (s.store a bs).memGen = s.memGen := rfl
@[simp] theorem State.store_nv (s : State) (a : Nat) (bs : List Byte) : (s.store a bs).nv = s.nv := rfl
@[simp] theorem State.store_dev (s : State) (a : Nat) (bs : List Byte) : (s.store a bs).dev = s.dev := rfl

@[simp] theorem emit_out (d : Dev) (o : Out) : (emit d o).out = d.out ++ [o] := rfl
@[simp] theorem ok_eq (s : State) : ok s = .next s := rfl

end Sys2Proof.Machine
end

