-- ==== Sys2Proof/Laws/Bus.lean ====
section
/-! SUPPORT. What the event system, the counters and the rings can touch: the core of the device stays, and so does every
register outside the pages they own. -/

namespace Sys2Proof.Machine

/-! ### Registers -/

@[simp] theorem reg_setReg_same (d : Dev) (a : Nat) (v : Word) : reg (setReg d a v) a = v := by
  simp [reg, setReg]

theorem reg_setReg_other (d : Dev) {a b : Nat} (v : Word) (h : b ≠ a) : reg (setReg d a v) b = reg d b := by
  simp [reg, setReg, Tab.get_set_other _ _ _ h]

theorem reg_setReg (d : Dev) (a b : Nat) (v : Word) : reg (setReg d a v) b = if b = a then v else reg d b := by
  by_cases h : b = a
  · subst h; simp
  · simp [h, reg_setReg_other d v h]

theorem reg_setRegFld_other (d : Dev) {a b : Nat} (hi lo v : Nat) (h : b ≠ a) : reg (setRegFld d a hi lo v) b = reg d b :=
  reg_setReg_other d _ h

theorem reg_setRegBit_other (d : Dev) {a b : Nat} (i : Nat) (v : Bool) (h : b ≠ a) : reg (setRegBit d a i v) b = reg d b :=
  reg_setReg_other d _ h

theorem reg_incErrBy_other (d : Dev) {a b : Nat} (n : Nat) (h : b ≠ a) : reg (incErrBy d a n) b = reg d b := by
  unfold incErrBy; split
  · rfl
  · exact reg_setReg_other d _ h

theorem reg_incErr_other (d : Dev) {a b : Nat} (h : b ≠ a) : reg (incErr d a) b = reg d b := reg_incErrBy_other d 1 h

/-! ### The core -/

@[simp] theorem core_setReg (d : Dev) (a : Nat) (v : Word) : (setReg d a v).core = d.core := rfl
@[simp] theorem core_setRegFld (d : Dev) (a hi lo v : Nat) : (setRegFld d a hi lo v).core = d.core := rfl
@[simp] theorem core_setRegBit (d : Dev) (a i : Nat) (v : Bool) : (setRegBit d a i v).core = d.core := rfl
@[simp] theorem core_emit (d : Dev) (o : Out) : (emit d o).core = d.core := rfl
@[simp] theorem core_setEqx (d : Dev) (f : Nat) (x : EqX) : (d.setEqx f x).core = d.core := rfl
@[simp] theorem core_setActive (d : Dev) (s f : Nat) : (setActive d s f).core = d.core := rfl
@[simp] theorem core_incErrBy (d : Dev) (a n : Nat) : (incErrBy d a n).core = d.core := by unfold incErrBy; split <;> rfl
@[simp] theorem core_incErr (d : Dev) (a : Nat) : (incErr d a).core = d.core := core_incErrBy d a 1

theorem core_limited (d : Dev) (key i : Nat) (f : Dev → Dev) (h : ∀ d, (f d).core = d.core) :
    (limited d key i f).core = d.core := by
  unfold limited; dsimp only; split
  · rw [h]; rfl
  · rfl

@[simp] theorem core_sendVector0 (d : Dev) (f : Nat) : (sendVector0 d f).core = d.core := rfl

@[simp] theorem core_coalesce (d : Dev) (f n : Nat) : (coalesce d f n).core = d.core := by
  unfold coalesce; dsimp only
  simp only [apply_ite Dev.core, core_sendVector0, core_setEqx, ite_self]

/-- What an effect that raises an event can touch. -/
def Mild (again : Dev → Nat → Nat → Nat → Nat → Dev) : Prop := ∀ d s c x y, (again d s c x y).core = d.core

theorem core_fastPut {again : Dev → Nat → Nat → Nat → Nat → Dev} (h : Mild again) (d : Dev) (f : Nat) (w0 w1 : Word) :
    (fastPut again d f w0 w1).core = d.core := by
  unfold fastPut; split
  · rw [core_emit, core_setReg, core_setReg, core_setRegBit]
  · simp only [core_emit]
    rw [core_limited _ _ _ _ fun d => h d _ _ _ _, core_incErr]

theorem core_queuePut {again : Dev → Nat → Nat → Nat → Nat → Dev} (h : Mild again) (d : Dev) (f : Nat) (w0 w1 : Word) :
    (queuePut again d f w0 w1).core = d.core := by
  unfold queuePut; dsimp only; split
  · split
    · rw [h, core_setEqx, core_incErr]
    · rw [core_setEqx, core_incErr]
  · rw [core_coalesce, core_setEqx, core_setReg, core_emit]

@[simp] theorem core_meetFast (d : Dev) (s : Nat) : (meetFast d s).core = d.core := by unfold meetFast; split <;> rfl

theorem core_postWith {again : Dev → Nat → Nat → Nat → Nat → Dev} (h : Mild again) (d : Dev) (f s c x y : Nat) (tw : Word)
    (m w : Bool) : (postWith again d f s c x y tw m w).core = d.core := by
  unfold postWith; dsimp only; split
  · rw [core_meetFast, core_fastPut h, core_queuePut h]
  · rw [core_queuePut h]

theorem core_happenN (n : Nat) : Mild (happenN n) := by
  induction n with
  | zero => intro d s c x y; rfl
  | succ n ih =>
    intro d s c x y
    unfold happenN
    split
    · rfl
    · split
      · split
        · rfl
        · rw [core_postWith ih, core_setActive]
      · rw [core_postWith ih]

@[simp] theorem core_raise (d : Dev) (s c x y : Nat) : (raise d s c x y).core = d.core := core_happenN 3 d s c x y

@[simp] theorem core_post (d : Dev) (f s c x y : Nat) (tw : Word) (m w : Bool) : (post d f s c x y tw m w).core = d.core :=
  core_postWith (core_happenN 2) d f s c x y tw m w

@[simp] theorem core_raiseLim (d : Dev) (i s c x y : Nat) : (raiseLim d i s c x y).core = d.core :=
  core_limited d _ i _ fun d => core_raise d s c x y

@[simp] theorem core_edge (d : Dev) (s : Nat) (b : Bool) (x y : Nat) : (edge d s b x y).core = d.core := by
  unfold edge; dsimp only
  repeat' split
  all_goals first | rfl | (rw [core_post, core_setActive]) | rw [core_post]

@[simp] theorem core_incStat (d : Dev) (a n src subj off : Nat) : (incStat d a n src subj off).core = d.core := by
  unfold incStat; split
  · rw [core_raise, core_setReg]
  · rfl

@[simp] theorem core_ringDoorbell (d : Dev) (p : Pkt) : (ringDoorbell d p).core = d.core := by
  unfold ringDoorbell; split <;> rfl

@[simp] theorem core_takeFromRing (d : Dev) (p : Pkt) : (takeFromRing d p).core = d.core := by
  unfold takeFromRing; dsimp only
  simp only [apply_ite Dev.core, core_incStat, core_setRegFld, ite_self]

@[simp] theorem core_reply (d : Dev) (fn : Nat) (hdr : Word) (tag : Option Nat) (st : Nat) (rs : List Word) (t : Nat)
    (r : Bool) : (reply d fn hdr tag st rs t r).core = d.core := by
  unfold reply
  extract_lets
  split
  · rfl
  · split
    · rw [core_emit]
    · split
      · rfl
      · rw [apply_ite Dev.core, core_raise, core_setReg, core_emit, ite_self]

/-! ### Registers outside the pages the event system and the rings own -/

/-- What an effect that raises an event leaves of the registers. -/
def MildRegs (again : Dev → Nat → Nat → Nat → Nat → Dev) : Prop :=
  ∀ d s c x y a, ¬ eventPage a → reg (again d s c x y) a = reg d a

theorem rEq_page {f off a : Nat} (hf : f ≤ 192) (ho : off < 0x400) (ha : ¬ eventPage a) : a ≠ rEq f off := by
  unfold eventPage at ha; unfold rEq; omega

theorem fastSlot_lt {d : Dev} {f k : Nat} (h : fastSlot d f = some k) : k < 16 := by
  unfold fastSlot at h
  have := List.mem_of_find?_eq_some h
  simpa using this

theorem reg_coalesce (d : Dev) (f n a : Nat) : reg (coalesce d f n) a = reg d a := by
  unfold coalesce; dsimp only
  have h1 : ∀ (d : Dev) (x : EqX), reg (d.setEqx f x) a = reg d a := fun _ _ => rfl
  have h2 : ∀ (d : Dev), reg (sendVector0 d f) a = reg d a := fun _ => rfl
  simp only [apply_ite (fun d => reg d a), h1, h2, ite_self]

theorem reg_limited (d : Dev) (key i : Nat) (f : Dev → Dev) (a : Nat) (h : ∀ d, reg (f d) a = reg d a) :
    reg (limited d key i f) a = reg d a := by
  unfold limited; dsimp only; split
  · rw [h]; rfl
  · rfl

theorem reg_fastPut {again : Dev → Nat → Nat → Nat → Nat → Dev} (h : MildRegs again) (d : Dev) {f : Nat} (hf : f ≤ 192)
    (w0 w1 : Word) {a : Nat} (ha : ¬ eventPage a) : reg (fastPut again d f w0 w1) a = reg d a := by
  unfold fastPut; split
  · next k hk =>
    have := fastSlot_lt hk
    show reg (setReg _ _ _) a = _
    rw [reg_setReg_other _ _ (rEq_page hf (by unfold oFastRec; omega) ha),
      reg_setReg_other _ _ (rEq_page hf (by unfold oFastRec; omega) ha),
      reg_setRegBit_other _ _ _ (rEq_page hf (by decide) ha)]
  · show reg (limited _ _ _ _) a = _
    rw [reg_limited _ _ _ _ _ fun d => h d _ _ _ _ _ ha, reg_incErr_other _ (rEq_page hf (by decide) ha)]

theorem reg_queuePut {again : Dev → Nat → Nat → Nat → Nat → Dev} (h : MildRegs again) (d : Dev) {f : Nat} (hf : f ≤ 192)
    (w0 w1 : Word) {a : Nat} (ha : ¬ eventPage a) : reg (queuePut again d f w0 w1) a = reg d a := by
  have h1 : ∀ (d : Dev) (f : Nat) (x : EqX), reg (d.setEqx f x) a = reg d a := fun _ _ _ => rfl
  have h2 : ∀ (d : Dev) (o : Out), reg (emit d o) a = reg d a := fun _ _ => rfl
  unfold queuePut; dsimp only; split
  · split
    · rw [h _ _ _ _ _ _ ha, h1, reg_incErr_other _ (rEq_page hf (by decide) ha)]
    · rw [h1, reg_incErr_other _ (rEq_page hf (by decide) ha)]
  · rw [reg_coalesce, h1, reg_setReg_other _ _ (rEq_page hf (by decide) ha), h2]

@[simp] theorem reg_meetFast (d : Dev) (s a : Nat) : reg (meetFast d s) a = reg d a := by unfold meetFast; split <;> rfl

theorem reg_postWith {again : Dev → Nat → Nat → Nat → Nat → Dev} (h : MildRegs again) (d : Dev) {f : Nat} (hf : f ≤ 192)
    (s c x y : Nat) (tw : Word) (m w : Bool) {a : Nat} (ha : ¬ eventPage a) :
    reg (postWith again d f s c x y tw m w) a = reg d a := by
  unfold postWith; dsimp only; split
  · rw [reg_meetFast, reg_fastPut h _ hf _ _ ha, reg_queuePut h _ hf _ _ ha]
  · rw [reg_queuePut h _ hf _ _ ha]

theorem srcFn_le (d : Dev) (s subj : Nat) : srcFn d s subj ≤ 192 := by
  unfold srcFn; split <;> omega

theorem reg_happenN (n : Nat) : MildRegs (happenN n) := by
  induction n with
  | zero => intro d s c x y a _; rfl
  | succ n ih =>
    intro d s c x y a ha
    unfold happenN
    split
    · rfl
    · split
      · split
        · rfl
        · rw [reg_postWith ih _ (srcFn_le d s x) _ _ _ _ _ _ _ ha]; rfl
      · rw [reg_postWith ih _ (srcFn_le d s x) _ _ _ _ _ _ _ ha]

theorem reg_raise (d : Dev) (s c x y : Nat) {a : Nat} (ha : ¬ eventPage a) : reg (raise d s c x y) a = reg d a :=
  reg_happenN 3 d s c x y a ha

theorem reg_raiseLim (d : Dev) (i s c x y : Nat) {a : Nat} (ha : ¬ eventPage a) : reg (raiseLim d i s c x y) a = reg d a :=
  reg_limited d _ i _ a fun d => reg_raise d s c x y ha

theorem reg_post (d : Dev) {f : Nat} (hf : f ≤ 192) (s c x y : Nat) (tw : Word) (m w : Bool) {a : Nat} (ha : ¬ eventPage a) :
    reg (post d f s c x y tw m w) a = reg d a :=
  reg_postWith (reg_happenN 2) d hf s c x y tw m w ha

theorem reg_edge (d : Dev) (s : Nat) (b : Bool) (x y : Nat) {a : Nat} (ha : ¬ eventPage a) :
    reg (edge d s b x y) a = reg d a := by
  unfold edge; dsimp only
  repeat' split
  all_goals first
    | rfl
    | (rw [reg_post _ (srcFn_le d s x) _ _ _ _ _ _ _ ha]; done)
    | (rw [reg_post _ (srcFn_le d s x) _ _ _ _ _ _ _ ha]; rfl)

theorem reg_incStat_other (d : Dev) {a : Nat} (n src subj off : Nat) {b : Nat} (hb : ¬ eventPage b) (h : b ≠ a) :
    reg (incStat d a n src subj off) b = reg d b := by
  unfold incStat; split
  · rw [reg_raise _ _ _ _ _ hb, reg_setReg_other _ _ h]
  · rw [reg_setReg_other _ _ h]

theorem rRing_page {f off a : Nat} (hf : f ≤ 192) (ho : off < 0x1000) (ha : ¬ ringPage a) : a ≠ rRing f off := by
  unfold ringPage at ha; unfold rRing; omega

/-- Submitting and taking a packet moves registers of its ring page and of event-queue pages alone. -/
theorem sameRegs_taken (d : Dev) (p : Pkt) (hf : p.fn ≤ 192) : sameRegs d (takeFromRing (ringDoorbell d p) p) := by
  intro a he hr
  have ht : a ≠ rRing p.fn oSqTail := rRing_page hf (by decide) hr
  have hh : a ≠ rRing p.fn oSqHead := rRing_page hf (by decide) hr
  have hk : a ≠ rRing p.fn oRingTaken := rRing_page hf (by decide) hr
  unfold takeFromRing ringDoorbell; dsimp only
  split
  · rfl
  · rw [reg_incStat_other _ _ _ _ _ he hk, reg_setRegFld_other _ _ _ _ hh, reg_setRegFld_other _ _ _ _ ht]

/-- So does writing a reply. -/
theorem sameRegs_reply (d : Dev) (fn : Nat) (hf : fn ≤ 192) (hdr : Word) (tag : Option Nat) (st : Nat) (rs : List Word) (t : Nat)
    (r : Bool) : sameRegs d (reply d fn hdr tag st rs t r) := by
  intro a he hr
  have hp : a ≠ rRing fn oCqTail := rRing_page hf (by decide) hr
  have h1 : ∀ (d : Dev) (o : Out), reg (emit d o) a = reg d a := fun _ _ => rfl
  unfold reply; dsimp only
  simp only [apply_ite (fun d => reg d a), reg_raise _ _ _ _ _ he, reg_setReg_other _ _ hp, h1, ite_self]

end Sys2Proof.Machine
end

