-- ==== Sys2Proof/Laws/Intake.lean ====
section
/-! SUPPORT. Taking a packet as soon as it is submitted, once for every command: what the state is when its operation runs,
and what the whole command answers. -/

namespace Sys2Proof.Machine

/-! ### What equal cores share -/

theorem Dev.now_of_core {d d' : Dev} (h : d'.core = d.core) : d'.now = d.now := (congrArg Dev.now h :)
theorem Dev.upTime_of_core {d d' : Dev} (h : d'.core = d.core) : d'.upTime = d.upTime := (congrArg Dev.upTime h :)
theorem Dev.freeCtr_of_core {d d' : Dev} (h : d'.core = d.core) : d'.freeCtr = d.freeCtr := (congrArg Dev.freeCtr h :)
theorem Dev.acc_of_core {d d' : Dev} (h : d'.core = d.core) : d'.acc = d.acc := (congrArg Dev.acc h :)
theorem Dev.accStd_of_core {d d' : Dev} (h : d'.core = d.core) : d'.accStd = d.accStd := (congrArg Dev.accStd h :)
theorem Dev.shadow_of_core {d d' : Dev} (h : d'.core = d.core) : d'.shadow = d.shadow := (congrArg Dev.shadow h :)
theorem Dev.captured_of_core {d d' : Dev} (h : d'.core = d.core) : d'.captured = d.captured := (congrArg Dev.captured h :)
theorem Dev.snaps_of_core {d d' : Dev} (h : d'.core = d.core) : d'.snaps = d.snaps := (congrArg Dev.snaps h :)
theorem Dev.streams_of_core {d d' : Dev} (h : d'.core = d.core) : d'.streams = d.streams := (congrArg Dev.streams h :)
theorem Dev.sOwner_of_core {d d' : Dev} (h : d'.core = d.core) : d'.sOwner = d.sOwner := (congrArg Dev.sOwner h :)
theorem Dev.ctxs_of_core {d d' : Dev} (h : d'.core = d.core) : d'.ctxs = d.ctxs := (congrArg Dev.ctxs h :)
theorem Dev.cOwner_of_core {d d' : Dev} (h : d'.core = d.core) : d'.cOwner = d.cOwner := (congrArg Dev.cOwner h :)
theorem Dev.gals_of_core {d d' : Dev} (h : d'.core = d.core) : d'.gals = d.gals := (congrArg Dev.gals h :)
theorem Dev.chans_of_core {d d' : Dev} (h : d'.core = d.core) : d'.chans = d.chans := (congrArg Dev.chans h :)
theorem Dev.recips_of_core {d d' : Dev} (h : d'.core = d.core) : d'.recips = d.recips := (congrArg Dev.recips h :)
theorem Dev.keys_of_core {d d' : Dev} (h : d'.core = d.core) : d'.keys = d.keys := (congrArg Dev.keys h :)
theorem Dev.keks_of_core {d d' : Dev} (h : d'.core = d.core) : d'.keks = d.keks := (congrArg Dev.keks h :)
theorem Dev.mouth_of_core {d d' : Dev} (h : d'.core = d.core) : d'.mouth = d.mouth := (congrArg Dev.mouth h :)
theorem Dev.rings_of_core {d d' : Dev} (h : d'.core = d.core) : d'.rings = d.rings := (congrArg Dev.rings h :)
theorem Dev.submitted_of_core {d d' : Dev} (h : d'.core = d.core) : d'.submitted = d.submitted := (congrArg Dev.submitted h :)
theorem Dev.flt_of_core {d d' : Dev} (h : d'.core = d.core) : d'.flt = d.flt := (congrArg Dev.flt h :)
theorem Dev.roost_of_core {d d' : Dev} (h : d'.core = d.core) : d'.roost = d.roost := (congrArg Dev.roost h :)
theorem Dev.pwr_of_core {d d' : Dev} (h : d'.core = d.core) : d'.pwr = d.pwr := (congrArg Dev.pwr h :)
theorem Dev.cal_of_core {d d' : Dev} (h : d'.core = d.core) : d'.cal = d.cal := (congrArg Dev.cal h :)
theorem Dev.boot_of_core {d d' : Dev} (h : d'.core = d.core) : d'.boot = d.boot := (congrArg Dev.boot h :)
theorem Dev.guide_of_core {d d' : Dev} (h : d'.core = d.core) : d'.guide = d.guide := (congrArg Dev.guide h :)
theorem Dev.fleet_of_core {d d' : Dev} (h : d'.core = d.core) : d'.fleet = d.fleet := (congrArg Dev.fleet h :)
theorem Dev.ptp_of_core {d d' : Dev} (h : d'.core = d.core) : d'.ptp = d.ptp := (congrArg Dev.ptp h :)
theorem Dev.memc_of_core {d d' : Dev} (h : d'.core = d.core) : d'.memc = d.memc := (congrArg Dev.memc h :)
theorem Dev.ind_of_core {d d' : Dev} (h : d'.core = d.core) : d'.ind = d.ind := (congrArg Dev.ind h :)
theorem Dev.indGen_of_core {d d' : Dev} (h : d'.core = d.core) : d'.indGen = d.indGen := (congrArg Dev.indGen h :)
theorem Dev.tap_of_core {d d' : Dev} (h : d'.core = d.core) : d'.tap = d.tap := (congrArg Dev.tap h :)
theorem Dev.allocs_of_core {d d' : Dev} (h : d'.core = d.core) : d'.allocs = d.allocs := (congrArg Dev.allocs h :)
theorem Dev.syncAt_of_core {d d' : Dev} (h : d'.core = d.core) : d'.syncAt = d.syncAt := (congrArg Dev.syncAt h :)

theorem Dev.stream_of_core {d d' : Dev} (h : d'.core = d.core) (n : Nat) : d'.stream n = d.stream n := by
  rw [Dev.stream, Dev.stream, Dev.streams_of_core h]

theorem Dev.ctx_of_core {d d' : Dev} (h : d'.core = d.core) (c : Nat) : d'.ctx c = d.ctx c := by
  rw [Dev.ctx, Dev.ctx, Dev.ctxs_of_core h]

theorem Dev.recip_of_core {d d' : Dev} (h : d'.core = d.core) (r : Nat) : d'.recip r = d.recip r := by
  rw [Dev.recip, Dev.recip, Dev.recips_of_core h]

theorem Dev.key_of_core {d d' : Dev} (h : d'.core = d.core) (k : Nat) : d'.key k = d.key k := by
  rw [Dev.key, Dev.key, Dev.keys_of_core h]

theorem Dev.streamOwner_of_core {d d' : Dev} (h : d'.core = d.core) (n : Nat) : d'.streamOwner n = d.streamOwner n := by
  rw [Dev.streamOwner, Dev.streamOwner, Dev.sOwner_of_core h]

theorem Dev.ctxOwner_of_core {d d' : Dev} (h : d'.core = d.core) (c : Nat) : d'.ctxOwner c = d.ctxOwner c := by
  rw [Dev.ctxOwner, Dev.ctxOwner, Dev.cOwner_of_core h]

/-! ### Taking a packet -/

theorem core_taken (p : Pkt) (s : State) : (taken p s).dev.core = s.dev.core := by
  show (takeFromRing (ringDoorbell s.dev p) p).core = _
  rw [core_takeFromRing, core_ringDoorbell]

theorem reg_taken (p : Pkt) (s : State) (hf : p.fn ≤ 192) {a : Nat} (he : ¬ eventPage a) (hr : ¬ ringPage a) :
    reg (taken p s).dev a = reg s.dev a := sameRegs_taken s.dev p hf a he hr

@[simp] theorem mem_taken (p : Pkt) (s : State) : (taken p s).mem = s.mem := rfl
@[simp] theorem memGen_taken (p : Pkt) (s : State) : (taken p s).memGen = s.memGen := rfl
@[simp] theorem nv_taken (p : Pkt) (s : State) : (taken p s).nv = s.nv := rfl
@[simp] theorem pending_taken (p : Pkt) (s : State) : (taken p s).pending = s.pending := rfl
@[simp] theorem mem_answered (p : Pkt) (s : State) (st : Nat) (rs : List Word) (t : Nat) : (answered p s st rs t).mem = s.mem := rfl
@[simp] theorem memGen_answered (p : Pkt) (s : State) (st : Nat) (rs : List Word) (t : Nat) :
    (answered p s st rs t).memGen = s.memGen := rfl
@[simp] theorem nv_answered (p : Pkt) (s : State) (st : Nat) (rs : List Word) (t : Nat) : (answered p s st rs t).nv = s.nv := rfl
@[simp] theorem pending_answered (p : Pkt) (s : State) (st : Nat) (rs : List Word) (t : Nat) :
    (answered p s st rs t).pending = s.pending := rfl

theorem core_answered (p : Pkt) (s : State) (st : Nat) (rs : List Word) (t : Nat) :
    (answered p s st rs t).dev.core = s.dev.core := core_reply ..

theorem sameRegs_answered (p : Pkt) (s : State) (st : Nat) (rs : List Word) (t : Nat) (hf : p.fn ≤ 192) :
    sameRegs s.dev (answered p s st rs t).dev := sameRegs_reply s.dev p.fn hf p.hdr p.tag st rs t false

theorem bootPage_event : ¬ eventPage rBootStatus := by unfold eventPage rBootStatus; omega
theorem bootPage_ring : ¬ ringPage rBootStatus := by unfold ringPage rBootStatus; omega

/-- Whether the device is READY, and whether it is stopped, rest on the core and on `BOOT_STATUS`. -/
theorem ready_taken (p : Pkt) (s : State) (hf : p.fn ≤ 192) : ready (taken p s).dev = ready s.dev := by
  unfold ready alive bootState regFld
  rw [reg_taken p s hf bootPage_event bootPage_ring, Dev.pwr_of_core (core_taken p s)]

theorem stopped_taken (p : Pkt) (s : State) (hf : p.fn ≤ 192) : stopped (taken p s).dev = stopped s.dev := by
  unfold stopped bootState regFld
  rw [reg_taken p s hf bootPage_event bootPage_ring]

theorem reg_ringDoorbell_other (d : Dev) (p : Pkt) {a : Nat} (h : a ≠ rRing p.fn oSqTail) : reg (ringDoorbell d p) a = reg d a := by
  unfold ringDoorbell; split
  · rfl
  · exact reg_setRegFld_other _ _ _ _ h

theorem takeable_ringDoorbell (d : Dev) (p : Pkt) : takeable (ringDoorbell d p) p = takeable d p := by
  have hc := core_ringDoorbell d p
  unfold takeable streamMoving cqRoom cqUsed ringEnabled ringHalted outstandingOf regBit regFld
  rw [Dev.rings_of_core hc, Dev.guide_of_core hc, Dev.stream_of_core hc]
  simp only [reg_ringDoorbell_other d p (show rRing p.fn oRingCtrl ≠ rRing p.fn oSqTail by unfold rRing oRingCtrl oSqTail; omega),
    reg_ringDoorbell_other d p (show rRing p.fn oRingStatus ≠ rRing p.fn oSqTail by unfold rRing oRingStatus oSqTail; omega),
    reg_ringDoorbell_other d p (show rRing p.fn oCqSize ≠ rRing p.fn oSqTail by unfold rRing oCqSize oSqTail; omega),
    reg_ringDoorbell_other d p (show rRing p.fn oCqTail ≠ rRing p.fn oSqTail by unfold rRing oCqTail oSqTail; omega),
    reg_ringDoorbell_other d p (show rRing p.fn oCqHead ≠ rRing p.fn oSqTail by unfold rRing oCqHead oSqTail; omega)]

/-- A packet that is taken as soon as it is submitted runs its operation on the state in which it has been taken. -/
theorem submit_now (op : State → Pkt → State × Answer) (p : Pkt) (s : State) (h : takesNow p s) :
    submit op p s = takeRun op p (s.onDev fun d => ringDoorbell d p) := by
  obtain ⟨hf, hr, hs, he, ht, hw⟩ := h
  have hn : p.fn ≠ 0xFE := by omega
  have ha : alive s.dev = true := by unfold ready at hr; simp at hr; exact hr.1
  have hc := core_ringDoorbell s.dev p
  unfold submit
  simp only [if_neg hn, ha, he]
  have h2 : takeable (s.onDev fun d => ringDoorbell d p).dev p = true := by
    show takeable (ringDoorbell s.dev p) p = true
    rw [takeable_ringDoorbell]; exact ht
  have h3 : ((s.onDev fun d => ringDoorbell d p).dev.submitted.any fun q => q.fn == p.fn) = false := by
    show ((ringDoorbell s.dev p).submitted.any _) = false
    rw [Dev.submitted_of_core hc]; exact hw
  rw [h2, h3]; simp

theorem notReady_taken (p : Pkt) (s : State) (h : takesNow p s) : notReady (taken p s).dev p = false := by
  obtain ⟨hf, hr, hs, -⟩ := h
  unfold notReady
  rw [stopped_taken p s hf, ready_taken p s hf, hr, hs]; simp

/-- An operation that answers at once. -/
theorem submit_answered {op : State → Pkt → State × Answer} {p : Pkt} {s s' : State} {st t : Nat} {rs : List Word}
    (h : takesNow p s) (hop : op (taken p s) p = (s', .now st rs t)) : submit op p s = answered p s' st rs t := by
  rw [submit_now op p s h]
  unfold takeRun
  show (match (if notReady (taken p s).dev p then refuse (taken p s) p stNotReady else op (taken p s) p).2 with
    | .now st rs tgt => (if notReady (taken p s).dev p then refuse (taken p s) p stNotReady else op (taken p s) p).1.onDev _
    | .later tgt rs => _) = _
  rw [notReady_taken p s h]
  simp only [Bool.false_eq_true, if_false, hop]
  rfl

/-- An operation whose reply comes later. -/
theorem submit_later {op : State → Pkt → State × Answer} {p : Pkt} {s s' : State} {t : Nat} {rs : List Word}
    (h : takesNow p s) (hop : op (taken p s) p = (s', .later t rs)) :
    submit op p s = s'.onDev fun d =>
      { d with rings := d.rings ++ [{ fn := p.fn, hdr := p.hdr, target := t, tag := p.tag, results := rs }] } := by
  rw [submit_now op p s h]
  unfold takeRun
  show (match (if notReady (taken p s).dev p then refuse (taken p s) p stNotReady else op (taken p s) p).2 with
    | .now st rs tgt => _
    | .later tgt rs => (if notReady (taken p s).dev p then refuse (taken p s) p stNotReady else op (taken p s) p).1.onDev _) = _
  rw [notReady_taken p s h]
  simp only [Bool.false_eq_true, if_false, hop]

/-- A command whose refusals all fail. -/
theorem simply_ok {s : State} {p : Pkt} {l : List (Bool × Nat)} {eff : State → State × List Word} (h : firstRefusal l = none) :
    simply s p l eff = ((eff s).1, .now stOk (eff s).2 p.target) := by
  unfold simply; rw [h]; rfl

/-! ### Commands on one stream -/

theorem core_onStream (d : Dev) (n : Nat) (f : Stream → Stream) :
    (d.onStream n f).core = { d.core with streams := (d.onStream n f).streams } := rfl

@[simp] theorem stream_onStream_same (d : Dev) (n : Nat) (f : Stream → Stream) : (d.onStream n f).stream n = f (d.stream n) := by
  simp [Dev.onStream, Dev.setStream, Dev.stream]

theorem stream_onStream_other (d : Dev) {n m : Nat} (f : Stream → Stream) (h : m ≠ n) : (d.onStream n f).stream m = d.stream m := by
  simp [Dev.onStream, Dev.setStream, Dev.stream, Tab.get_set_other _ _ _ h]

theorem sameOutside_taken (p : Pkt) (s : State) (f : Dev → Dev) : sameOutside s ((taken p s).onDev f) := ⟨rfl, rfl, rfl, rfl⟩

theorem sameRegs_trans {a b c : Dev} (h : sameRegs a b) (k : sameRegs b c) : sameRegs a c := fun x he hr => by
  rw [k x he hr, h x he hr]

theorem sameRegs_refl (d : Dev) : sameRegs d d := fun _ _ _ => rfl

/-- An operation whose effect is one change of the target stream. -/
theorem streamEffect_of {i : Instr} {p : Pkt} {s : State} {op : State → Pkt → State × Answer} {rs : List Word}
    {f : Stream → Stream} (hi : exec i s = ok (submit op p s)) (h : takesNow p s)
    (hop : op (taken p s) p = ((taken p s).onDev fun d => d.onStream p.target f, .now stOk rs p.target)) :
    streamEffect i p s rs f := by
  refine ⟨(taken p s).onDev fun d => d.onStream p.target f, ?_, ?_, sameOutside_taken p s _, ?_, ?_, ?_⟩
  · rw [hi, submit_answered h hop]; rfl
  · show (Dev.onStream _ _ _).stream _ = _
    rw [stream_onStream_same, Dev.stream_of_core (core_taken p s)]
  · show (Dev.onStream _ _ _).core = _
    rw [core_onStream, core_taken]; rfl
  · exact sameRegs_taken s.dev p h.1
  · intro m hm
    show (Dev.onStream _ _ _).stream _ = _
    rw [stream_onStream_other _ _ hm, Dev.stream_of_core (core_taken p s)]

/-- An operation that only answers. -/
theorem streamEffect_id {i : Instr} {p : Pkt} {s : State} {op : State → Pkt → State × Answer} {rs : List Word}
    (hi : exec i s = ok (submit op p s)) (h : takesNow p s) (hop : op (taken p s) p = (taken p s, .now stOk rs p.target)) :
    streamEffect i p s rs id := by
  refine ⟨taken p s, ?_, ?_, ⟨rfl, rfl, rfl, rfl⟩, ?_, sameRegs_taken s.dev p h.1, ?_⟩
  · rw [hi, submit_answered h hop]; rfl
  · exact Dev.stream_of_core (core_taken p s) _
  · rw [core_taken, Dev.streams_of_core (core_taken p s)]; rfl
  · exact fun m _ => Dev.stream_of_core (core_taken p s) m

/-- The checks of a command on one stream, in the state in which its packet has been taken. -/
theorem streamRefusals_taken {p : Pkt} {s : State} {count : Nat} (h : streamGo p s count) :
    streamRefusals (taken p s).dev p count = [(false, stBadParam), (false, stDenied), (false, stBadState)] := by
  obtain ⟨h1, h2, h3⟩ := h
  unfold streamRefusals streamOff at *
  rw [Dev.stream_of_core (core_taken p s), Dev.streamOwner_of_core (core_taken p s), h1, h2, h3]

theorem streamQueryRefusals_taken {p : Pkt} {s : State} (h : streamQueryGo p s) :
    streamQueryRefusals (taken p s).dev p = [(false, stBadParam), (false, stDenied)] := by
  obtain ⟨h1, h2⟩ := h
  unfold streamQueryRefusals
  rw [Dev.streamOwner_of_core (core_taken p s), h1, h2]

end Sys2Proof.Machine
end

