-- ==== Sys2Proof/Laws/Memory.lean ====
section
/-! SUPPORT. The laws of device memory: a byte reads as it was written, every other byte stays, and every operation keeps the
canonical form. -/

namespace Sys2Proof.Machine

/-! ### The canonical form -/

/-- The form, said of the head and of the rest. -/
theorem Memory.wf_cons (gen : Nat) (a : Nat) (b : Byte) (r : List Host.Cell) :
    Memory.wf gen ((a, b) :: r) = true ↔
      b ≠ memDflt gen a ∧ a < Config.memBytes ∧ (∀ e ∈ r, a < e.1) ∧ Memory.wf gen r = true := by
  induction r generalizing a b with
  | nil => simp [Memory.wf]
  | cons e r ih =>
    obtain ⟨a', b'⟩ := e
    constructor
    · intro h
      simp only [Memory.wf, Bool.and_eq_true, decide_eq_true_eq] at h
      obtain ⟨⟨⟨h1, h2⟩, h3⟩, h4⟩ := h
      refine ⟨h1, h2, ?_, h4⟩
      intro e he
      rcases List.mem_cons.mp he with rfl | he
      · exact h3
      · exact Nat.lt_trans h3 (((ih a' b').mp h4).2.2.1 e he)
    · rintro ⟨h1, h2, h3, h4⟩
      simp only [Memory.wf, Bool.and_eq_true, decide_eq_true_eq]
      exact ⟨⟨⟨h1, h2⟩, h3 (a', b') (by simp)⟩, h4⟩

theorem Memory.wf_nil (gen : Nat) : Memory.wf gen [] = true := rfl

theorem Tab.mem_of_mem_del {α : Type} (t : Tab α) (k : Nat) {e : Nat × α} (h : e ∈ t.del k) : e ∈ t := by
  induction t with
  | nil => simp [Tab.del] at h
  | cons x r ih =>
    obtain ⟨j, v⟩ := x
    by_cases hj : j = k
    · simp [Tab.del, hj] at h; exact List.mem_cons_of_mem _ (ih h)
    · simp [Tab.del, hj] at h
      rcases h with h | h
      · simp [h]
      · exact List.mem_cons_of_mem _ (ih h)

theorem Tab.mem_ins {α : Type} (t : Tab α) (k : Nat) (v : α) {e : Nat × α} (h : e ∈ t.ins k v) : e = (k, v) ∨ e ∈ t := by
  induction t with
  | nil => simpa [Tab.ins] using h
  | cons x r ih =>
    obtain ⟨j, w⟩ := x
    by_cases hj : j < k
    · simp [Tab.ins, hj] at h
      rcases h with h | h
      · simp [h]
      · rcases ih h with h | h
        · exact Or.inl h
        · exact Or.inr (List.mem_cons_of_mem _ h)
    · simpa [Tab.ins, hj] using h

theorem Memory.wf_del (gen : Nat) (m : List Host.Cell) (a : Nat) (h : Memory.wf gen m = true) :
    Memory.wf gen (Tab.del (α := Byte) m a) = true := by
  induction m with
  | nil => rfl
  | cons e r ih =>
    obtain ⟨j, v⟩ := e
    obtain ⟨h1, h2, h3, h4⟩ := (Memory.wf_cons gen j v r).mp h
    by_cases hj : j = a
    · simpa [Tab.del, hj] using ih h4
    · have hd : Tab.del (α := Byte) ((j, v) :: r) a = (j, v) :: Tab.del (α := Byte) r a := by simp [Tab.del, hj]
      rw [hd]
      exact (Memory.wf_cons gen j v _).mpr ⟨h1, h2, fun e he => h3 e (Tab.mem_of_mem_del (α := Byte) r a he), ih h4⟩

theorem Memory.wf_ins (gen : Nat) (m : List Host.Cell) (a : Nat) (b : Byte) (h : Memory.wf gen m = true)
    (hb : b ≠ memDflt gen a) (ha : a < Config.memBytes) (hn : ∀ e ∈ m, e.1 ≠ a) :
    Memory.wf gen (Tab.ins (α := Byte) m a b) = true := by
  induction m with
  | nil => exact (Memory.wf_cons gen a b []).mpr ⟨hb, ha, by simp, rfl⟩
  | cons e r ih =>
    obtain ⟨j, v⟩ := e
    obtain ⟨h1, h2, h3, h4⟩ := (Memory.wf_cons gen j v r).mp h
    have hj : j ≠ a := hn (j, v) (by simp)
    by_cases hl : j < a
    · have hi : Tab.ins (α := Byte) ((j, v) :: r) a b = (j, v) :: Tab.ins (α := Byte) r a b := by simp [Tab.ins, hl]
      rw [hi]
      refine (Memory.wf_cons gen j v _).mpr ⟨h1, h2, ?_, ih h4 fun e he => hn e (by simp [he])⟩
      intro e he
      rcases Tab.mem_ins (α := Byte) r a b he with rfl | he
      · exact hl
      · exact h3 e he
    · have hi : Tab.ins (α := Byte) ((j, v) :: r) a b = (a, b) :: (j, v) :: r := by simp [Tab.ins, hl]
      rw [hi]
      refine (Memory.wf_cons gen a b _).mpr ⟨hb, ha, ?_, h⟩
      intro e he
      rcases List.mem_cons.mp he with rfl | he
      · exact Nat.lt_of_le_of_ne (Nat.le_of_not_lt hl) (Ne.symm hj)
      · exact Nat.lt_of_le_of_lt (Nat.le_of_not_lt hl) (h3 e he)

/-- A write of one byte keeps the form. -/
theorem memPut_wf (gen : Nat) (m : List Host.Cell) (a : Nat) (b : Byte) (h : Memory.wf gen m = true) :
    Memory.wf gen (memPut gen m a b) = true := by
  unfold memPut
  split
  · next ha =>
    unfold Tab.set
    split
    · exact Memory.wf_del gen m a h
    · next hb => exact Memory.wf_ins gen _ a b (Memory.wf_del gen m a h) hb ha (Tab.not_mem_del (α := Byte) m a)
  · exact h

/-- A write of consecutive bytes keeps the form. -/
theorem memWrite_wf (gen : Nat) (m : List Host.Cell) (a : Nat) (bs : List Byte) (h : Memory.wf gen m = true) :
    Memory.wf gen (memWrite gen m a bs) = true := by
  induction bs generalizing m a with
  | nil => exact h
  | cons b r ih => exact ih _ _ (memPut_wf gen m a b h)

/-- A store keeps the form. -/
theorem State.store_wf (s : State) (a : Nat) (bs : List Byte) (h : Memory.wf s.memGen s.mem = true) :
    Memory.wf (s.store a bs).memGen (s.store a bs).mem = true := memWrite_wf _ _ _ _ h

/-! ### Reading after writing -/

theorem memByte_put_same (gen : Nat) (m : List Host.Cell) (a : Nat) (b : Byte) (ha : a < Config.memBytes) :
    memByte gen (memPut gen m a b) a = b := by
  simp [memByte, memPut, ha]

theorem memByte_put_other (gen : Nat) (m : List Host.Cell) {a i : Nat} (b : Byte) (h : i ≠ a) :
    memByte gen (memPut gen m a b) i = memByte gen m i := by
  unfold memByte memPut
  split
  · exact Tab.get_set_other _ _ _ h
  · rfl

/-- Bytes outside a write stay. -/
theorem memByte_write_outside (gen : Nat) (m : List Host.Cell) (a : Nat) (bs : List Byte) (i : Nat)
    (h : i < a ∨ a + bs.length ≤ i) : memByte gen (memWrite gen m a bs) i = memByte gen m i := by
  induction bs generalizing m a with
  | nil => rfl
  | cons b r ih =>
    simp only [List.length_cons] at h
    rw [memWrite, ih _ _ (by omega), memByte_put_other _ _ _ (by omega)]

/-- Bytes of a write read as written. -/
theorem memByte_write_inside (gen : Nat) (m : List Host.Cell) (a : Nat) (bs : List Byte) (k : Nat) (hk : k < bs.length)
    (h : a + bs.length ≤ Config.memBytes) : memByte gen (memWrite gen m a bs) (a + k) = bs[k] := by
  induction bs generalizing m a k with
  | nil => simp at hk
  | cons b r ih =>
    simp only [List.length_cons] at h hk
    cases k with
    | zero =>
      rw [memWrite, memByte_write_outside _ _ _ _ _ (by omega)]
      simpa using memByte_put_same gen m a b (by omega)
    | succ k =>
      have := ih (memPut gen m a b) (a + 1) k (by omega) (by omega)
      rw [memWrite, show a + (k + 1) = a + 1 + k by omega]
      simpa using this

theorem State.byte_store_outside (s : State) (a : Nat) (bs : List Byte) (i : Nat) (h : i < a ∨ a + bs.length ≤ i) :
    (s.store a bs).byte i = s.byte i := memByte_write_outside _ _ _ _ _ h

theorem State.byte_store_inside (s : State) (a : Nat) (bs : List Byte) (k : Nat) (hk : k < bs.length)
    (h : a + bs.length ≤ Config.memBytes) : (s.store a bs).byte (a + k) = bs[k] := memByte_write_inside _ _ _ _ _ hk h

@[simp] theorem State.onDev_byte (s : State) (f : Dev → Dev) (a : Nat) : (s.onDev f).byte a = s.byte a := rfl

end Sys2Proof.Machine
end

