-- ==== Sys2Proof/Laws/Records.lean ====
section
/-! SUPPORT. What the operations that carry the stream records and the head entries of the FIFOs into device memory can do: once for each,
so that no proof unfolds them. -/

namespace Sys2Proof.Machine

/-! ### Folds and ranges of memory -/

/-- A fold keeps what each of its steps keeps. -/
theorem each_keeps {α β : Type} {P : β → Prop} (f : β → α → β) (h : ∀ b a, P b → P (f b a)) (l : List α) (b : β) (hb : P b) :
    P (each l b f) := by
  induction l generalizing b with
  | nil => exact hb
  | cons a r ih => exact ih _ (h b a hb)

/-- The same, of a property of each step's element. -/
theorem each_keeps_mem {α β : Type} {P : β → Prop} (f : β → α → β) (l : List α) (h : ∀ b, ∀ a ∈ l, P b → P (f b a)) (b : β) (hb : P b) :
    P (each l b f) := by
  induction l generalizing b with
  | nil => exact hb
  | cons a r ih =>
    exact ih (fun c x hx => h c x (List.mem_cons_of_mem _ hx)) _ (h b a List.mem_cons_self hb)

theorem onlyBytes_refl (lo hi : Nat) (s : State) : onlyBytes lo hi s s := ⟨rfl, rfl, rfl, fun _ _ => rfl⟩

theorem onlyBytes_trans {lo hi : Nat} {a b c : State} (h : onlyBytes lo hi a b) (k : onlyBytes lo hi b c) : onlyBytes lo hi a c :=
  ⟨k.1.trans h.1, k.2.1.trans h.2.1, k.2.2.1.trans h.2.2.1, fun i hi => (k.2.2.2 i hi).trans (h.2.2.2 i hi)⟩

theorem onlyBytes_wider {lo hi lo' hi' : Nat} {s t : State} (h : onlyBytes lo hi s t) (h1 : lo' ≤ lo) (h2 : hi ≤ hi') :
    onlyBytes lo' hi' s t :=
  ⟨h.1, h.2.1, h.2.2.1, fun i hi => h.2.2.2 i (by omega)⟩

theorem onlyBytes_onDev (lo hi : Nat) (s : State) (f : Dev → Dev) : onlyBytes lo hi s (s.onDev f) := ⟨rfl, rfl, rfl, fun _ _ => rfl⟩

/-- An address that is not backed takes no write. -/
theorem memByte_write_unbacked (gen : Nat) (m : List Host.Cell) (a : Nat) (bs : List Byte) (i : Nat) (h : Config.memBytes ≤ i) :
    memByte gen (memWrite gen m a bs) i = memByte gen m i := by
  induction bs generalizing m a with
  | nil => rfl
  | cons b r ih =>
    rw [memWrite, ih]
    by_cases hai : i = a
    · subst hai; unfold memPut; rw [if_neg (by omega)]
    · exact memByte_put_other _ _ _ hai

theorem onlyBytes_store {lo hi : Nat} (s : State) (a : Nat) (bs : List Byte) (h1 : lo ≤ a) (h2 : a + bs.length ≤ hi) :
    onlyBytes lo hi s (s.store a bs) :=
  ⟨rfl, rfl, rfl, fun _ hi => State.byte_store_outside _ _ _ _ (by omega)⟩

/-- A store from `lo` on, however long, moves no byte below `lo` and none that is not backed. -/
theorem onlyBytes_store_up {lo : Nat} (s : State) (a : Nat) (bs : List Byte) (h : lo ≤ a) :
    onlyBytes lo Config.memBytes s (s.store a bs) := by
  refine ⟨rfl, rfl, rfl, fun i hi => ?_⟩
  rcases hi with hi | hi
  · exact State.byte_store_outside _ _ _ _ (.inl (by omega))
  · exact memByte_write_unbacked _ _ _ _ _ hi

/-! ### Stream records (R228) -/

/-- A state that takes its memory alone from another. -/
theorem withMem_dev (s : State) (m : List Host.Cell) : ({ s with mem := m } : State).dev = s.dev := rfl

theorem withMem_onlyOutputs {s t : State} (h : onlyOutputs s t) : onlyOutputs s { s with mem := t.mem } := by
  refine ⟨rfl, rfl, rfl, fun a ha => ?_⟩
  have h4 := h.2.2.2 a ha
  unfold State.byte at h4 ⊢
  rw [h.2.1] at h4
  exact h4

theorem withMem_wf {s t : State} (h : t.memOk) (hg : t.memGen = s.memGen) : ({ s with mem := t.mem } : State).memOk := by
  unfold State.memOk at h ⊢
  rw [hg] at h
  exact h

@[simp] theorem storeBoth_dev (s : State) (n a : Nat) (bs : List Byte) : (storeBoth s n a bs).dev = s.dev := rfl
@[simp] theorem storeBoth_memGen (s : State) (n a : Nat) (bs : List Byte) : (storeBoth s n a bs).memGen = s.memGen := rfl
@[simp] theorem storeStart_dev (s : State) (n seq : Nat) : (storeStart s n seq).dev = s.dev :=
  withMem_dev s (storeBoth s n (seq % 8 * 0x600) (startBytes (s.dev.stream n) seq)).mem
@[simp] theorem syncRecords_dev (d : Dev) (s : State) : (syncRecords d s).dev = s.dev := rfl
@[simp] theorem syncRecords_pending (d : Dev) (s : State) : (syncRecords d s).pending = s.pending := rfl
@[simp] theorem syncRecords_memGen (d : Dev) (s : State) : (syncRecords d s).memGen = s.memGen := rfl
@[simp] theorem syncRecords_nv (d : Dev) (s : State) : (syncRecords d s).nv = s.nv := rfl
@[simp] theorem keepRecords_dev (f : State → State) (s : State) : (keepRecords f s).dev = (f s).dev := rfl
@[simp] theorem keepRecords_pending (f : State → State) (s : State) : (keepRecords f s).pending = (f s).pending := rfl
@[simp] theorem keepRecords_memGen (f : State → State) (s : State) : (keepRecords f s).memGen = (f s).memGen := rfl
@[simp] theorem keepRecords_nv (f : State → State) (s : State) : (keepRecords f s).nv = (f s).nv := rfl

theorem storeBoth_wf (s : State) (n a : Nat) (bs : List Byte) (h : s.memOk) : (storeBoth s n a bs).memOk :=
  State.store_wf _ _ _ (State.store_wf _ _ _ h)

/-- The two copies of a record lie in the mirror region. -/
theorem storeBoth_onlyOutputs (s : State) (n a : Nat) (bs : List Byte) : onlyOutputs s (storeBoth s n a bs) :=
  onlyBytes_trans (onlyBytes_store_up s _ bs (by omega)) (onlyBytes_store_up _ _ bs (by omega))

/-- What one record's update keeps, whatever it writes. -/
theorem syncRecord_keeps {P : State → Prop} (h : ∀ s n a bs, P s → P (storeBoth s n a bs)) (old : Dev) (s : State) (n : Nat) (hs : P s) :
    P (syncRecord old s n) := by
  have h1 : P (syncImages (old.stream n) s n) := each_keeps _ (fun b i hb => h b n _ _ hb) _ _ hs
  have h2 : P (syncVerified (old.stream n) (syncImages (old.stream n) s n) n) := by
    unfold syncVerified; split
    · exact h1
    · exact h _ _ _ _ h1
  unfold syncRecord; split
  · unfold clearRecord
    apply h; apply h
    exact each_keeps (P := P) _ (fun b i hb => h b n _ _ hb) _ _ hs
  · have put : ∀ {c : Prop} [Decidable c] (t : State) (a : Nat) (bs : List Byte), P t → P (if c then t else storeBoth t n a bs) := by
      intro c _ t a bs ht; split
      · exact ht
      · exact h _ _ _ _ ht
    exact put _ _ _ (put _ _ _ h2)

theorem storeStart_onlyOutputs (s : State) (n seq : Nat) : onlyOutputs s (storeStart s n seq) :=
  withMem_onlyOutputs (storeBoth_onlyOutputs s n (seq % 8 * 0x600) (startBytes (s.dev.stream n) seq))

theorem storeStart_wf (s : State) (n seq : Nat) (h : s.memOk) : (storeStart s n seq).memOk :=
  withMem_wf (storeBoth_wf s n (seq % 8 * 0x600) (startBytes (s.dev.stream n) seq) h) (storeBoth_memGen s n _ _)

/-- Bringing the records up to date touches device memory alone, from the FIFO region up. -/
theorem syncRecords_onlyOutputs (old : Dev) (s : State) : onlyOutputs s (syncRecords old s) := by
  have h : onlyOutputs s (each (recordsOf old s.dev) s (syncRecord old)) :=
    each_keeps (P := onlyOutputs s) _ (fun b n hb =>
      syncRecord_keeps (P := onlyOutputs s) (fun t m a bs ht => onlyBytes_trans ht (storeBoth_onlyOutputs t m a bs)) old b n hb) _ _ (onlyBytes_refl _ _ s)
  exact withMem_onlyOutputs h

theorem syncRecords_wf (old : Dev) (s : State) (h : s.memOk) : (syncRecords old s).memOk := by
  have hp : (fun t : State => t.memOk ∧ t.memGen = s.memGen) (each (recordsOf old s.dev) s (syncRecord old)) :=
    each_keeps (P := fun t => t.memOk ∧ t.memGen = s.memGen) _ (fun b n hb =>
      syncRecord_keeps (P := fun t => t.memOk ∧ t.memGen = s.memGen) (fun t m a bs ht => ⟨storeBoth_wf t m a bs ht.1, ht.2⟩) old b n hb)
      _ _ ⟨h, rfl⟩
  exact withMem_wf hp.1 hp.2

theorem keepRecords_onlyOutputs {f : State → State} {s : State} (h : onlyOutputs s (f s)) : onlyOutputs s (keepRecords f s) :=
  onlyBytes_trans h (syncRecords_onlyOutputs _ _)

theorem keepRecords_wf {f : State → State} {s : State} (h : (f s).memOk) : (keepRecords f s).memOk := syncRecords_wf _ _ h

/-! ### Head entries (R100, R454) -/

@[simp] theorem headWords_length (it : FifoItem) : (headWords it).length = 8 := rfl

theorem headBytes_length (it : FifoItem) : ((headWords it).flatMap bytesLE).length = 64 := rfl

/-- The head entries of Gallery g lie in its FIFO. -/
theorem onlyFifo_store_head (s : State) (g e : Nat) (it : FifoItem) : onlyFifo g s (s.store (fifoAddr g e) ((headWords it).flatMap bytesLE)) := by
  refine onlyBytes_store _ _ _ ?_ ?_ <;> rw [fifoAddr] <;> have := Nat.mod_lt e (show 0 < fifoEntries by decide)
  · omega
  · rw [headBytes_length]; have : fifoEntries = 524288 := rfl; omega

/-- Writing head entries leaves all but Gallery g's items and the memory of its FIFO. -/
theorem writeHeads_onlyFifo (old : List FifoItem) (g : Nat) (s : State) : onlyFifo g s (writeHeads old g s) := by
  unfold writeHeads
  exact each_keeps (P := onlyFifo g s) _ (fun b it hb => onlyBytes_trans hb (onlyFifo_store_head b g _ it)) _ _ (onlyBytes_onDev _ _ s _)

theorem writeHeads_wf (old : List FifoItem) (g : Nat) (s : State) (h : s.memOk) : (writeHeads old g s).memOk := by
  unfold writeHeads
  exact each_keeps (P := State.memOk) _ (fun b it hb => State.store_wf b _ _ hb) _ _ h

/-- The device after head entries have been written: the items have found their places, and nothing else moves. -/
theorem writeHeads_dev (old : List FifoItem) (g : Nat) (s : State) :
    (writeHeads old g s).dev =
      s.dev.onGal g fun y =>
        { y with fifo := (placeHeads (s.dev.gal g).fifo (s.dev.gal g).wr).1, wr := (placeHeads (s.dev.gal g).fifo (s.dev.gal g).wr).2 } := by
  unfold writeHeads
  generalize placeHeads (s.dev.gal g).fifo (s.dev.gal g).wr = x
  refine each_keeps (P := fun t : State => t.dev = s.dev.onGal g fun y => { y with fifo := x.1, wr := x.2 })
    (fun s (it : FifoItem) => s.store (fifoAddr g (it.place.getD 0)) ((headWords it).flatMap bytesLE)) ?_ _ _ (State.onDev_dev s _)
  intro b it hb
  exact (State.store_dev b _ _).trans hb

theorem onFifo_onlyFifo (g : Nat) (f : Dev → Dev) (s : State) : onlyFifo g s (onFifo g f s) :=
  onlyBytes_trans (onlyBytes_onDev _ _ s f) (writeHeads_onlyFifo _ g _)

theorem onFifo_wf (g : Nat) (f : Dev → Dev) (s : State) (h : s.memOk) : (onFifo g f s).memOk := writeHeads_wf _ _ _ h

theorem onlyFifo_onlyOutputs {g : Nat} {s t : State} (hg : g < 26) (h : onlyFifo g s t) : onlyOutputs s t :=
  onlyBytes_wider h (by omega) (by have : Config.memBytes = 64424509440 := rfl; omega)

theorem onFifos_onlyOutputs (f : Dev → Dev) (s : State) : onlyOutputs s (onFifos f s) := by
  unfold onFifos
  refine each_keeps_mem (P := onlyOutputs s) _ _ (fun b g hg hb => ?_) _ (onlyBytes_onDev _ _ s f)
  exact onlyBytes_trans hb (onlyFifo_onlyOutputs (by simpa using hg) (writeHeads_onlyFifo _ g b))

theorem onFifos_wf (f : Dev → Dev) (s : State) (h : s.memOk) : (onFifos f s).memOk := by
  unfold onFifos
  exact each_keeps (P := State.memOk) _ (fun b g hb => writeHeads_wf _ g b hb) _ _ h

/-- Placing head entries changes no item but for its place. -/
theorem placeHeads_items (l : List FifoItem) (p : Nat) :
    (placeHeads l p).1.map (fun it => { it with place := none }) = l.map fun it => { it with place := none } := by
  induction l generalizing p with
  | nil => rfl
  | cons it r ih =>
    unfold placeHeads
    split
    · simp [ih]
    · dsimp only; split <;> simp [ih]

end Sys2Proof.Machine
end

