-- ==== Sys2Proof/WellFormed.lean ====
section
/-! DEFINITION. What the operands of a command must satisfy to be a command that the block can be given: the limits of
the wire format and of the master numbering, which the types of the operands do not already say. -/

namespace Sys2Proof

/-- An issuer of Ohmold packets: the PF, a VF, or the SMBus endpoint (R388, R411). -/
def issuerOk (fn : Nat) : Bool := decide (fn ≤ 0xC0) || fn == 0xFE

/-- A master ID of R411. -/
def masterOk (m : Nat) : Bool :=
  decide (m ≤ 0xC0) || (decide (0xD0 ≤ m) && decide (m ≤ 0xE9)) || [0xF0, 0xF1, 0xF2, 0xF3, 0xF8, 0xF9, 0xFA, 0xFC, 0xFE, 0xFF].contains m

/-- A packet carries as many parameter words as its COUNT says (R375, R382). -/
def countOk (hdr : Word) (ps : List Word) : Bool := ps.length == hdr.toNat / 2 ^ 43 % 32

/-- A submitted packet is well formed. -/
def packetOk (fn : Nat) (hdr : Word) (ps : List Word) : Bool := issuerOk fn && countOk hdr ps

/-- A non-posted request names a function or a Shaft channel that exists. -/
def requestOk (r : HostRequest) : Bool :=
  match r with
  | .slots fn => decide (fn ≤ 192)
  | .shaft c _ => decide (c < 288)

/-- A line of device memory, in 64-byte units, is backed (R441). -/
def lineOk (line : Nat) : Bool := decide (line < 1006632960)

/-- The requester of a memory line names a stream, context, recipient or channel that exists. -/
def userOk (u : MemUser) : Bool :=
  match u with
  | .source n _ _ => decide (n < 192)
  | .reference n _ _ => decide (n < 192)
  | .fifo n _ => decide (n < 192)
  | .stored n _ => decide (n < 192)
  | .ingest c _ => decide (c < 96)
  | .entry r => match r with | some r => decide (r < 16384) | none => true
  | .shaftOut c => decide (c < 288)
  | _ => true

/-- An MCTP body meets R400. -/
def mctpBodyOk (b : MctpBody) : Bool :=
  match b with
  | .command hdr ps => countOk hdr ps
  | .imageBlock off bytes _ => decide (off < 4294967296) && decide (1 ≤ bytes.length) && decide (bytes.length ≤ 1024)
  | .other => true
  | .message _ _ => true

/-- A command is well formed. -/
def Instr.wf (i : Instr) : Bool :=
  match i with
  | .deviceNop fn hdr ps => packetOk fn hdr ps
  | .deviceQuery fn hdr ps => packetOk fn hdr ps
  | .deviceIdentity fn hdr ps => packetOk fn hdr ps
  | .deviceReset fn hdr ps => packetOk fn hdr ps
  | .deviceResetFire => true
  | .sleep fn hdr ps => packetOk fn hdr ps
  | .calibrate fn hdr ps => packetOk fn hdr ps
  | .deviceClearFault fn hdr ps => packetOk fn hdr ps
  | .streamOpen fn hdr ps => packetOk fn hdr ps
  | .streamSetupDone _ => true
  | .streamClose fn hdr ps => packetOk fn hdr ps
  | .streamCloseDone _ => true
  | .streamQuery fn hdr ps => packetOk fn hdr ps
  | .streamAssign fn hdr ps => packetOk fn hdr ps
  | .streamClear fn hdr ps => packetOk fn hdr ps
  | .rasterConfig fn hdr ps => packetOk fn hdr ps
  | .rasterQuery fn hdr ps => packetOk fn hdr ps
  | .rasterClear fn hdr ps => packetOk fn hdr ps
  | .rateSet fn hdr ps => packetOk fn hdr ps
  | .rateTarget fn hdr ps => packetOk fn hdr ps
  | .rateLimits fn hdr ps => packetOk fn hdr ps
  | .rateRoi fn hdr ps => packetOk fn hdr ps
  | .rateMap fn hdr ps => packetOk fn hdr ps
  | .rateReport fn hdr ps => packetOk fn hdr ps
  | .rateQuery fn hdr ps => packetOk fn hdr ps
  | .rateClear fn hdr ps => packetOk fn hdr ps
  | .refConfig fn hdr ps => packetOk fn hdr ps
  | .refKey fn hdr ps => packetOk fn hdr ps
  | .refRefresh fn hdr ps => packetOk fn hdr ps
  | .refAck fn hdr ps => packetOk fn hdr ps
  | .refLoss fn hdr ps => packetOk fn hdr ps
  | .refQuery fn hdr ps => packetOk fn hdr ps
  | .refClear fn hdr ps => packetOk fn hdr ps
  | .recipAdd fn hdr ps => packetOk fn hdr ps
  | .recipRemove fn hdr ps => packetOk fn hdr ps
  | .recipModify fn hdr ps => packetOk fn hdr ps
  | .recipQuery fn hdr ps => packetOk fn hdr ps
  | .recipClear fn hdr ps => packetOk fn hdr ps
  | .recipFlush fn hdr ps => packetOk fn hdr ps
  | .queueBind fn hdr ps => packetOk fn hdr ps
  | .queueUnbind fn hdr ps => packetOk fn hdr ps
  | .queueMirror fn hdr ps => packetOk fn hdr ps
  | .queueStream fn hdr ps => packetOk fn hdr ps
  | .keyKek fn hdr ps _ => packetOk fn hdr ps
  | .keyLoad fn hdr ps => packetOk fn hdr ps
  | .keyRoll fn hdr ps => packetOk fn hdr ps
  | .keyErase fn hdr ps => packetOk fn hdr ps
  | .keyQuery fn hdr ps => packetOk fn hdr ps
  | .veinConfig fn hdr ps => packetOk fn hdr ps
  | .veinRecord fn hdr ps => packetOk fn hdr ps
  | .veinQuery fn hdr ps => packetOk fn hdr ps
  | .fleetStage fn hdr ps => packetOk fn hdr ps
  | .fleetActivate fn hdr ps => packetOk fn hdr ps
  | .fleetQuery fn hdr ps => packetOk fn hdr ps
  | .fleetCancel fn hdr ps => packetOk fn hdr ps
  | .diagRetire fn hdr ps => packetOk fn hdr ps
  | .diagInject fn hdr ps => packetOk fn hdr ps
  | .diagFaultrec fn hdr ps => packetOk fn hdr ps
  | .decodeOpen fn hdr ps => packetOk fn hdr ps
  | .decodeClose fn hdr ps => packetOk fn hdr ps
  | .decodeCloseDone _ => true
  | .decodeRelease fn hdr ps => packetOk fn hdr ps
  | .decodeResync fn hdr ps => packetOk fn hdr ps
  | .decodeQuery fn hdr ps => packetOk fn hdr ps
  | .decodeClear fn hdr ps => packetOk fn hdr ps
  | .rasterToken m _ _ _ => masterOk m
  | .rasterSyncPulse _ _ => true
  | .lanternRowTimer _ => true
  | .stall _ => true
  | .bandEligible _ => true
  | .bandDispatch _ _ => true
  | .superblockCode _ _ => true
  | .bandOccupancyEnd _ => true
  | .bandCommit _ _ _ => true
  | .bandClose _ => true
  | .overrun _ _ => true
  | .missed _ => true
  | .watchdog _ => true
  | .flush m _ => masterOk m
  | .timeout _ => true
  | .sramCorr _ => true
  | .sramUncorr _ => true
  | .controlStoreError _ => true
  | .power _ => true
  | .failover => true
  | .verdict _ f _ => (f.crc0 ++ f.crc1 ++ [f.edge0, f.edge1]).all fun v => decide (v < 2 ^ 32)
  | .ingestPeriod => true
  | .ingestFrameOutput _ _ => true
  | .fifoReadTurn => true
  | .reseqTmo _ => true
  | .calendarSlot => true
  | .portServe _ => true
  | .senderReport _ => true
  | .hostTransmit _ _ => true
  | .frameReceive _ _ => true
  | .reorderWindowClose _ => true
  | .unlocked => true
  | .ppsOutSecond => true
  | .ppsInEdge => true
  | .linkChange _ _ => true
  | .auditorVisit _ _ _ => true
  | .silent _ => true
  | .learnedSlotExpiry _ _ _ => true
  | .graceEnd _ => true
  | .bootImage m _ => masterOk m
  | .imageVerified r => decide (r.patchRam.length ≤ 1024)
  | .mctpMessage _ body => mctpBodyOk body
  | .alertResponse _ => true
  | .ringSqTail m _ _ _ => masterOk m
  | .ringEnable m _ _ => masterOk m
  | .errorCompletion r => requestOk r
  | .completionTimeout r => requestOk r
  | .completionTimeoutValue _ => true
  | .bar2Access off _ len => decide (off + len ≤ 68719476736)
  | .functionLevelReset _ => true
  | .pcieLinkDown => true
  | .hotReset => true
  | .shaftChPost m _ _ => masterOk m
  | .shaftChCtrlWrite m _ _ => masterOk m
  | .descriptorStart _ d => d.length == 4
  | .descriptorComplete _ _ => true
  | .corrected _ line _ => lineOk line
  | .uncorrected _ line _ user => lineOk line && userOk user
  | .scrubLine _ line _ => lineOk line
  | .neighbour _ _ row => decide (row < 65536)
  | .refreshWindow => true
  | .agePromotion _ cls _ who => decide (cls.val ≠ 0) && masterOk who
  | .eqEnable m _ _ => masterOk m
  | .eqHead m _ _ => masterOk m
  | .eqCpl m _ _ => masterOk m
  | .fastPend m _ _ => masterOk m
  | .coalUsExpiry _ => true
  | .wakeLatch _ cause => decide (cause < 256)
  | .wakeRecordDelivery => true
  | .fltHeartbeat m _ => masterOk m
  | .heartbeatTimeout => true
  | .faultPulseEnd => true
  | .fltCtrlWrite m _ => masterOk m
  | .captureFree m _ => masterOk m
  | .persistentEntryWrite => true
  | .graveHoldEnd => true
  | .takeover cause => decide (cause.val ≠ 0)
  | .fuse cause => decide (cause.val ≠ 0)
  | .sharedUe cause => decide (cause.val ≠ 0)
  | .sharedCe cause => decide (cause.val ≠ 0)
  | .warn _ _ => true
  | .recovered _ _ => true
  | .holdMove => true
  | .admitHoldClear => true
  | .brownout _ _ => true
  | .standbyReset => true
  | .supplyInRange _ _ => true
  | .perstNAssert _ => true
  | .perstNRelease _ => true
  | .resetExit => true
  | .tjWarn _ _ => true
  | .tjOk => true
  | .thermalTrip _ _ => true
  | .shutdown _ _ => true
  | .calTrigger _ _ => true
  | .calPairDone _ _ _ => true
  | .calRetry _ _ _ => true
  | .telemetryTick values => values.length == 40
  | .timer => true
  | .activationLanding => true
  | .digestRecompute => true
  | .cfgCommitAll m => masterOk m
  | .cfgCommitGroup m _ => masterOk m
  | .shadowWrite m addr _ => masterOk m && decide (addr < 16777216)
  | .registerWrite m addr _ _ => masterOk m && decide (addr < 16777216)
  | .rcRead m addr _ => masterOk m && decide (addr < 16777216)
  | .counterClear m addr _ => masterOk m && decide (addr < 16777216)
  | .lockSet m addr _ => masterOk m && decide (addr < 16777216)
  | .indDataRead m => masterOk m
  | .indDataWrite m _ => masterOk m
  | .read m _ => masterOk m
  | .readLearned m _ _ => masterOk m
  | .modify m _ => masterOk m
  | .clear m _ => masterOk m
  | .flushLearned m _ _ => masterOk m
  | .readHwm m _ => masterOk m
  | .tapReset => true
  | .takeoverComplete => true
  | .pcieLinkUp width speed _ => [1, 2, 4, 8, 16].contains width && decide (1 ≤ speed) && decide (speed ≤ 6)
  | .lateCompletion => true
  | .tckRisingEdge _ _ => true

end Sys2Proof
end

