-- ==== Sys2Proof/Tests/Slice0.lean ====
section
/-! SUPPORT. Tests: ill-formed commands, states that meet the hypotheses of the statements, and values that the spec's rules
give. -/

namespace Sys2Proof.Tests
open Sys2Proof Sys2Proof.Machine

set_option Elab.async false

/-! ### Well-formed commands -/

theorem test_wf_issuer : Instr.wf (.deviceNop 0xC1 0 []) = false := by decide
theorem test_wf_count : Instr.wf (.deviceNop 0 0 [0]) = false := by decide
theorem test_wf_master : Instr.wf (.eqHead 0xEA 0 0) = false := by decide
theorem test_wf_request_function : Instr.wf (.errorCompletion (.slots 193)) = false := by decide
theorem test_wf_request_channel : Instr.wf (.completionTimeout (.shaft 288 false)) = false := by decide
theorem test_wf_line : Instr.wf (.corrected 0 1006632960 false) = false := by decide
theorem test_wf_user : Instr.wf (.uncorrected 0 0 false (.source 192 0 0)) = false := by decide
theorem test_wf_mctp : Instr.wf (.mctpMessage 0 (.imageBlock 0 [] true)) = false := by decide
theorem test_wf_descriptor : Instr.wf (.descriptorStart 0 [0, 0, 0]) = false := by decide
theorem test_wf_findings : Instr.wf (.verdict 0 ⟨[], [], 4294967296, 0, false, 0, 0, [], []⟩ []) = false := by decide
theorem test_wf_telemetry : Instr.wf (.telemetryTick []) = false := by decide
theorem test_wf_cause : Instr.wf (.takeover 0) = false := by decide
theorem test_wf_link : Instr.wf (.pcieLinkUp 3 6 true) = false := by decide
theorem test_wf_row : Instr.wf (.neighbour 0 0 65536) = false := by decide
theorem test_wf_bar2 : Instr.wf (.bar2Access 68719476736 none 1) = false := by decide
theorem test_wf_address : Instr.wf (.rcRead 0 16777216 true) = false := by decide

/-! ### States -/

def withRegs (d : Dev) (l : List (Nat × Word)) : Dev := each l d fun d p => setReg d p.1 p.2

/-- A device that is READY, locked, with the PF's rings in service. -/
def liveDev : Dev :=
  withRegs { pwr := { die := .running }, accStd := true }
    [ (rSecLocks, ones 63 61), (rBootStatus, word (4 * 2 ^ 60)), (rRing 0 oSqSize, 64), (rRing 0 oCqSize, 64)
    , (rRing 0 oRingCtrl, word (2 ^ 63)) ]

def live : State := { dev := liveDev }

/-- A header word: COUNT and TARGET. -/
def hdrOf (count target : Nat) : Word := word (count * 2 ^ 43 + target * 2 ^ 16)

/-- A stream of 640 × 360 at 60 frames a second, AV1 of 8 bits, in bands of one superblock row, with no hints. -/
def cfg : StreamCfg :=
  { rateNum := 60, width := 640, height := 360, slotStride := 393216, lumaPitch := 768, chromaOffset := 276480, chromaPitch := 768
    hintOffset := 4294967295 }

def rates : RateParams := cfg.rateOf (word (2 ^ 62 + 10000000)) 0 (word (28 * 2 ^ 56 + 8 * 2 ^ 48 + 51 * 2 ^ 40))

/-- Stream 5 runs. -/
def running : Stream := { phase := .running, cfg := cfg, params := rates, load := cfg.loadOf 0 1, parts := [{ gal := 3, load := cfg.loadOf 0 1, order := 0 }] }

def run5 : State := live.onDev fun d => d.setStream 5 running

/-! ### Streams, raster, rate control and references -/

theorem wit_rateSet :
    let p := mkPkt 0x0401 0 (hdrOf 3 5) [word (2 ^ 62 + 10000000), 0, word (28 * 2 ^ 56 + 8 * 2 ^ 48 + 51 * 2 ^ 40)]
    takesNow p run5 ∧ streamGo p run5 3 ∧ rateWordsOk (p.w 1) (p.w 2) (p.w 3) = true ∧
      (run5.dev.stream p.target).cfg.rateOk (rateSetOf run5.dev p) = true := by
  unfold takesNow streamGo; decide +kernel

theorem wit_rateTarget :
    let p := mkPkt 0x0402 0 (hdrOf 1 5) [word (5000000 * 2 ^ 32 + 255)]
    takesNow p run5 ∧ streamGo p run5 1 ∧ rateTargetOk (run5.dev.stream p.target) p = true := by
  unfold takesNow streamGo; decide +kernel

theorem wit_rateLimits :
    let p := mkPkt 0x0403 0 (hdrOf 1 5) [word (51 * 2 ^ 56 + 51 * 2 ^ 48)]
    takesNow p run5 ∧ streamGo p run5 1 ∧ within (p.w 1) (ones 63 48) = true ∧ p.f 1 63 56 ≤ p.f 1 55 48 ∧ p.f 1 55 48 ≤ 51 := by
  unfold takesNow streamGo; decide +kernel

theorem wit_rateRoi :
    let p := mkPkt 0x0404 0 (hdrOf 9 5) [0, 0, 0, 0, 0, 0, 0, 0, 0]
    takesNow p run5 ∧ streamGo p run5 9 ∧ roiOk (run5.dev.stream p.target).cfg p = true := by
  unfold takesNow streamGo; decide +kernel

theorem wit_rateMap :
    let p := mkPkt 0x0405 0 (hdrOf 2 5) [word 4096, word (4096 * 2 ^ 32 + 1)]
    takesNow p run5 ∧ streamGo p run5 2 ∧ mapOk (run5.dev.stream p.target).cfg p = true ∧
      memGranted run5.dev 0 (p.w 1).toNat ((run5.dev.stream p.target).cfg.slotCount * p.f 2 63 32) true = true := by
  unfold takesNow streamGo; decide +kernel

theorem wit_refConfig :
    let p := mkPkt 0x0501 0 (hdrOf 3 5) [word (8 * 2 ^ 48), word (500 * 2 ^ 48 + 1000 * 2 ^ 32 + 100 * 2 ^ 16 + 250), 0]
    takesNow p run5 ∧ streamGo p run5 3 ∧ within (p.w 3) (ones 31 0) = true := by
  unfold takesNow streamGo; decide +kernel

theorem wit_rateReport :
    let p := mkPkt 0x0406 0 (hdrOf 2 5) [64, word (16 * 2 ^ 32 + 1)]
    takesNow p run5 ∧ streamGo p run5 2 ∧ ringWordsOk (p.w 1) (p.w 2) 16 65536 = true := by
  unfold takesNow streamGo; decide +kernel

theorem wit_counterClears :
    (let p := mkPkt 0x0408 0 (hdrOf 1 5) [ones 9 3]
     takesNow p run5 ∧ streamGo p run5 1 ∧ within (p.w 1) (ones 9 3) = true) ∧
    (let p := mkPkt 0x0507 0 (hdrOf 1 5) [ones 9 5]
     takesNow p run5 ∧ streamGo p run5 1 ∧ within (p.w 1) (ones 9 5) = true) ∧
    (let p := mkPkt 0x0205 0 (hdrOf 1 5) [ones 8 7]
     takesNow p run5 ∧ streamGo p run5 1 ∧ within (p.w 1) (ones 8 7) = true) := by
  unfold takesNow streamGo; decide +kernel

theorem wit_streamQueries :
    (∀ op ∈ [0x0203, 0x0407, 0x0506], let p := mkPkt op 0 (hdrOf 0 191) []; takesNow p run5 ∧ streamQueryGo p run5) ∧
    (let p := mkPkt 0x0302 0 (hdrOf 0 0) []
     takesNow p run5 ∧ hdrBad p 0 192 = false ∧ notOwner p (run5.dev.streamOwner p.target) = false) := by
  unfold takesNow streamQueryGo; decide +kernel

theorem wit_keyAndRefresh :
    (let p := mkPkt 0x0502 0 (hdrOf 1 5) [1]; takesNow p run5 ∧ streamGo p run5 1 ∧ within (p.w 1) 1 = true) ∧
    (let p := mkPkt 0x0503 0 (hdrOf 0 5) []; takesNow p run5 ∧ streamGo p run5 0) := by
  unfold takesNow streamGo; decide +kernel

/-- Stream 5 holds frame 9, and its recipient 7 counts from frame 8. -/
def entry9 : AckEntry := { frame := 9, firstSeq := 54, lastSeq := 59 }
def recip7 : Recip :=
  { valid := true, stream := 5, dstUdp := 5004, addrHi := 0x0A000001, mac0 := 1, clientSsrc := 77, countFrom := 8, keySlot := 4
    ports := 0, rate := 64, burst := 1024 }
def acked : State := run5.onDev fun d =>
  (d.onStream 5 fun x => { x with ref := { x.ref with table := [entry9] } }).setRecip 7 recip7

theorem wit_refAck :
    let p := mkPkt 0x0504 0 (hdrOf 1 5) [word (7 * 2 ^ 32 + 59)]
    takesNow p acked ∧ streamGo p acked 1 ∧ within (p.w 1) (ones 45 0) = true ∧ detached acked.dev p = false ∧
      ((acked.dev.stream p.target).ref.table.find? fun e => e.lastSeq == p.f 1 31 0) = some entry9 ∧
      (acked.dev.recip 7).marked = false ∧ (acked.dev.recip 7).silent = false ∧ countsFor (acked.dev.recip 7) 9 = true ∧
      (acked.dev.recip 7).lastAck = noAck := by
  unfold takesNow streamGo; decide +kernel

theorem wit_refLoss :
    let p := mkPkt 0x0505 0 (hdrOf 1 5) [word (65535 * 2 ^ 48 + 7 * 2 ^ 32 + 54)]
    let q := mkPkt 0x0505 0 (hdrOf 1 5) [word (7 * 2 ^ 32)]
    takesNow p acked ∧ streamGo p acked 1 ∧ within (p.w 1) (ones 63 48 ||| ones 45 0) = true ∧ detached acked.dev p = false ∧
      (acked.dev.recip 7).group < 8 ∧ p.f 1 63 48 ≠ 0 ∧
      entryOfSeq (acked.dev.stream p.target).ref (p.f 1 31 0) = some entry9 ∧ (acked.dev.recip 7).marked = false ∧
      takesNow q acked ∧ streamGo q acked 1 ∧ within (q.w 1) (ones 63 48 ||| ones 45 0) = true ∧ detached acked.dev q = false ∧
      q.f 1 63 48 = 0 := by
  unfold takesNow streamGo; decide +kernel

theorem wit_assign :
    (let p := mkPkt 0x0204 0 (hdrOf 1 191) [word 0xC0]
     takesNow p run5 ∧ hdrBad p 1 (if p.b 1 63 then 96 else 192) = false ∧
       within (p.w 1) (ones 63 63 ||| ones 7 0) = true ∧ run5.dev.functionOn (p.f 1 7 0) = true) ∧
    (let p := mkPkt 0x0204 0 (hdrOf 1 95) [word (2 ^ 63)]
     takesNow p run5 ∧ hdrBad p 1 (if p.b 1 63 then 96 else 192) = false ∧
       within (p.w 1) (ones 63 63 ||| ones 7 0) = true ∧ run5.dev.functionOn (p.f 1 7 0) = true) := by
  unfold takesNow; decide +kernel

theorem wit_rasterConfig :
    let p := mkPkt 0x0301 0 (hdrOf 3 5) [word (2 ^ 48 + 4 * 2 ^ 45 + 16000 * 2 ^ 16 + 1024), word (10 * 2 ^ 32 + 1), 50]
    takesNow p run5 ∧ streamGo p run5 3 ∧
      within (p.w 1) (ones 49 44 ||| ones 31 0) = true ∧ within (p.w 2) (ones 63 32 ||| ones 15 0) = true ∧
      within (p.w 3) (ones 31 0) = true ∧
      100 ≤ p.f 1 31 16 ∧ p.f 1 31 16 ≤ 16000 ∧ p.f 1 15 0 ≤ 1024 ∧ p.f 1 47 45 ≤ 4 ∧ p.f 1 49 48 ≤ 1 ∧ p.f 2 15 0 ≠ 0 := by
  unfold takesNow streamGo; decide +kernel

theorem wit_rasterClear :
    let p := mkPkt 0x0303 0 (hdrOf 1 5) [ones 3 0]
    takesNow p run5 ∧ streamGo p run5 1 ∧ within (p.w 1) (ones 3 0) = true := by
  unfold takesNow streamGo; decide +kernel

/-- The device with the four memory regions of a standard image. -/
def open0 : State := live.onDev fun d => withRegs d
  [ (rMemRegion 1, word (2 ^ 63 + 50 * 2 ^ 48 + 99 * 2 ^ 32)), (rMemRegion 2, word (2 ^ 63 + 100 * 2 ^ 48 + 120 * 2 ^ 32)) ]

def openWords : List Word :=
  [ word (2 ^ 44 + 8 * 2 ^ 52 + 60 * 2 ^ 16 + 1), word (640 * 2 ^ 48 + 360 * 2 ^ 32 + 4 * 2 ^ 28 + 3 * 2 ^ 24), 0
  , word (417792 * 2 ^ 32 + 768), word (276480 * 2 ^ 32 + 768), word (4294967295 * 2 ^ 32), word (2 ^ 62 + 10000000), 0
  , word (28 * 2 ^ 56 + 8 * 2 ^ 48 + 51 * 2 ^ 40) ]

theorem wit_open :
    let p := mkPkt 0x0201 0 (hdrOf 9 5) openWords
    let c := cfgOf p
    let rp := c.rateOf (p.w 7) (p.w 8) (p.w 9)
    takesNow p open0 ∧ hdrBadOpen p 9 192 = false ∧ p.target ≠ 0xFFFF ∧ notOwner p (open0.dev.streamOwner p.target) = false ∧
      memGranted open0.dev 0 c.ringBase (c.slotCount * c.slotStride) true = true ∧
      (open0.dev.stream 5).phase = .free ∧ (open0.dev.stream 5).arming = false ∧
      openWordsOk p = true ∧ c.ok = true ∧ c.rateOk rp = true ∧ (admitStream (taken p open0).dev 5 c rp).isSome = true := by
  unfold takesNow taken; decide +kernel

theorem wit_openAny :
    let s := open0.onDev fun d => d.setStreamOwner 9 0
    let p := mkPkt 0x0201 0 (hdrOf 9 0xFFFF) openWords
    takesNow p s ∧ hdrBadOpen p 9 192 = false ∧ openTarget s.dev p = some 9 ∧
      (admitStream (taken p s).dev 9 (cfgOf p) ((cfgOf p).rateOf (p.w 7) (p.w 8) (p.w 9))).isSome = true := by
  unfold takesNow taken; decide +kernel

theorem wit_close :
    (let p := mkPkt 0x0202 0 (hdrOf 1 5) [1]; takesNow p run5 ∧ streamGo p run5 1 ∧ within (p.w 1) 1 = true) ∧
    (let s := run5.onDev fun d => d.setStream 0 { arming := true }
     working s.dev = true ∧ (s.dev.stream (0 : Fin 192).val).arming = true) ∧
    (let s := run5.onDev fun d => d.setStream 191 { phase := .closing }
     working s.dev = true ∧ closeReady s.dev (191 : Fin 192).val = true) := by
  unfold takesNow streamGo; decide +kernel

/-! ### The Lantern -/

/-- Stream 5 is synchronised in frame 9 at this many rows. -/
def lan5 (rows : Nat) (ctrl : Word := 0) : State := run5.onDev fun d =>
  (setReg (setReg d (rLan 5 oLanRows) (word (9 * 2 ^ 32 + rows * 2 ^ 16 + 1))) (rLan 5 oLanCtrl) ctrl).onStream 5 fun x =>
    { x with ctrl := ctrl, cfg := cfg }

theorem wit_tokens :
    let s := lan5 64
    let n : Fin 192 := 5
    ∀ rows ∈ [63, 64, 65, 65535],
      let v := word (5 * 2 ^ 56 + 9 * 2 ^ 24 + rows * 2 ^ 8)
      working s.dev = true ∧ barGranted s.dev 0 (rLan n.val oLanToken) true = true ∧ lanOpen (s.dev.stream n.val) = true ∧
        (s.dev.stream n.val).ghost = none ∧
        lanSrc s.dev n.val = 0 ∧ fld v 63 56 = n.val ∧ fld v 6 0 = 0 ∧ lanSynced s.dev n.val = true ∧
        fld v 55 24 = lanFrame s.dev n.val ∧ bit v 7 = false ∧ (s.dev.stream n.val).stallClosed = false ∧
        (if rows ≤ 64 then min (fld v 23 8) (s.dev.stream n.val).cfg.height ≤ lanRows s.dev n.val
         else lanRows s.dev n.val < min (fld v 23 8) (s.dev.stream n.val).cfg.height) := by
  decide +kernel

theorem wit_syncPulse :
    let s := lan5 64 (word (4 * 2 ^ 45))
    let n : Fin 192 := 5
    working s.dev = true ∧ s.dev.syncAt.get 0 3 = 0 ∧ lanOpen (s.dev.stream n.val) = true ∧ lanSrc s.dev n.val = 4 ∧
      (∀ k : Fin 192, k ≠ n → ¬ (lanOpen (s.dev.stream k.val) = true ∧ lanSrc s.dev k.val = 4)) ∧
      fld (lanCtrl s.dev n.val) 49 48 = 0 ∧ lanSynced s.dev n.val = true ∧
      lanRows s.dev n.val < (s.dev.stream n.val).cfg.height ∧ (s.dev.stream n.val).cfg.height < 65536 := by
  decide +kernel

theorem wit_rowTimer :
    let s := (lan5 64).onDev fun d => d.onStream 5 fun x => { x with rowTimer := some 0 }
    let n : Fin 192 := 5
    working s.dev = true ∧ (s.dev.stream n.val).rowTimer = some 0 ∧ lanOpen (s.dev.stream n.val) = true ∧ (s.dev.stream n.val).ghost = none ∧
      lanRows s.dev n.val + 1 < (s.dev.stream n.val).cfg.height ∧ (s.dev.stream n.val).cfg.height < 65536 := by
  decide +kernel

theorem wit_stall :
    let s := lan5 64 (0)
    let n : Fin 192 := 5
    working s.dev = true ∧ lanOpen (s.dev.stream n.val) = true ∧ (s.dev.stream n.val).ghost = none ∧ lanSynced s.dev n.val = true ∧
      regFld s.dev (rLan n.val oLanStall) 31 0 ≠ 0 ∧ (s.dev.stream n.val).stallRaised = false ∧
      (s.dev.stream n.val).rowTimer = none ∧ lanClosed s.dev n.val = false ∧
      regBit s.dev (rLan n.val oLanCtrl) 44 = false := by
  decide +kernel

theorem wit_stallFill :
    let s := lan5 64 (word (2 ^ 44))
    let n : Fin 192 := 5
    working s.dev = true ∧ lanOpen (s.dev.stream n.val) = true ∧ (s.dev.stream n.val).ghost = none ∧ lanSynced s.dev n.val = true ∧
      regFld s.dev (rLan n.val oLanStall) 31 0 ≠ 0 ∧ (s.dev.stream n.val).stallRaised = false ∧
      (s.dev.stream n.val).rowTimer = none ∧ lanClosed s.dev n.val = false ∧
      regBit s.dev (rLan n.val oLanCtrl) 44 = true := by
  decide +kernel

theorem wit_eligible :
    let s := lan5 64
    let n : Fin 192 := 5
    let x := s.dev.stream n.val
    working s.dev = true ∧ lanOpen x = true ∧ lanSynced s.dev n.val = true ∧ x.skipFrame = false ∧ x.nextBand < x.cfg.bands ∧
      thresholdOf s.dev n.val x.nextBand ≤ readyRows s.dev n.val := by
  decide +kernel

/-! ### The Galleries -/

/-- Stream 5 with band 54, band 0 of frame 9, in this stage, on Gallery 3. -/
def band54 (stage : BandStage) : Band :=
  { seq := 54, frame := 9, b := 0, n := 10, eligibleAt := 1000, deadline := 501000, stage := stage, gal := 3, sbDone := if stage = .waiting then 0 else 10 }
def onGal3 (stage : BandStage) (gal : Gal := {}) : State :=
  run5.onDev fun d => (d.onStream 5 fun x => { x with bands := [band54 stage], nextSeq := 55 }).setGal 3 gal

theorem wit_dispatch :
    let s := onGal3 .waiting
    let g : Fin 26 := 3
    working s.dev = true ∧ pickBand s.dev g.val = some (5, band54 .waiting) ∧
      bandAt (s.dev.stream 5) (band54 .waiting).seq = some (band54 .waiting) ∧ galFree s.dev g.val = true ∧
      galFree (advance s.dev ((band54 .waiting).deadline + (s.dev.stream 5).cfg.frameNs)) g.val = true := by
  decide +kernel

theorem wit_superblock :
    let b : Band := { band54 .coding with sbDone := 9, limit := 100000 }
    let s := (onGal3 .coding { cur := some (5, 54) }).onDev fun d => d.onStream 5 fun x => { x with bands := [b] }
    let r : Band := { b with rep := true }
    let u := (onGal3 .coding { cur := some (5, 54) }).onDev fun d => d.onStream 5 fun x => { x with bands := [r] }
    let g : Fin 26 := 3
    (working s.dev = true ∧ (s.dev.gal g.val).cur = some (5, 54) ∧ bandAt (s.dev.stream 5) 54 = some b ∧ b.gal = g.val ∧ galsQuiet s ∧ b.sbDone < b.n ∧
      allSkip b = false ∧ sbBound (s.dev.stream 5) b b.sbDone ≤ sbLimit (s.dev.stream 5) b b.sbDone b.bits0 ∧
      8 * b.hdrBytes + b.bits0 + sbBound (s.dev.stream 5) b b.sbDone + laterFloor (s.dev.stream 5) b b.sbDone ≤ b.limit) ∧
    (working u.dev = true ∧ (u.dev.gal g.val).cur = some (5, 54) ∧ bandAt (u.dev.stream 5) 54 = some r ∧ r.gal = g.val ∧ r.sbDone < r.n ∧ allSkip r = true) := by
  unfold galsQuiet; decide +kernel

theorem wit_occupancyEnd :
    let s := onGal3 .coding { cur := some (5, 54) }
    let g : Fin 26 := 3
    working s.dev = true ∧ (s.dev.gal g.val).cur = some (5, 54) ∧ bandAt (s.dev.stream 5) 54 = some (band54 .coding) ∧
      (band54 .coding).gal = g.val ∧ (band54 .coding).n ≤ (band54 .coding).sbDone ∧ (band54 .coding).sched = false ∧ (band54 .coding).vein = false := by
  decide +kernel

/-- A band without headers and bits has at most its termination allowance. -/
theorem variantBytes_small (st : Stream) (b : Band) (h : b.hdr = []) (z : b.bits0 = 0) : (variantBytes st b 0).length ≤ 4 * st.cfg.tiles := by
  simp [variantBytes, fillSizes, h, z, Nat.min_le_left]

theorem wit_commit :
    let s := onGal3 .draining { closing := [(5, 54)] }
    let full := onGal3 .draining { closing := [(5, 54)], fifo := [{ stream := 6, b := 0, seq := 1, frame := 0, valid := true, len := 33554432 }] }
    let g : Fin 26 := 3
    ∀ u ∈ [s, full], working u.dev = true ∧ bandAt (u.dev.stream 5) 54 = some (band54 .draining) ∧
      commitsNext u.dev g.val = some (5, 54) := by
  decide +kernel

theorem wit_bandClose :
    let s := onGal3 .committed { closing := [(5, 54)] }
    let g : Fin 26 := 3
    working s.dev = true ∧ bandAt (s.dev.stream 5) 54 = some (band54 .committed) ∧
      closesNext s.dev g.val = some (5, band54 .committed) ∧ heldByAbove (s.dev.stream 5) (band54 .committed) = false := by
  decide +kernel

theorem wit_verdict :
    let s := onGal3 .closed
    let g : Fin 26 := 3
    working s.dev = true ∧ retired s.dev g.val = false ∧ nextVerdict s.dev g.val = some (5, band54 .closed) ∧
      causeOf (s.dev.stream 5) (band54 .closed) ⟨[1], [], 0, 0, false, 0, 0, [], []⟩ [] = 1 := by
  decide +kernel

theorem wit_verdict_pass (st : Stream) : ∃ f, causeOf st (band54 .closed) f [] = 0 :=
  ⟨⟨[], [], 0, 0, false, 0, 0, expectedHeaders st (band54 .closed) 0, []⟩, by simp [causeOf, band54]⟩

theorem wit_missed :
    let s := onGal3 .closed
    let n : Fin 192 := 5
    working s.dev = true ∧ oldestDue s.dev n.val = some (band54 .closed) ∧
      bandAt (s.dev.stream n.val) (band54 .closed).seq = some (band54 .closed) ∧ counted (s.dev.stream n.val) = true := by
  decide +kernel

theorem wit_galleryFaults :
    let at_ := fun k => (onGal3 .coding { cur := some (5, 54) }).onDev fun d => d.onStream 5 fun x =>
      { x with bands := [{ band54 .coding with abandons := k }] }
    let g : Fin 26 := 3
    ∀ k ∈ [0, 2, 3], working (at_ k).dev = true ∧ retired (at_ k).dev g.val = false ∧
      runningBand (at_ k).dev g.val = some (5, { band54 .coding with abandons := k }) ∧ runningBand run5.dev g.val = none ∧
      working run5.dev = true ∧ retired run5.dev g.val = false := by
  decide +kernel

theorem wit_fifoEvents :
    let it : FifoItem := { stream := 5, b := 0, seq := 54, frame := 9, valid := true, len := 100 }
    let s := onGal3 .closed { fifo := [it] }
    let t := onGal3 .closed { fifo := [it], tmoRaised := true }
    let g : Fin 26 := 3
    alive s.dev = true ∧ barGranted s.dev 0 (rGal g.val oFifoCtrl) true = true ∧ working s.dev = true ∧
      regFld s.dev (rGal g.val oFifoCtrl) 31 0 ≠ 0 ∧ (s.dev.gal g.val).readable = true ∧ (s.dev.gal g.val).tmoRaised = false ∧
      working t.dev = true ∧ regFld t.dev (rGal g.val oFifoCtrl) 31 0 ≠ 0 ∧ (t.dev.gal g.val).readable = true ∧
      (t.dev.gal g.val).tmoRaised = true := by
  decide +kernel

theorem wit_failover :
    let s := run5.onDev fun d => { d with guide := { d.guide with moves := [3] } }
    let g : Fin 26 := 3
    working s.dev = true ∧ s.dev.guide.moves = g.val :: [] ∧ s.dev.guide.takeoverAt = none ∧ partsOn s.dev g.val ≠ [] ∧
      ((List.range 26).find? fun u => isReserve s.dev u) = some 0 ∧ (s.dev.stream 5).phase ≠ .closing ∧
      ((s.dev.stream 5).parts[0]?.map fun q => q.gal) = some g.val := by
  decide +kernel

/-- No Gallery is a reserve. -/
theorem wit_failoverNoReserve :
    let s := run5.onDev fun d =>
      { d.setStream 6 { phase := .running, parts := (List.range 26).map fun g => { gal := g, load := 1, order := 0 } } with
        guide := { d.guide with moves := [3] } }
    let g : Fin 26 := 3
    working s.dev = true ∧ s.dev.guide.moves = g.val :: [] ∧ s.dev.guide.takeoverAt = none ∧ partsOn s.dev g.val ≠ [] ∧
      ((List.range 26).find? fun u => isReserve s.dev u) = none := by
  decide +kernel

/-! ### Ingest decoding -/

def decodeWords : List Word :=
  [ word (2 ^ 52 + 3 * 2 ^ 44 + 60 * 2 ^ 16 + 1), 0, 0, 0, 0, 0, 0, 0 ]

/-- Decode context 2 is in use. -/
def ctx2 (x : Ctx := {}) : State := live.onDev fun d => d.setCtx 2 { x with phase := .running }

theorem wit_decodeOnContext :
    (let p := mkPkt 0x0A03 0 (hdrOf 1 2) [ones 31 0]; takesNow p ctx2 ∧ ctxGo p ctx2 1 ∧ within (p.w 1) (ones 31 0) = true) ∧
    (let p := mkPkt 0x0A04 0 (hdrOf 0 2) []; takesNow p ctx2 ∧ ctxGo p ctx2 0) ∧
    (let p := mkPkt 0x0A05 0 (hdrOf 0 95) []
     takesNow p ctx2 ∧ hdrBad p 0 96 = false ∧ notReader p (ctx2.dev.ctxOwner p.target) = false) ∧
    (let p := mkPkt 0x0A06 0 (hdrOf 1 2) [ones 9 3]; takesNow p ctx2 ∧ ctxGo p ctx2 1 ∧ within (p.w 1) (ones 9 3) = true) ∧
    (let p := mkPkt 0x0A02 0 (hdrOf 1 2) [1]; takesNow p ctx2 ∧ ctxGo p ctx2 1 ∧ within (p.w 1) 1 = true) ∧
    (let c : Fin 96 := 95
     let s := live.onDev fun d => d.setCtx c.val { phase := .closing }
     working s.dev = true ∧ (s.dev.ctx c.val).phase = .closing ∧ (s.dev.ctx c.val).units = [] ∧ (s.dev.ctx c.val).waiting = []) := by
  unfold takesNow ctxGo; decide +kernel

theorem wit_ingest :
    let u : AccessUnit := { number := 0, length := 100, lost := false, pts := 0, time := 0, size := 128, at_ := 0, alone := true }
    let s := ctx2
      { assured := true, load := 1500, units := [u], outSlots := 2, outStride := 8192, outBase := 8192, overwrite := false, maxW := 2, maxH := 2
        codec := 2, outFormat := 1 }
    let f : DecodedFrame :=
      { width := 2, height := 2, key := true, refs := [], missing := 0, syntaxErrors := 0, damaged := [], totalSb := 1, undecodable := false
        header := none, points := [], depth := 8, mono := false, picture := { luma := [1, 2, 3, 4], cb := [5], cr := [6] }, grained := none
        shown := true, order := 0, waits := 0, existing := none }
    let c : Fin 96 := 2
    let x := s.dev.ctx c.val
    let base := x.outBase + x.nextSlot * x.outStride
    let rows := slotRows (headerSeen x f) f
    working s.dev = true ∧ x.phase ≠ .free ∧ x.assured = true ∧ x.units = [u] ∧ u.lost = false ∧ offPoint x f = false ∧ mayDecode s.dev c.val = true ∧
      (0 ∉ f.drops) ∧ f.existing = none ∧ f.waits = 0 ∧ dueFrames x x.waits = 0 ∧
      slotBlocked x = false ∧ x.waiting = [] ∧ rows = [(0, [1, 2]), (256, [3, 4]), (4096, [5, 6])] ∧
      (∀ r ∈ rows, memGranted s.dev 0xFA (base + r.1) r.2.length true = true ∧ base + r.1 + r.2.length ≤ Config.memBytes) ∧
      rows.Pairwise (fun p q => p.1 + p.2.length ≤ q.1) := by
  decide +kernel

theorem wit_decodeOpen :
    let p := mkPkt 0x0A01 0 (hdrOf 8 95)
      [ word (2 ^ 56 + 2 ^ 48 + 2 * 2 ^ 44 + 60 * 2 ^ 16 + 1), word (640 * 2 ^ 48 + 360 * 2 ^ 32), 0, word (1048576 * 2 ^ 32), 1048576
      , word (417792 * 2 ^ 32), 0, word (16 * 2 ^ 32) ]
    let x := ctxOf p
    takesNow p open0 ∧ hdrBadOpen p 8 96 = false ∧ p.target ≠ 0xFFFF ∧ notOwner p (open0.dev.ctxOwner p.target) = false ∧
      (open0.dev.ctx 95).phase = .free ∧ memGranted open0.dev 0 x.inBase x.inSize true = true ∧
      memGranted open0.dev 0 x.outBase (x.outSlots * x.outStride) true = true ∧ ctxOk p = true ∧
      (openCtx (taken p open0).dev 95 x).isSome = true := by
  unfold takesNow taken; decide +kernel

/-! ### Mouth -/

theorem wit_fifoRead :
    let it : FifoItem := { stream := 5, b := 0, seq := 54, frame := 9 }
    let s := onGal3 .closed { fifo := [it] }
    working s.dev = true ∧ fifoTurn s.dev = some 3 ∧ (s.dev.gal 3).fifo = [it] := by
  decide +kernel

theorem wit_reseq :
    let s := run5.onDev fun d => d.onStream 5 fun x => { x with held := [{ seq := 2 }] }
    let n : Fin 192 := 5
    working s.dev = true ∧ (s.dev.stream n.val).held ≠ [] ∧
      ((s.dev.stream n.val).held.any fun h => h.seq == reseqNext s.dev n.val) = false ∧
      ((s.dev.stream n.val).held.any fun h => h.seq == seqAdd (reseqNext s.dev n.val) 1) = false := by
  decide +kernel

/-- Recipient 7 has one packet of a stored band of stream 5 queued, in this place. -/
def copy7 : QEntry := { stream := 5, seq := 54, idx := 0, count := 2, len := 1200, colour := .green }
def band7 : Stored :=
  { stream := 5, seq := 54, frame := 9, b := 0, last := false, vein := false, key := false, rep := false, resend := false, len0 := 2000
    len1 := 0, digest4 := 0, epoch := 0, bufs := [], released := true, refs := 1 }
def queued (place : QPlace) : State := acked.onDev fun d =>
  let d := (d.onRecip 7 fun x => { x with queue := [copy7], place := place, rate := 0, burst := 0 }).setKey 4 { kind := 1, material := 5 }
  d.onMouth fun m => { m with
    stored := [band7], calendar := if place = .calendar 8 then [(8, 7)] else []
    port0 := { up := true, ready := if place = .ready 0 then [7] else [] } }

theorem wit_calendar :
    let s := queued (.calendar 8)
    working s.dev = true ∧ s.dev.mouth.calendar = [(8, 7)] ∧ liveHead (s.dev.recip 7) = some copy7 ∧ heldEntry s.dev copy7 = false ∧
      (s.dev.recip 7).rate = 0 ∧ run5.dev.mouth.calendar = [] ∧ working run5.dev = true := by
  decide +kernel

theorem wit_portServe :
    let s := queued (.ready 0)
    let p : Fin 2 := 0
    working s.dev = true ∧ (s.dev.port p.val).wire = none ∧ (s.dev.port p.val).ready = [7] ∧ (s.dev.port p.val).up = true ∧
      portOf s.dev (s.dev.recip 7) = p.val ∧ (s.dev.recip 7).queue = [copy7] ∧ copy7.void = false ∧ heldEntry s.dev copy7 = false ∧
      (s.dev.key (s.dev.recip 7).keySlot).kind = 1 ∧ storedAt s.dev copy7.stream copy7.seq = some band7 ∧
      hostRecord s.dev = false := by
  decide +kernel

theorem wit_reports :
    let s := (queued .idle).onDev fun d =>
      withRegs d [(rMouthRing 2 8, 4096), (rMouthRing 2 0x10, 64), (rMs 5 oMsCfg, word (2 ^ 62 + 6000 * 2 ^ 16))]
    let r : Fin 16384 := 7
    let h := word (4 * 2 ^ 40 + 60 * 2 ^ 48)
    working s.dev = true ∧ (s.dev.recip r.val).valid = true ∧ (s.dev.key (s.dev.recip r.val).keySlot).kind = 1 ∧
      (s.dev.port (portOf s.dev (s.dev.recip r.val))).up = true ∧ regFld s.dev (rMouthRing 2 8) 31 0 ≠ 0 ∧
      regFld s.dev (rMouthRing 2 0x18) 31 0 % regFld s.dev (rMouthRing 2 8) 31 0 ≠
        regFld s.dev (rMouthRing 2 0x10) 31 0 % regFld s.dev (rMouthRing 2 8) 31 0 ∧
      fld h 47 40 = 4 ∧ (s.dev.port (fld h 38 38)).up = true ∧ srcUdp s.dev 5 ≠ 0 ∧ srcUdp (queued .idle).dev 5 = 0 ∧
      working (queued .idle).dev = true ∧ (s.dev.port (fld h 38 38)).wire = none := by
  decide +kernel

/-- A frame of an Ethernet type and payload, from MAC 2 to MAC 1, with its FCS. -/
def ethernet (type : Nat) (payload : List Byte) : List Byte :=
  let body := natBytesBE 6 1 ++ natBytesBE 6 2 ++ natBytesBE 2 type ++ payload
  body ++ fcs body
/-- A frame with an IPv4 datagram to a port, without a UDP checksum. -/
def datagram4 (port : Nat) (payload : List Byte) : List Byte :=
  ethernet 0x0800 ([0x45, 0] ++ natBytesBE 2 (28 + payload.length) ++ [0, 0, 0, 0, 64, 17, 0, 0, 10, 0, 0, 7, 10, 0, 0, 1] ++
    natBytesBE 2 40001 ++ natBytesBE 2 port ++ natBytesBE 2 (8 + payload.length) ++ [0, 0] ++ payload)
def syncMessage : List Byte := [0, 2, 0, 44] ++ List.replicate 24 0 ++ [0, 1, 0, 9, 0, 0] ++ List.replicate 14 0
def framesState : State :=
  ((queued .idle).onDev fun d => withRegs d [(rMs 5 oMsCfg, word (2 ^ 62 + 6000 * 2 ^ 16))]).onDev fun d =>
    let d := (d.setKey 4 { kind := 1, material := 5 }).onRecip 7 fun x => { x with learn := false }
    { d with ptp := { d.ptp with masters := [{ port := 1, gm := 3, rank := 0, heard := 0 }], path := some 0 } }
def pliPacket : List Byte := [0x81, 206, 0, 2, 0, 0, 0, 77, 0, 0, 0, 1]

theorem wit_frames_sync :
    let s := framesState
    let q : Profile := { epoch := 2, pacingEn := false, tableSet := 0, expect := [], pacing := [] }
    let u := s.onDev fun d => { d with fleet := { d.fleet with armed := some 0, staged := some q } }
    let p : Fin 2 := 0
    let m := syncMessage
    working s.dev = true ∧ (s.dev.port p.val).up = true ∧ parseFrame (ethernet 0x88F7 m) = .ptp m ∧
      regFld s.dev rPtpStatus 62 62 = p.val ∧ netNum m 4 1 = regFld s.dev rMouthCtrl 39 32 ∧ netNum m 1 1 % 16 = 2 ∧ 44 ≤ m.length ∧
      ptpType m = 0 ∧ bit (word (netNum m 6 1)) 1 = false ∧ (bestMaster s.dev.ptp.masters).map (fun b => b.port) = some (ptpFrom m) ∧
      s.dev.ptp.path = some 0 ∧ s.dev.ptp.heardOn = p.val ∧ s.dev.fleet.armed = none ∧ working u.dev = true ∧ u.dev.fleet.armed = some 0 ∧
      u.dev.fleet.staged = some q ∧ 0 ≤ fleetTime (ptpSync u.dev 100 3) ∧ setNeeded u.dev q.tableSet = false := by
  decide +kernel

theorem wit_frames_feedback :
    let s := framesState
    let packet := srtcpSeal 5 0 pliPacket
    let g : Datagram := { src := { ipv6 := false, addrHi := 0x0A000007, addrLo := 0, udp := 40001, mac := 2 }, dstUdp := 6000, payload := packet }
    parseFrame (datagram4 6000 packet) = .datagram g ∧ feedbackStream s.dev g.dstUdp (rtcpPt g.payload) = some 5 ∧
      ¬ (g.dstUdp = 319 ∨ g.dstUdp = 320) ∧ sentBy s.dev 5 g.payload = some 7 ∧ openFeedback s.dev 7 g.payload = some pliPacket ∧ (s.dev.recip 7).learn = false ∧
      ((rtcpItems pliPacket.length pliPacket).any fun i => i.2 == .other) = false ∧
      rtcpItems pliPacket.length pliPacket = [(1, .pli)] := by
  decide +kernel

theorem wit_frames_uplink :
    let b : Binding :=
      { e0 := true, e1 := false, ipv6 := false, anySsrc := false, pt := 96, dstUdp := 5000, ssrc := 9, reorderPkts := 32
        reorderUs := 20000, keySlot := 9 }
    let s := framesState.onDev fun d => (d.setCtx 2 { phase := .running, network := true, binding := some b }).setKey 9 { kind := 2, material := 6 }
    let header : List Byte := [0x80, 96, 0, 3, 0, 0, 0, 8, 0, 0, 0, 9]
    let bs := srtpSeal 6 9 3 header [0x10, 1, 2, 3]
    let p : Fin 2 := 0
    let src : Source := { ipv6 := false, addrHi := 0x0A000007, addrLo := 0, udp := 40001, mac := 2 }
    parseFrame (datagram4 5000 bs) = .datagram { src := src, dstUdp := 5000, payload := bs } ∧ feedbackStream s.dev 5000 (rtcpPt bs) = none ∧
      boundCtx s.dev p.val 5000 false = some 2 ∧ (s.dev.ctx 2).binding = some b ∧ (s.dev.ctx 2).phase = .running ∧
      rtpSupported bs = true ∧ netNum bs 1 1 % 128 = b.pt ∧ netNum bs 8 4 = b.ssrc ∧
      openWith s.dev b.keySlot 2 (fun m => srtpOpen m b.ssrc (indexNear (s.dev.key b.keySlot) (netNum bs 2 2))
        (bs.take (rtpHeaderLength bs)) (bs.drop (rtpHeaderLength bs))) = some [0x10, 1, 2, 3] ∧
      formatOk (s.dev.ctx 2).codec [0x10, 1, 2, 3] = true := by
  decide +kernel

theorem wit_mouthTimers :
    let b : Binding :=
      { e0 := true, e1 := false, ipv6 := false, anySsrc := true, pt := 96, dstUdp := 5000, ssrc := 0, reorderPkts := 32
        reorderUs := 20000, keySlot := 9, nextRtp := some 1, window := [(3, true, 0, [])] }
    let s := acked.onDev fun d =>
      ((d.setCtx 2 { phase := .running, network := true, binding := some b }).setKey 9 { kind := 2, material := 1, graceUntil := some 7 }).onRecip 7
        fun x => { x with learned0 := [{ valid := true }] }
    let r : Fin 16384 := 7
    let k : Fin 4 := 0
    let c : Fin 96 := 2
    working s.dev = true ∧ (s.dev.ctx c.val).binding = some b ∧ b.window ≠ [] ∧ (s.dev.recip r.val).valid = true ∧
      (s.dev.recip r.val).reports = true ∧ (s.dev.recip r.val).silent = false ∧ regFld s.dev (rPort 0 0x28) 31 0 ≠ 0 ∧
      ((learnedOf (s.dev.recip r.val) 0).getD k.val {}).valid = true ∧ (s.dev.key (9 : Fin 20480).val).graceUntil = some 7 := by
  decide +kernel

/-- Two graces run in slot 9, the older one the earlier. -/
theorem wit_graceEnd :
    let s := live.onDev fun d => d.setKey 9 { kind := 2, material := 3, old := 2, graceUntil := some 7, older := [(1, 4)] }
    let x := s.dev.key (9 : Fin 20480).val
    let ends := x.graceUntil.toList ++ x.older.map fun o => o.2
    working s.dev = true ∧ 4 ∈ ends ∧ (∀ e ∈ ends, 4 ≤ e) ∧ x.graceUntil ≠ some 4 := by
  decide +kernel

theorem wit_frames_bad :
    let s := framesState
    let p : Fin 2 := 0
    working s.dev = true ∧ (s.dev.port p.val).up = true ∧ parseFrame [] = .bad false ∧
      parseFrame (ethernet 0x8808 ([0, 1, 0, 9] ++ List.replicate 42 0)) = .pause := by
  decide +kernel

theorem wit_ptp :
    let s := live.onDev fun d => { d with ptp := { locked := true } }
    alive s.dev = true ∧ s.dev.ptp.locked = true := by
  decide +kernel

/-- Buffer 3 of pool 1 is cut off, with this stamp. -/
def cut3 (stamp : Nat) : State := live.onDev fun d => (advance d 250000000).onMouth fun m =>
  { m with lost := [(1, 3, 3)], stamps := m.stamps.set 0 (stampKey 1 3) stamp }

theorem wit_auditor :
    let held := live.onDev fun d => d.onMouth fun m => { m with stored := [{ band7 with bufs := [(0, 3)] }] }
    working live.dev = true ∧ 3 < poolSize live.dev 0 ∧ poolSize live.dev 0 ≤ 4294967295 ∧ cutOff live.dev 0 3 = false ∧
      inUse live.dev 0 3 = false ∧ linkBroken live.dev 0 3 = false ∧ (0 : Word) ≠ linkWord live.dev 0 3 ∧ working held.dev = true ∧
      cutOff held.dev 0 3 = false ∧ inUse held.dev 0 3 = true ∧
      (∀ k ∈ [0, 1, 250000000], working (cut3 k).dev = true ∧ 3 < poolSize (cut3 k).dev 1 ∧ cutOff (cut3 k).dev 1 3 = true) ∧
      (cut3 0).dev.mouth.stamps.get 0 (stampKey 1 3) = 0 ∧ (cut3 1).dev.mouth.stamps.get 0 (stampKey 1 3) + 250000000 ≤ (cut3 1).dev.now + 1 ∧
      (cut3 250000000).dev.now + 1 < (cut3 250000000).dev.mouth.stamps.get 0 (stampKey 1 3) + 250000000 := by
  decide +kernel

/-! ### Recipients and queues -/

/-- Ranges of transmit, receive and Vein slots are enabled; stream 5 runs with a source port. -/
def policed : State := acked.onDev fun d => withRegs d
  [ (rKeyPolicy 0, word (2 ^ 63 + 2 ^ 60 + 255 * 2 ^ 52 + 4096 * 2 ^ 39 + 9999 * 2 ^ 16))
  , (rKeyPolicy 1, word (2 ^ 63 + 2 * 2 ^ 60 + 255 * 2 ^ 52 + 2 ^ 39 + 19999 * 2 ^ 16 + 10000))
  , (rKeyPolicy 2, word (2 ^ 63 + 3 * 2 ^ 60 + 255 * 2 ^ 52 + 2 ^ 39 + 20479 * 2 ^ 16 + 20000)), (rMs 5 oMsCfg, word (2 ^ 62 + 6000 * 2 ^ 16)) ]

def recipWords (ssrc rate : Nat) : List Word :=
  [ word (5 * 2 ^ 55 + 2 ^ 51 + 2 ^ 41 + 4 * 2 ^ 16 + 5004), 0x0A000002, 0, 1, 0, word (ssrc * 2 ^ 32), word (rate * 2 ^ 32 + 1024) ]

theorem wit_recipAdd :
    let p := mkPkt 0x0601 0 (hdrOf 7 8) (recipWords 78 64)
    let x := newRecip policed.dev p
    takesNow p policed ∧ hdrBadOpen p 7 16384 = false ∧ notOwner p (policed.dev.streamOwner x.stream) = false ∧
      addTarget policed.dev p = some 8 ∧ recipGranted policed.dev 0 8 x.stream true = true ∧
      keyGranted policed.dev 0 x.keySlot true = true ∧ addBad policed.dev p 8 = false ∧
      (recipsOf policed.dev x.stream).length < 4096 := by
  unfold takesNow; decide +kernel

theorem wit_recipCommands :
    (let p := mkPkt 0x0602 0 (hdrOf 0 7) []; takesNow p policed ∧ entryGo p policed 0) ∧
    (let p := mkPkt 0x0604 0 (hdrOf 1 16383) [3]
     takesNow p policed ∧ hdrBad p 1 16384 = false ∧ notOwner p (policed.dev.streamOwner (policed.dev.recip p.target).stream) = false ∧
       recipGranted policed.dev 0 p.target (policed.dev.recip p.target).stream false = true ∧ within (p.w 1) (ones 1 0) = true) ∧
    (let p := mkPkt 0x0605 0 (hdrOf 1 7) [ones 23 18]; takesNow p policed ∧ entryGo p policed 1 ∧ within (p.w 1) (ones 23 18) = true) ∧
    (let p := mkPkt 0x0606 0 (hdrOf 1 7) [1]; takesNow p policed ∧ entryGo p policed 1 ∧ within (p.w 1) 1 = true) := by
  unfold takesNow entryGo; decide +kernel

theorem wit_recipModify :
    (let p := mkPkt 0x0603 0 (hdrOf 7 7) (recipWords 77 64)
     takesNow p policed ∧ entryGo p policed 7 ∧ keyGranted policed.dev 0 (fld (p.w 1) 31 16) true = true ∧
       modifyBad policed.dev p.target (fun w => p.w (w + 1)) = false ∧
       (withWords (policed.dev.recip p.target) fun w => p.w (w + 1)).rate = (policed.dev.recip p.target).rate) ∧
    (let p := mkPkt 0x0603 0 (hdrOf 7 7) (recipWords 77 65)
     takesNow p policed ∧ entryGo p policed 7 ∧ modifyBad policed.dev p.target (fun w => p.w (w + 1)) = false ∧
       (policed.dev.recip p.target).rate ≠ (withWords (policed.dev.recip p.target) fun w => p.w (w + 1)).rate) := by
  unfold takesNow entryGo; decide +kernel

theorem wit_recipCmd :
    let s := policed.onDev fun d => withRegs d (((List.range 7).zip (recipWords 77 64)).map fun x => (rRecipData x.1, x.2))
    let r : Fin 16384 := 7
    recipCmdGo 0 r.val s true ∧ recipCmdGo 0 r.val s false ∧ (s.dev.recip r.val).valid = true ∧
      keyGranted s.dev 0 (fld (reg s.dev (rRecipData 0)) 31 16) true = true ∧
      modifyBad s.dev r.val (fun w => reg s.dev (rRecipData w)) = false := by
  unfold recipCmdGo; decide +kernel

theorem wit_recipCmdBusy :
    let s := policed.onDev fun d => setReg d rRecipStatus (word (2 ^ 63))
    alive s.dev = true ∧ barGranted s.dev 0 rRecipCmd true = true ∧ regBit s.dev rRecipStatus 63 = true := by
  decide +kernel

theorem wit_queueCommands :
    let s := policed.onDev fun d => d.setCtx 2 { phase := .running, network := true }
    (let p := mkPkt 0x0620 0 (hdrOf 3 2) [word (2 ^ 63 + 96 * 2 ^ 48 + 7000 * 2 ^ 32), 100000, 20479]
     takesNow p s ∧ ctxGo p s 3 ∧ bindBad s.dev p = false) ∧
    (let p := mkPkt 0x0621 0 (hdrOf 0 2) []; takesNow p s ∧ ctxGo p s 0) ∧
    (let p := mkPkt 0x0622 0 (hdrOf 1 5) [word (2 ^ 63 + 2 ^ 62 + 7 * 2 ^ 32)]
     takesNow p s ∧ hdrBad p 1 192 = false ∧ streamOff s.dev p = false ∧ within (p.w 1) (ones 63 62 ||| ones 45 32) = true ∧
       p.b 1 62 = true ∧ detached s.dev p = false ∧ p.b 1 63 = true ∧ s.dev.mouth.mirrors.any (sameMirror (mirrorOf p)) = false ∧
       s.dev.mouth.mirrors.length < 16) ∧
    (let p := mkPkt 0x0623 0 (hdrOf 2 5) [word (5 * 2 ^ 58 + 6 * 2 ^ 54 + 96 * 2 ^ 45 + 6002 * 2 ^ 16), 0]
     takesNow p s ∧ streamGo p s 2 ∧ queueStreamBad s.dev p = false) := by
  unfold takesNow ctxGo streamGo; decide +kernel

/-! ### Keys and Vein -/

/-- The wrap under KEK 1 of the key 00 01 … 1F with a salt of zeros, made by hand from RFC 5649. -/
def wrapped : List Word :=
  [ 0xbadc76d97c051c5b, 0xc8fe857f8b78bef1, 0x060463d750aa3694, 0xcaee3750a4eb596d, 0x45c0e13e0fee17b7, 0x2d6085c2d3d9c7a7
  , 0xbab826f7a0f29ee6 ]

def keyed : State := policed.onDev fun d =>
  { (d.setKey 4 { kind := 1, material := 5, keyId := 1 }).setKey 10000 { kind := 2, material := 6, keyId := 1 } with keks := [(2, some 1)] }

theorem test_unwrap_rfc5649 :
    unwrapPad 1 wrapped 44 = some (0x000102030405060708090a0b0c0d0e0f101112131415161718191a1b1c1d1e1f * 2 ^ 96) := by
  decide +kernel

/-- The wrap of the key 00 01 … 1F under the wrapping key of the ECDH secret 77 and index 7, made by hand from RFC 5869 and RFC 3394. -/
def wrappedKek : List Word :=
  [0xe69e57bf8753ee18, 0xa1299943d73c2a6a, 0x8533252f3dad64d3, 0x45c4e700a776771d, 0x1513754ea347ef7b]

theorem wit_keyKek :
    let p := mkPkt 0x0701 0 (hdrOf 18 0) (7 :: List.replicate 12 0 ++ wrappedKek) none (some 77)
    takesNow p keyed ∧ hdrBad p 18 1 = false ∧ within (p.w 1) (ones 2 0) = true ∧
      kekUnwrapped p = some 0x000102030405060708090a0b0c0d0e0f101112131415161718191a1b1c1d1e1f := by
  unfold takesNow; decide +kernel

theorem wit_keyLoad :
    let p := mkPkt 0x0702 0 (hdrOf 10 9999) (word (2 ^ 60 + 2 * 2 ^ 57) :: 1 :: 0 :: wrapped)
    takesNow p keyed ∧ hdrBad p 10 20480 = false ∧ keyGranted keyed.dev 0 p.target true = true ∧
      policyAdmits keyed.dev p.target (p.f 1 63 60) (p.f 1 59 57) = true ∧ (keyed.dev.key p.target).kind = 0 ∧
      keyWordsOk keyed.dev p = true ∧ (unwrapped keyed.dev p).isSome = true := by
  unfold takesNow; decide +kernel

theorem wit_keyRoll :
    let p := mkPkt 0x0703 0 (hdrOf 11 4) (word (2 ^ 60 + 2 * 2 ^ 57) :: 1 :: 0 :: wrapped ++ [10000])
    let q := mkPkt 0x0703 0 (hdrOf 11 10000) (word (2 * 2 ^ 60 + 2 * 2 ^ 57) :: 1 :: 0 :: wrapped ++ [0])
    takesNow p keyed ∧ hdrBad p 11 20480 = false ∧ keyGranted keyed.dev 0 p.target true = true ∧
      policyAdmits keyed.dev p.target (p.f 1 63 60) (p.f 1 59 57) = true ∧ keyWordsOk keyed.dev p = true ∧
      (unwrapped keyed.dev p).isSome = true ∧ within (p.w 11) (ones 31 0) = true ∧ p.f 11 31 0 ≤ 10000 ∧
      (keyed.dev.key p.target).kind = p.f 1 63 60 ∧ (keyed.dev.key p.target).kind = 1 ∧
      takesNow q keyed ∧ hdrBad q 11 20480 = false ∧ keyGranted keyed.dev 0 q.target true = true ∧
      policyAdmits keyed.dev q.target (q.f 1 63 60) (q.f 1 59 57) = true ∧ keyWordsOk keyed.dev q = true ∧
      (unwrapped keyed.dev q).isSome = true ∧ (keyed.dev.key q.target).kind = q.f 1 63 60 ∧ (keyed.dev.key q.target).kind = 2 := by
  unfold takesNow; decide +kernel

theorem wit_keyQueries :
    (let p := mkPkt 0x0704 0 (hdrOf 0 4) []; takesNow p keyed ∧ hdrBad p 0 20480 = false ∧ keyGranted keyed.dev 0 p.target true = true) ∧
    (let p := mkPkt 0x0705 0 (hdrOf 0 20479) []
     takesNow p keyed ∧ hdrBad p 0 20480 = false ∧ keyGranted keyed.dev 0 p.target false = true) := by
  unfold takesNow; decide +kernel

theorem wit_vein :
    let s := keyed.onDev fun d => d.setKey 20448 { kind := 3, material := 1, keyId := 9 }
    (let p := mkPkt 0x0710 0 (hdrOf 1 5) [word (2 ^ 63 + 2 * 2 ^ 56 + 8 * 2 ^ 52 + 8 * 2 ^ 48 + 20448 * 2 ^ 32 + 7)]
     takesNow p s ∧ streamGo p s 1 ∧ veinOk s.dev p = true ∧
       (s.dev.stream p.target).load < veinLoad (s.dev.stream p.target) (veinOf (s.dev.stream p.target) p) ∧
       veinFits s.dev p.target (veinLoad (s.dev.stream p.target) (veinOf (s.dev.stream p.target) p)) = true) ∧
    (let p := mkPkt 0x0711 0 (hdrOf 2 5) [0, word (65536 * 2 ^ 32 + 1)]
     takesNow p s ∧ streamGo p s 2 ∧ ringWordsOk (p.w 1) (p.w 2) 16 65536 = true) ∧
    (let p := mkPkt 0x0712 0 (hdrOf 0 5) []
     takesNow p s ∧ hdrBad p 0 192 = false ∧ notOwner p (s.dev.streamOwner p.target) = false) := by
  unfold takesNow streamGo; decide +kernel

/-! ### Fleet, diagnosis, device commands -/

/-- The image carries two table sets; PTP time is locked. -/
def fleet0 : State := live.onDev fun d =>
  { d with boot := { d.boot with img := some { svn := 1, firmwareId := 2, patchId := 3, tableIds := [4, 5] } }, ptp := { locked := true } }

def stageWords (expect : List Word) : List Word := word (7 * 2 ^ 48 + 2 ^ 46 + 2 ^ 40 + 9) :: expect ++ List.replicate 16 0

theorem wit_fleetStage :
    let ws := stageWords (stagedDigest fleet0.dev (profileOf (mkPkt 0x0801 0 (hdrOf 21 0) (stageWords [0, 0, 0, 0]))))
    let p := mkPkt 0x0801 0 (hdrOf 21 0) ws
    takesNow p fleet0 ∧ hdrBad p 21 1 = false ∧ stageBad fleet0.dev p = false ∧
      newer (p.f 1 63 48) (regFld fleet0.dev rFleetStatus 63 48) = true := by
  unfold takesNow; decide +kernel

def profile7 : Profile := { epoch := 7, pacingEn := false, tableSet := 1, expect := [], pacing := [] }
def staged7 : State := fleet0.onDev fun d => { d with fleet := { d.fleet with staged := some profile7 } }

theorem wit_fleetActivate :
    let p := mkPkt 0x0802 0 (hdrOf 2 0) [word (7 * 2 ^ 48), 1]
    let q := mkPkt 0x0802 0 (hdrOf 2 0) [word (7 * 2 ^ 48), 0]
    let c := mkPkt 0x0804 0 (hdrOf 1 0) [word (7 * 2 ^ 48)]
    takesNow p staged7 ∧ hdrBad p 2 1 = false ∧ within (p.w 1) (ones 63 48) = true ∧ p.f 1 63 48 ≠ 0 ∧
      (p.w 2).toNat ≤ fleetTime staged7.dev + 30 * 86400 * 1000000000 ∧ staged7.dev.fleet.staged = some profile7 ∧
      profile7.epoch = p.f 1 63 48 ∧ fleetTime staged7.dev < (p.w 2).toNat ∧
      takesNow q staged7 ∧ hdrBad q 2 1 = false ∧ (q.w 2).toNat ≤ fleetTime staged7.dev ∧
      setNeeded staged7.dev profile7.tableSet = false ∧
      takesNow c staged7 ∧ hdrBad c 1 1 = false ∧ within (c.w 1) (ones 63 48) = true ∧ notStaged staged7.dev (c.f 1 63 48) = false := by
  unfold takesNow; decide +kernel

theorem wit_fleetQueryAndLanding :
    (let p := mkPkt 0x0803 0 (hdrOf 0 0) []; takesNow p fleet0 ∧ hdrBad p 0 1 = false) ∧
    (let s := staged7.onDev fun d => { d with fleet := { d.fleet with armed := some 5, digestDue := true } }
     alive s.dev = true ∧ s.dev.fleet.armed = some 5 ∧ s.dev.fleet.staged = some profile7 ∧
       setNeeded s.dev profile7.tableSet = false ∧ s.dev.fleet.digestDue = true) := by
  unfold takesNow; decide +kernel

theorem wit_diagRetire :
    let p := mkPkt 0x0901 0 (hdrOf 1 0) [25]
    takesNow p run5 ∧ hdrBad p 1 1 = false ∧ p.f 1 63 0 < 26 ∧ retired run5.dev (p.f 1 63 0) = false ∧
      canRetire run5.dev (p.f 1 63 0) = true := by
  unfold takesNow; decide +kernel

theorem wit_diagInject :
    let p := mkPkt 0x0902 0 (hdrOf 1 0) [word (1235 * 2 ^ 53 + 6 * 2 ^ 45)]
    let q := mkPkt 0x0902 0 (hdrOf 1 0) [word (1234 * 2 ^ 53 + 8 * 2 ^ 45 + 2 ^ 44)]
    takesNow p live ∧ hdrBad p 1 1 = false ∧ within (p.w 1) (ones 63 43 ||| ones 31 16) = true ∧ injectClass p = some 0 ∧
      p.b 1 44 = false ∧ regBit live.dev (rCap 0 0) 63 = false ∧
      takesNow q live ∧ hdrBad q 1 1 = false ∧ within (q.w 1) (ones 63 43 ||| ones 31 16) = true ∧ injectClass q = some 2 ∧
      q.b 1 44 = true := by
  unfold takesNow; decide +kernel

theorem wit_faultrec :
    let p := mkPkt 0x0903 0 (hdrOf 1 0) [word (5 * 2 ^ 32)]
    let q := mkPkt 0x0903 0 (hdrOf 1 0) [word (2 ^ 63)]
    takesNow p live ∧ hdrBad p 1 1 = false ∧ within (p.w 1) (ones 63 63 ||| ones 34 0) = true ∧ p.b 1 63 = false ∧
      1 ≤ p.f 1 34 32 ∧ p.f 1 34 32 ≤ 5 ∧ takesNow q live ∧ hdrBad q 1 1 = false ∧
      within (q.w 1) (ones 63 63 ||| ones 34 0) = true ∧ q.b 1 63 = true ∧ regBit live.dev rFltStatus 63 = false ∧
      live.dev.roost.entries = [] ∧
      (live.dev.roost.written.filter fun t => decide (live.dev.upTime < t + 1000000000)).length < 100 := by
  unfold takesNow; decide +kernel

theorem wit_persistentEntry :
    let e : RecEntry := { kind := 1 }
    let s := live.onDev fun d => { d with roost := { d.roost with entries := [e] } }
    s.dev.roost.entries = [e] ∧ s.dev.roost.up = true ∧ s.nv.record.any (repeatsOf e) = false ∧ s.nv.record.length ≤ 1024 ∧
      (s.dev.roost.written.filter fun t => decide (s.dev.upTime < t + 1000000000)).length < 100 := by
  decide +kernel

theorem wit_deviceQueries :
    (let p := mkPkt 0x0100 0 (hdrOf 0 0) []; takesNow p live ∧ hdrBad p 0 1 = false) ∧
    (let p := mkPkt 0x0101 192 (hdrOf 0 0) []
     let s := live.onDev fun d => withRegs d [(rRing 192 oSqSize, 64), (rRing 192 oCqSize, 64), (rRing 192 oRingCtrl, word (2 ^ 63))]
     takesNow p s ∧ hdrBad p 0 1 = false) ∧
    (let p := mkPkt 0x0103 0 (hdrOf 0 0) []; takesNow p live ∧ hdrBad p 0 1 = false) := by
  unfold takesNow; decide +kernel

theorem wit_identity :
    let p := mkPkt 0x0102 0 (hdrOf 1 0) [0]
    takesNow p live ∧ hdrBad p 1 1 = false ∧ within (p.w 1) (ones 15 0) = true ∧ 240 * p.f 1 15 0 ≤ Config.certLength := by
  refine ⟨?_, by decide +kernel, by decide +kernel, ?_⟩
  · unfold takesNow; decide +kernel
  · have h : Pkt.f (mkPkt 0x0102 0 (hdrOf 1 0) [0]) 1 15 0 = 0 := by decide +kernel
    simp only [h]; exact Nat.zero_le _

theorem wit_sleep :
    let p := mkPkt 0x0104 0 (hdrOf 1 0) (withOp 1 [86400000])
    takesNow p live ∧ hdrBad p 1 1 = false ∧ within (p.w 1) (ones 63 60 ||| ones 31 0) = true ∧ p.f 1 31 0 ≤ 86400000 ∧
      anyInUse live.dev = false ∧ p.quiet = false := by
  unfold takesNow; decide +kernel

theorem wit_calibrate :
    let p := mkPkt 0x0104 0 (hdrOf 1 0) (withOp 2 [word (2 ^ 35 + 1)])
    takesNow p live ∧ hdrBad p 1 1 = false ∧ within (p.w 1) (ones 63 60 ||| ones 35 0) = true ∧ supplyWarning live.dev = false ∧
      (live.dev.calBlk 35).stage = 0 ∧ p.b 1 35 = true ∧ p.b 1 1 = false := by
  unfold takesNow; decide +kernel

theorem wit_clearFault :
    let p := mkPkt 0x0105 0 (hdrOf 1 0) [3]
    takesNow p live ∧ hdrBad p 1 1 = false ∧ within (p.w 1) (ones 1 0) = true ∧ handling live.dev = false ∧
      regBit live.dev rFltStatus 62 = false ∧ regBit live.dev rFltStatus 61 = false := by
  unfold takesNow; decide +kernel

theorem wit_resetFire :
    let s := live.onDev fun d => { d with pwr := { d.pwr with resetDue := some 100000 } }
    alive s.dev = true ∧ s.dev.pwr.resetDue = some 100000 := by
  decide +kernel

/-! ### Faults, supplies, resets, boot -/

theorem wit_collector :
    let s := live.onDev fun d =>
      { setReg d rFltAlert (word (2 ^ 63)) with flt := { pulseEnd := some 100, heartbeatAt := some 50 } }
    busGo 0xF3 rFltHeartbeat s ∧ isGuide 0xF3 = true ∧ coreRuns s.dev 0xF3 = true ∧ s.dev.flt.heartbeatAt = some 50 ∧
      s.dev.flt.pulseEnd = some 100 ∧ busGo 0 rFltCtrl s ∧ busGo 0 (rCap (3 : Fin 4).val 0) s ∧ alertLow s.dev = true := by
  unfold busGo; decide +kernel

theorem wit_takeover :
    let s := live.onDev fun d => { d with guide := { d.guide with takeoverAt := some 3 } }
    alive live.dev = true ∧ live.dev.guide.pairA = true ∧ live.dev.guide.pairB = true ∧ alive s.dev = true ∧
      s.dev.guide.takeoverAt = some 3 ∧ s.dev.guide.moves = [] ∧ s.dev.pwr.warnAt = none := by
  decide +kernel

theorem wit_supply :
    let s := live.onDev fun d => { d with pwr := { d.pwr with vinWarn := true, warnAt := some 5, stableAt := some 9 } }
    let t := live.onDev fun d => { d with pwr := { d.pwr with coreWarn := true } }
    alive live.dev = true ∧ supplyWarning live.dev = false ∧ 0 < warnLevel 0 ∧ 0 < warnLevel 1 ∧ alive s.dev = true ∧
      s.dev.pwr.vinWarn = true ∧ s.dev.pwr.coreWarn = false ∧ t.dev.pwr.coreWarn = true ∧ t.dev.pwr.vinWarn = false ∧
      stopped s.dev = false ∧ s.dev.pwr.warnAt = some 5 ∧ s.dev.pwr.moved = false ∧ s.dev.guide.takeoverAt = none ∧
      s.dev.pwr.stableAt = some 9 ∧ alive t.dev = true := by
  decide +kernel

def inReset (kind : Nat) (p : Pwr := {}) : State :=
  { dev := { pwr := { p with die := .reset, resetKind := kind } } }

theorem wit_leave :
    let down : State := { dev := { pwr := { die := .unpowered }, roost := { up := false } } }
    let held : State := { dev := { roost := { grave := true } } }
    let slept : State := { dev := { pwr := { die := .asleep, wakeDue := some 4 } } }
    down.dev.roost.up = false ∧ down.dev.roost.grave = false ∧ down.dev.pwr.die = .unpowered ∧ 10800 ≤ down.dev.pwr.vin ∧
      down.dev.pwr.perst = true ∧ (inReset 4).dev.pwr.die = .reset ∧ (inReset 4).dev.pwr.resetKind = 4 ∧
      (inReset 4).dev.pwr.backAt = none ∧ (inReset 4).dev.roost.grave = false ∧ State.reset.dev.pwr.die = .waiting ∧
      State.reset.dev.roost.grave = false ∧ (inReset 2).dev.pwr.resetKind = 2 ∧ (inReset 2).dev.pwr.bootMode ≠ 3 ∧
      (inReset 2).dev.pwr.perst = true ∧ (inReset 2 { perst := false }).dev.pwr.perst = false ∧ held.dev.roost.grave = true ∧
      slept.dev.pwr.die = .asleep ∧ slept.dev.pwr.wakeDue = some 4 ∧ slept.dev.pwr.perst = true := by
  decide +kernel

theorem wit_wake :
    let s : State := { dev := { pwr := { die := .asleep }, roost := { wakeSet := [(1255, 0)] } } }
    let t := live.onDev fun d => withRegs d [(rEq 0 oEqCtrl, word (2 ^ 63)), (rPwrStatus, word (2 ^ 61))]
    railsDown live.dev = false ∧ s.dev.pwr.die = .asleep ∧ s.dev.roost.up = true ∧ s.dev.pwr.perst = true ∧
      (s.dev.roost.wakeRecs.any fun r => r.1 == 1255) = false ∧ (1255, 0) ∈ s.dev.roost.wakeSet ∧ senseTakes 1255 0 1 = true ∧
      ready t.dev = true ∧ regBit t.dev (rEq 0 oEqCtrl) 63 = true ∧ regBit t.dev rPwrStatus 61 = true ∧
      regBit live.dev rPwrStatus 61 = false ∧ regFld live.dev rPwrCtrl 63 56 ≤ 104 := by
  decide +kernel

/-- The boot ROM waits for an image, or verifies one. -/
def booting (state mode : Nat) (recovery : Bool := false) : State :=
  { dev := setReg { pwr := { die := .running, bootMode := mode }, boot := { recovery := recovery } } rBootStatus (word (state * 2 ^ 60)) }

def image (error : Nat) : ImageResult :=
  { error := error, svn := 1, keyIndex := 0, raisesSvn := true, firmwareId := 2, patchId := 3, matchRegs := [], patchRam := [], badPatch := []
    tableIds := [4], policy := [], access := none }

theorem wit_boot :
    busGo 0 rBootImage (booting 1 0) ∧ bootState (booting 1 0).dev = 1 ∧ fromPcie (booting 1 0).dev = true ∧
      alive (booting 2 0).dev = true ∧ bootState (booting 2 0).dev = 2 ∧ imageError (booting 2 0) (image 0) = 0 ∧
      imageError (booting 2 0) (image 1) ≠ 0 ∧ (booting 2 0).dev.boot.recovery = false ∧ (booting 2 0).dev.pwr.bootMode = 0 ∧
      imageError (booting 2 2) (image 5) ≠ 0 ∧ (booting 2 2).dev.pwr.bootMode ≠ 0 ∧ bootState (booting 2 2).dev = 2 ∧
      imageError (booting 2 0 true) (image 3) ≠ 0 ∧ (booting 2 0 true).dev.boot.recovery = true ∧ fromSmbus (booting 1 1).dev = true ∧
      bootState (booting 1 1).dev = 1 ∧ alive (booting 1 1).dev = true ∧ fromPcie (booting 1 1).dev = false := by
  unfold busGo; decide +kernel

theorem wit_calPairs :
    let at2 := live.onDev fun d => d.setCal 35 { stage := 2 }
    let at3 := live.onDev fun d => d.setCal 35 { stage := 3, startAt := 1000000 }
    let on := live.onDev fun d => setReg d rPwrCtrl (word (2 * 2 ^ 48 + 2 ^ 47))
    ready on.dev = true ∧ (on.dev.calBlk 0).stage = 0 ∧ regBit on.dev rPwrCtrl 47 = true ∧
      16 * regFld on.dev rPwrCtrl 55 48 < (33 - signedOf 16 (regFld on.dev (rCal 0 0) 47 32)).natAbs ∧
      alive at2.dev = true ∧ (at2.dev.calBlk 35).again = false ∧ (at2.dev.calBlk 35).stage = 2 ∧
      (at3.dev.calBlk 35).again = false ∧ (at3.dev.calBlk 35).stage = 3 ∧ at3.dev.boot.pairs.contains 35 = false := by
  decide +kernel

/-! ### Rings, PCIe, Shaft, memory controller, events, registers -/

theorem wit_ringEnable :
    let off := live.onDev fun d => withRegs d [(rRing 192 oSqSize, 64), (rRing 192 oCqSize, 64)]
    let geom := fun s : State => ringGeometryOk (reg s.dev (rRing 192 oSqBase)) (reg s.dev (rRing 192 oSqSize)) &&
      ringGeometryOk (reg s.dev (rRing 192 oCqBase)) (reg s.dev (rRing 192 oCqSize))
    busGo 0 (rRing 192 oRingCtrl) off ∧ ringEnabled off.dev 192 = false ∧ geom off = true ∧ geom live = false ∧
      busGo 0 (rRing 0 oRingCtrl) live ∧ ringEnabled live.dev 0 = true ∧ busGo 0 (rRing 192 oSqTail) off ∧
      ringHalted live.dev 0 = false ∧ stopped live.dev = false := by
  unfold busGo; decide +kernel

theorem wit_mctp :
    let s := booting 1 0
    s.dev.roost.up = true ∧ ready s.dev = false ∧ stopped s.dev = false ∧ mctpOutstanding s.dev < 8 := by
  decide +kernel

theorem wit_mctpBytes :
    ([] : List Word).length = fld (0x0101000000000000 : Word) 47 43 ∧ 4096 < two32 ∧
      ([] : List Byte).take 3 ≠ [0x7E] ++ natBytesBE 2 Config.vendorId := by
  refine ⟨by decide, by decide, by simp⟩

/-- Channel 5 runs a chain of frame 9. -/
def chain9 : Chain := { owner := 6, frame := 9, headDone := true, next := 32 }
def shaft5 (c : Chan) : State := run5.onDev fun d =>
  (withRegs d [(rShaftCtrl, word (2 ^ 63)), (rWinAssign 0, word (2 ^ 63 + 6))]).setChan 5 c

def lumaRows : List Word := [word (2 ^ 60 + 2 * 2 ^ 16 + 640), 4096, word (640 * 2 ^ 32), 64]

theorem wit_shaftStart :
    let s := shaft5 { chain := some chain9 }
    let t := shaft5 { queue := [(64, 6)] }
    let h : List Word := [0, 0, 9, 32]
    working s.dev = true ∧ regBit s.dev rShaftCtrl 63 = true ∧ (s.dev.chans.any fun e => e.2.desc.isSome) = false ∧
      waits s.dev 5 lumaRows = false ∧ nextOk lumaRows = true ∧ (s.dev.chan 5).chain = some chain9 ∧ dType lumaRows ≠ 0 ∧
      chain9.next % 32 = 0 ∧ bodyOk s.dev 5 chain9.frame lumaRows = true ∧
      working t.dev = true ∧ (t.dev.chans.any fun e => e.2.desc.isSome) = false ∧ waits t.dev 5 h = false ∧ nextOk h = true ∧
      (t.dev.chan 5).chain = none ∧ (t.dev.chan 5).queue = (64, 6) :: [] ∧ dType h = 0 ∧ headOk 5 h = true ∧ dLast h = false ∧
      1 < regFld t.dev (rCh 5 oChCtrl) 63 48 ∧ regBit t.dev (rLan 5 oLanRows) 0 = false := by
  decide +kernel

theorem wit_shaftComplete :
    let s := shaft5 { chain := some chain9, desc := some lumaRows }
    let p : Plane := { rows := 360, bytes := 640, pitch := 768, base := 0 }
    working s.dev = true ∧ (s.dev.chan 5).chain = some chain9 ∧ (s.dev.chan 5).desc = some lumaRows ∧ dType lumaRows = 1 ∧
      dPlane lumaRows = 0 ∧ planeOf s.dev 5 chain9.frame lumaRows = some p ∧ dBytes lumaRows ≤ p.pitch ∧ dRows lumaRows = 2 ∧
      (∀ k < 2, memGranted s.dev 0xF8 (p.base + (dFirst lumaRows + k) * p.pitch) (dBytes lumaRows) true = true ∧
        memGranted s.dev chain9.owner (p.base + (dFirst lumaRows + k) * p.pitch) (dBytes lumaRows) true = true) := by
  decide +kernel

theorem wit_shaftPost :
    let full := shaft5 { queue := [(0, 6), (0, 6), (0, 6), (0, 6)] }
    busGo 0 (rCh 4 oChPost) full ∧ targetOff full.dev 4 = true ∧ busGo 0 (rCh 5 oChPost) full ∧ targetOff full.dev 5 = false ∧
      4 ≤ (full.dev.chan 5).queue.length ∧ (run5.dev.chan 5).queue.length < 4 ∧ targetOff run5.dev 5 = false ∧
      busGo 0 (rCh 287 oChCtrl) full ∧ chCtrlOk full.dev 287 (word (2 ^ 48)) = true ∧ chCtrlOk full.dev 287 0 = false := by
  unfold busGo; decide +kernel

theorem wit_pcie :
    let s := shaft5 { chain := some chain9 }
    alive s.dev = true ∧ (s.dev.chan 5).chain.isSome = true ∧ (true && (s.dev.chan 5).desc.isSome) = false ∧
      timeoutRange (0 : Fin 16).val ≠ none ∧ timeoutRange (15 : Fin 16).val = none ∧
      memGranted s.dev 0 ((reg s.dev rPcieBar2Offset).toNat + 0) [(7 : Byte)].length true = true ∧
      linkAt s.dev ((reg s.dev rPcieBar2Offset).toNat + 0) = none ∧ 0 + 1 ≤ bar2Size s.dev ∧
      memGranted s.dev 0 ((reg s.dev rPcieBar2Offset).toNat + 64424509440) 1 false = false := by
  decide +kernel

theorem wit_memory :
    let s := ctx2
    alive s.dev = true ∧ (s.dev.ctx 2).phase ≠ .free ∧ (1 : Fin 4).val ≠ 0 ∧
      s.dev.memc.promoted.find? (sameRequest 0 1 0 0) = none := by
  decide +kernel

theorem wit_events :
    let s := live.onDev fun d =>
      (withRegs { d with activeFn := [(1236, 1)] } [(rEq 0 oEqSize, 256), (rEq 1 oEqBase, 4095), (rFltStatus, 0)]).setEqx 0 { since := 3 }
    let v := word (2 ^ 63 + 2 ^ 32 + 1)
    busGo 0 (rEq 0 oEqCtrl) s ∧ fld v 47 32 ≠ 0 ∧ fld v 15 0 ≠ 0 ∧ bit v 63 = true ∧ regBit s.dev (rEq 0 oEqCtrl) 63 = false ∧
      (reg s.dev (rEq 0 oEqBase)).toNat % 4096 = 0 ∧ isPow2 (regFld s.dev (rEq 0 oEqSize) 16 0) = true ∧
      256 ≤ regFld s.dev (rEq 0 oEqSize) 16 0 ∧ ¬ (reg s.dev (rEq 1 oEqBase)).toNat % 4096 = 0 ∧ busGo 0 (rEq 1 oEqCtrl) s ∧
      busGo 0 (rEq 192 oEqHead) s ∧ busGo 0 (rEq 0 oEqCpl) s ∧ s.dev.activeFn.get 0 (fld 1236 10 0) = 0 + 1 ∧
      s.dev.activeFn.get 0 (fld 5 10 0) ≠ 0 + 1 ∧ busGo 0 (rEq 192 oFastPend) s ∧ (s.dev.eqx 0).since ≠ 0 := by
  unfold busGo; decide +kernel

theorem wit_mailbox :
    alive live.dev = true ∧ barGranted live.dev 0xF0 0x1000 true = true ∧ isGuide 0xF0 = true ∧
      barGranted live.dev 0xFF 0xFFFF8 false = true ∧ barGranted live.dev 0 0x1000 true = true ∧ isGuide 0 = false := by
  decide +kernel

theorem wit_registers :
    busGo 0 rGlbScratch live ∧ tokenPage rGlbScratch = none ∧ barGranted live.dev 0 rGlbScratch true = true ∧
      (regAt rPwrStatus).2.isSome = true ∧ ((regAt rPwrStatus).2.map fun i => i.wo) = some false ∧ rPwrStatus ≠ rIndData ∧
      barGranted live.dev 0 rPwrStatus false = true ∧ busGo 0 rGlbCntClr live ∧ clearBits rGlbCntClr = some [(0, rGlbNarrow)] ∧
      busGo 0 rSecLocks live ∧ busGo 0 (rGal 25 oUcCtrl) live ∧ busGo 0 (rLan 5 oLanCtrl) live ∧
      ((regAt (rLan 5 oLanCtrl)).2.map fun i => (i.shadow, i.rl)) = some (true, 0) ∧ mayConfigure 0 (rLan 5 oLanCtrl) = true := by
  unfold busGo; decide +kernel

/-- A captured shadow of stream 5's Lantern that meets its limits, and one that does not. -/
def shadowed (v : Word) : State := live.onDev fun d => { d with shadow := [(rLan 5 oLanSync, some v)] }

theorem wit_commitShadow :
    let pick : Nat → Bool := fun _ => true
    let s := shadowed 1
    let caps := pendingOf s.dev pick
    busGo 0 rCfgCommit s ∧ caps = [(rLan 5 oLanSync, 1)] ∧ (caps.all fun c => memberOk s.dev caps c) = true ∧
      (caps.all fun c => decide (0x400000 ≤ c.1) && decide (c.1 < 0x4C0000)) = true ∧ (caps.map fun c => c.1).Nodup ∧
      ((pendingOf (shadowed 0).dev pick).all fun c => memberOk (shadowed 0).dev (pendingOf (shadowed 0).dev pick) c) = false := by
  unfold busGo; decide +kernel

theorem wit_indirect :
    let s := live.onDev fun d => setReg d rIndAddr (word (2 * 2 ^ 56))
    let t := live.onDev fun d => setReg d rIndAddr (word (255 * 2 ^ 56))
    alive s.dev = true ∧ barGranted s.dev 0 rIndData false = true ∧ indOk 2 0 0 = true ∧ regFld s.dev rIndAddr 63 56 = 2 ∧
      busGo 0xF0 rIndData s ∧ isGuide 0xF0 = true ∧ regFld t.dev rIndAddr 63 56 = 255 ∧ indOk 255 0 0 = false ∧ busGo 0 rIndData t := by
  unfold busGo; decide +kernel

theorem wit_tap :
    let s : State := { dev := { tap := { run := 4 } } }
    s.dev.roost.up = true ∧ 4 ≤ s.dev.tap.run ∧ State.reset.dev.tap.run < 4 ∧
      ({ dev := { roost := { up := false } } } : State).dev.roost.up = false := by
  decide +kernel

theorem wit_step : live.memOk ∧ (∃ t, step live = .next t) ∧ live.pending = [] := by
  refine ⟨by unfold State.memOk; decide +kernel, ⟨_, rfl⟩, rfl⟩

/-! ### Values that the spec's rules and its named standards give -/

/-- FIPS 180-4: SHA-256 of "abc". -/
theorem test_sha256_abc :
    sha256 [0x61, 0x62, 0x63] = 0xba7816bf8f01cfea414140de5dae2223b00361a396177a9cb410ff61f20015ad := by decide +kernel

/-- FIPS 197, appendix C.3. -/
theorem test_aes256 :
    aesEncrypt 0x000102030405060708090a0b0c0d0e0f101112131415161718191a1b1c1d1e1f 0x00112233445566778899aabbccddeeff =
      0x8ea2b7ca516745bfeafc49904b496089 := by decide +kernel

/-- The check value of CRC-32C: "123456789". -/
theorem test_crc32c : crc32c [0x31, 0x32, 0x33, 0x34, 0x35, 0x36, 0x37, 0x38, 0x39] = 0xE3069283 := by decide +kernel

/-- The state that a command answers. -/
def after (o : Host.Outcome State Fault Refusal) : State := match o with | .next t => t | _ => State.reset

/-- R382, R383: opcode and TAG return, STATUS 0, PHASE 1 in the first lap; R376: one slot is passed. -/
theorem test_nop_reply :
    let t := after (exec (.deviceNop 0 (word (5 * 2 ^ 32)) []) live)
    t.dev.out = [.reply 0 0 [0] [word (0x0100 * 2 ^ 48 + 5 * 2 ^ 32 + 1)]] ∧ regFld t.dev (rRing 0 oSqHead) 15 0 = 1 := by
  decide +kernel

/-- R388: a VF that does not own the stream is refused with DENIED, STATUS 3. -/
theorem test_close_denied :
    let s := run5.onDev fun d => withRegs d [(rRing 7 oSqSize, 64), (rRing 7 oCqSize, 64), (rRing 7 oRingCtrl, word (2 ^ 63))]
    (after (exec (.streamClose 7 (hdrOf 1 5) [0]) s)).dev.out = [.reply 7 0 [0] [word (0x0202 * 2 ^ 48 + 5 * 2 ^ 16 + 3 * 2 ^ 8 + 1)]] := by
  decide +kernel

/-- R577: of a wrong COUNT and an owner that is not the issuer's, BAD_PARAM is answered. -/
theorem test_refusal_order :
    let s := run5.onDev fun d => withRegs d [(rRing 7 oSqSize, 64), (rRing 7 oCqSize, 64), (rRing 7 oRingCtrl, word (2 ^ 63))]
    (after (exec (.streamClose 7 (hdrOf 2 5) [0, 0]) s)).dev.out =
      [.reply 7 0 [0] [word (0x0202 * 2 ^ 48 + 5 * 2 ^ 16 + 2 * 2 ^ 8 + 1)]] := by
  decide +kernel

/-- R22, R390: 10 × 6 superblocks at 60 frames a second are a load of 3,600; bands of one row: 6, of 2,777,777 ns. -/
theorem test_open_load :
    let t := after (exec (.streamOpen 0 (hdrOf 9 5) openWords) open0)
    (t.dev.stream 5).load = 3600 ∧ (t.dev.rings.map fun o => o.results.getD 1 0) = [word (2777777 * 2 ^ 32 + 6)] := by
  decide +kernel

/-- The example of STREAM.OPEN in the chapter on command packets: 1080p60 in 17 bands, a load of 30,600 (R22, R390). -/
theorem test_open_example :
    let p := mkPkt 0x0201 0 (hdrOf 9 12)
      [ 0x00A02180003C0001, 0x0780043843000000, 0x0000000480000000, 0x0040500000000A00, 0x002A300000000A00, 0x003F480000000000
      , 0x00C0041001312D00, 0x000927C000E4E1C0, 0x1C08330000000000 ]
    let c := cfgOf p
    c.loadOf 0 1 = 30600 ∧ c.bands = 17 ∧ openWordsOk p = true ∧ c.ok = true ∧
      c.rateOk (c.rateOf (p.w 7) (p.w 8) (p.w 9)) = true := by
  decide +kernel

/-- R6: eight 1080p60 streams with Vein at one band in 16 do not fit a Gallery; seven and one plain stream do. -/
theorem test_vein_loads :
    let c : StreamCfg := { rateNum := 60, width := 1920, height := 1080 }
    Config.galleryCapacity < 8 * c.loadOf 1 16 ∧ 7 * c.loadOf 1 16 + c.loadOf 0 1 ≤ Config.galleryCapacity := by
  decide +kernel

/-- R47: the threshold of the last band of 360 rows is 360, with guard rows or without. -/
theorem test_threshold : cfg.threshold 0 0 = 64 ∧ cfg.threshold 32 0 = 96 ∧ cfg.threshold 32 5 = 360 := by decide

/-- R44: a token past the height counts as the height. -/
theorem test_token_height :
    let t := after (exec (.rasterToken 0 5 (word (5 * 2 ^ 56 + 9 * 2 ^ 24 + 400 * 2 ^ 8)) true) (lan5 64))
    lanRows t.dev 5 = 360 ∧ reg t.dev (rLan 5 oLanTokens) = 1 := by
  decide +kernel

/-- R44: a token of another stream is counted as ignored. -/
theorem test_token_foreign :
    let t := after (exec (.rasterToken 0 5 (word (6 * 2 ^ 56 + 9 * 2 ^ 24 + 128 * 2 ^ 8)) true) (lan5 64))
    lanRows t.dev 5 = 64 ∧ reg t.dev (rLan 5 oLanIgnored) = 1 := by
  decide +kernel

/-- R49, R42: a band's deadline lies BUDGET_US after its eligibility; 500 µs after reset. -/
theorem test_deadline :
    let s := (lan5 64).onDev fun d => setReg (advance d 1000) (rLan 5 oLanCtrl) (word (2 ^ 44 + 500 * 2 ^ 16))
    (((after (exec (.bandEligible 5) s)).dev.stream 5).bands.map fun b => b.deadline) = [501000] := by
  decide +kernel

/-- R472: an error counter sticks at 0xFFFF_FFFF. -/
theorem test_error_counter_sticks : fld (errAdd (word 0xFFFFFFFF) 1) 31 0 = 0xFFFFFFFF ∧ errAdd 4 1 = 5 := by decide +kernel

/-- R549: the reset values of `GLB_ID` and of `LANTERN_CTRL`. -/
theorem test_reset_values :
    reg State.reset.dev rGlbId = word 0x0192B10100000000 ∧ regFld State.reset.dev (rLan 191 oLanCtrl) 31 16 = 500 := by decide +kernel

/-- R546: a narrow write changes nothing but `GLB_NARROW`. -/
theorem test_narrow_write :
    let t := after (exec (.registerWrite 0 rGlbScratch 7 false) live)
    reg t.dev rGlbScratch = 0 ∧ reg t.dev rGlbNarrow = 1 := by
  decide +kernel

/-- R431, R439: a VF is denied the scratch register, and the denial is counted. -/
theorem test_denied_write :
    let t := after (exec (.registerWrite 9 rGlbScratch 7 true) live)
    reg t.dev rGlbScratch = 0 ∧ reg t.dev rAccDenied = 1 ∧ regFld t.dev rAccLastDeny 63 56 = 9 := by
  decide +kernel

/-- R444: under FINE successive runs of 256 bytes lie on different channels; under PAGE a page of 4 KiB on one. -/
theorem test_orders : (orderMap 0 0).1 ≠ (orderMap 0 256).1 ∧ (orderMap 1 0).1 = (orderMap 1 4095).1 := by decide +kernel

/-- R477: a class F fault stops the device; R404: then commands are answered NOT_READY, STATUS 9. -/
theorem test_stop :
    let t := after (exec (.sharedUe 1) live)
    stopped t.dev = true ∧
      ((after (exec (.deviceNop 0 0 []) t)).dev.out.getLast?) = some (.reply 0 0 [0] [word (0x0100 * 2 ^ 48 + 9 * 2 ^ 8 + 1)]) := by
  decide +kernel

/-- R363: a receive slot uses the new key at once and accepts the old one until the grace ends. -/
theorem test_grace :
    let s := keyed.onDev fun d => d.setKey 10000 { kind := 2, material := 6, old := 5, graceUntil := some 7 }
    openWith s.dev 10000 2 (fun m => if m = 5 then some [] else none) = some [] ∧
      openWith (after (exec (.graceEnd 10000) s)).dev 10000 2 (fun m => if m = 5 then some [] else none) = none := by
  decide +kernel

/-- R517: the tick is stamped with its number, and a sensor that is not in service keeps its value. -/
theorem test_telemetry :
    let t := after (exec (.telemetryTick ((List.range 40).map fun i => (i, decide (i = 9)))) live)
    reg t.dev rTelTick = 1 ∧ regBit t.dev (rTel 9) 63 = true ∧ regFld t.dev (rTel 10) 31 0 = 10 := by
  decide +kernel

/-- R564: five edges with TMS high reset the TAP. -/
theorem test_tap :
    (after (exec (.tckRisingEdge true false) { dev := { tap := { st := .shiftIr, run := 4 } } })).dev.tap.st = .testLogicReset := by
  decide +kernel

/-- An empty queue: one step is one idle tick. -/
theorem test_idle : ∃ t, step live = .next t ∧ t.dev.now = 1 := ⟨_, rfl, by decide +kernel⟩

end Sys2Proof.Tests
end

/-! SUPPORT. Laws of the bit fields of a word: what a field reads after a field has been replaced (R8). -/

namespace Sys2Proof.Machine

/-! ### Fields of a number -/

/-- A number with the n bits from lo on replaced. -/
def replaceBits (w lo n v : Nat) : Nat := w - w / 2 ^ lo % 2 ^ n * 2 ^ lo + v % 2 ^ n * 2 ^ lo

/-- The parts of a number with a field replaced: what stands above, the new field, what stands below. -/
theorem replaceBits_eq (w lo n v : Nat) :
    replaceBits w lo n v = 2 ^ lo * (2 ^ n * (w / 2 ^ lo / 2 ^ n) + v % 2 ^ n) + w % 2 ^ lo := by
  have hw : 2 ^ lo * (2 ^ n * (w / 2 ^ lo / 2 ^ n) + w / 2 ^ lo % 2 ^ n) + w % 2 ^ lo = w := by
    rw [Nat.div_add_mod, Nat.div_add_mod]
  unfold replaceBits
  rw [Nat.mul_add] at hw ⊢
  rw [Nat.mul_comm _ (2 ^ lo), Nat.mul_comm (v % 2 ^ n)]
  omega

/-- The replaced field reads as the new value. -/
theorem replaceBits_div_mod_same (w lo n v : Nat) : replaceBits w lo n v / 2 ^ lo % 2 ^ n = v % 2 ^ n := by
  rw [replaceBits_eq, Nat.mul_add_div (Nat.two_pow_pos lo), Nat.div_eq_of_lt (Nat.mod_lt w (Nat.two_pow_pos lo)), Nat.add_zero,
    Nat.mul_add_mod, Nat.mod_mod]

theorem replaceBits_mod_below (w lo n v : Nat) : replaceBits w lo n v % 2 ^ lo = w % 2 ^ lo := by
  rw [replaceBits_eq, Nat.mul_add_mod, Nat.mod_mod]

theorem replaceBits_div_above (w lo n v : Nat) : replaceBits w lo n v / 2 ^ (lo + n) = w / 2 ^ (lo + n) := by
  rw [Nat.pow_add, ← Nat.div_div_eq_div_mul, replaceBits_eq, Nat.mul_add_div (Nat.two_pow_pos lo),
    Nat.div_eq_of_lt (Nat.mod_lt w (Nat.two_pow_pos lo)), Nat.add_zero, Nat.mul_add_div (Nat.two_pow_pos n),
    Nat.div_eq_of_lt (Nat.mod_lt v (Nat.two_pow_pos n)), Nat.add_zero, Nat.div_div_eq_div_mul]

/-- A field that shares no bit with the replaced one reads as before. -/
theorem replaceBits_div_mod_other (w v : Nat) {lo n lo' n' : Nat} (h : lo' + n' ≤ lo ∨ lo + n ≤ lo') :
    replaceBits w lo n v / 2 ^ lo' % 2 ^ n' = w / 2 ^ lo' % 2 ^ n' := by
  rcases h with h | h
  · have low : ∀ x, x / 2 ^ lo' % 2 ^ n' = x % 2 ^ lo % 2 ^ (lo' + n') / 2 ^ lo' := fun x => by
      rw [Nat.mod_mod_of_dvd x (Nat.pow_dvd_pow 2 h), Nat.pow_add, Nat.mod_mul_right_div_self]
    rw [low, low w, replaceBits_mod_below]
  · obtain ⟨e, rfl⟩ := Nat.exists_eq_add_of_le h
    rw [Nat.pow_add, ← Nat.div_div_eq_div_mul, ← Nat.div_div_eq_div_mul, replaceBits_div_above]

/-- Replacing a field inside a word leaves a word. -/
theorem replaceBits_lt {w lo n : Nat} (v : Nat) {k : Nat} (hw : w < 2 ^ k) (h : lo + n ≤ k) : replaceBits w lo n v < 2 ^ k := by
  obtain ⟨e, rfl⟩ := Nat.exists_eq_add_of_le h
  rw [Nat.pow_add, Nat.mul_comm] at hw ⊢
  rw [← Nat.div_lt_iff_lt_mul (Nat.two_pow_pos _)] at hw ⊢
  rwa [replaceBits_div_above]

/-! ### Fields of a word -/

theorem toNat_word {n : Nat} (h : n < 2 ^ 64) : (word n).toNat = n := by
  rw [word, BitVec.toNat_ofNat, Nat.mod_eq_of_lt h]

theorem toNat_setFld (w : Word) {hi lo : Nat} (v : Nat) (h : hi ≤ 63) (hl : lo ≤ hi) :
    (setFld w hi lo v).toNat = replaceBits w.toNat lo (hi + 1 - lo) v :=
  toNat_word (replaceBits_lt v w.isLt (by omega))

theorem fld_setFld_same (w : Word) {hi lo : Nat} (v : Nat) (h : hi ≤ 63) (hl : lo ≤ hi) :
    fld (setFld w hi lo v) hi lo = v % 2 ^ (hi + 1 - lo) := by
  rw [fld, toNat_setFld w v h hl, replaceBits_div_mod_same]

theorem fld_setFld_other (w : Word) {hi lo hi' lo' : Nat} (v : Nat) (h : hi ≤ 63) (hl : lo ≤ hi) (hl' : lo' ≤ hi')
    (hd : hi' < lo ∨ hi < lo') : fld (setFld w hi lo v) hi' lo' = fld w hi' lo' := by
  rw [fld, fld, toNat_setFld w v h hl, replaceBits_div_mod_other w.toNat v (by omega)]

theorem bit_eq_fld (w : Word) (i : Nat) : bit w i = (fld w i i == 1) := by
  rw [bit, fld, Nat.add_sub_cancel_left, Nat.pow_one]

theorem bit_setBit_same (w : Word) {i : Nat} (b : Bool) (h : i ≤ 63) : bit (setBit w i b) i = b := by
  rw [bit_eq_fld, setBit, fld_setFld_same w _ h (Nat.le_refl i), Nat.add_sub_cancel_left]
  cases b <;> rfl

theorem bit_setFld_other (w : Word) {hi lo i : Nat} (v : Nat) (h : hi ≤ 63) (hl : lo ≤ hi) (hd : i < lo ∨ hi < i) :
    bit (setFld w hi lo v) i = bit w i := by
  rw [bit_eq_fld, bit_eq_fld, fld_setFld_other w v h hl (Nat.le_refl i) hd]

/-! ### Fields of a register -/

theorem regFld_setRegFld_same (d : Dev) (a : Nat) {hi lo : Nat} (v : Nat) (h : hi ≤ 63) (hl : lo ≤ hi) :
    regFld (setRegFld d a hi lo v) a hi lo = v % 2 ^ (hi + 1 - lo) := by
  rw [regFld, setRegFld, reg_setReg_same, fld_setFld_same _ v h hl]

theorem regBit_setRegBit_same (d : Dev) (a : Nat) {i : Nat} (b : Bool) (h : i ≤ 63) : regBit (setRegBit d a i b) a i = b := by
  rw [regBit, setRegBit, reg_setReg_same, bit_setBit_same _ b h]

theorem regBit_setRegFld_other (d : Dev) (a : Nat) {hi lo i : Nat} (v : Nat) (h : hi ≤ 63) (hl : lo ≤ hi) (hd : i < lo ∨ hi < i) :
    regBit (setRegFld d a hi lo v) a i = regBit d a i := by
  rw [regBit, setRegFld, reg_setReg_same, bit_setFld_other _ v h hl hd, regBit]

/-! ### Counters held in registers -/

theorem reg_incErr_same (d : Dev) (a : Nat) : reg (incErr d a) a = errAdd (reg d a) 1 := reg_setReg_same d a _

end Sys2Proof.Machine

/-! SUPPORT. What the event system leaves alone of the registers of its own pages, and what a change of owner, a denial and a fault of
class C can move (R439, R459 to R467, R476). -/

namespace Sys2Proof.Machine

/-! ### Registers that no event writes -/

/-- The offsets of an event-queue page that a record moves: TAIL, the counters of lost records and the fast bank (R461, R467, R474). -/
def eventWrites (off : Nat) : Prop :=
  off = oEqTail ∨ off = oEqLost ∨ off = oEqFastOvf ∨ off = oFastPend ∨ (oFastRec 0 ≤ off ∧ off < oFastRec 16)

/-- A register that no event writes. -/
def eventSteady (a : Nat) : Prop := ∀ f off, f ≤ 192 → eventWrites off → a ≠ rEq f off

theorem eventSteady_of_not_eventPage {a : Nat} (h : ¬ eventPage a) : eventSteady a := by
  intro f off hf ho
  refine rEq_page hf ?_ h
  unfold eventWrites oEqTail oEqLost oEqFastOvf oFastPend oFastRec at ho
  omega

/-- The control register of an event queue is written by the host alone. -/
theorem eventSteady_eqCtrl (f : Nat) : eventSteady (rEq f oEqCtrl) := by
  intro g off _ ho
  unfold eventWrites oEqTail oEqLost oEqFastOvf oFastPend oFastRec at ho
  unfold rEq oEqCtrl
  omega

theorem not_eventPage_rRing (f off : Nat) : ¬ eventPage (rRing f off) := by unfold eventPage rRing; omega

theorem not_eventPage_rCh {c off : Nat} (hc : c < 288) (ho : off < 0x100) : ¬ eventPage (rCh c off) := by
  unfold eventPage rCh; omega

/-- An effect that raises an event leaves the registers that no event writes. -/
def SteadyRegs (again : Dev → Nat → Nat → Nat → Nat → Dev) : Prop :=
  ∀ d s c x y a, eventSteady a → reg (again d s c x y) a = reg d a

theorem reg_fastPut_steady {again : Dev → Nat → Nat → Nat → Nat → Dev} (h : SteadyRegs again) (d : Dev) {f : Nat} (hf : f ≤ 192)
    (w0 w1 : Word) {a : Nat} (ha : eventSteady a) : reg (fastPut again d f w0 w1) a = reg d a := by
  unfold fastPut; split
  · next k hk =>
    have hk := fastSlot_lt hk
    have hrec : ∀ off, oFastRec k ≤ off → off < oFastRec (k + 1) → a ≠ rEq f off := fun off hlo hhi =>
      ha f off hf (by unfold eventWrites oFastRec at *; omega)
    show reg (setReg _ _ _) a = _
    rw [reg_setReg_other _ _ (hrec _ (by omega) (by unfold oFastRec; omega)),
      reg_setReg_other _ _ (hrec _ (by omega) (by unfold oFastRec; omega)),
      reg_setRegBit_other _ _ _ (ha f _ hf (by simp [eventWrites]))]
  · show reg (limited _ _ _ _) a = _
    rw [reg_limited _ _ _ _ _ fun d => h d _ _ _ _ _ ha, reg_incErr_other _ (ha f _ hf (by simp [eventWrites]))]

theorem reg_queuePut_steady {again : Dev → Nat → Nat → Nat → Nat → Dev} (h : SteadyRegs again) (d : Dev) {f : Nat} (hf : f ≤ 192)
    (w0 w1 : Word) {a : Nat} (ha : eventSteady a) : reg (queuePut again d f w0 w1) a = reg d a := by
  have hlost : ∀ x, reg ((incErr d (rEq f oEqLost)).setEqx f x) a = reg d a := fun _ =>
    reg_incErr_other d (ha f _ hf (by simp [eventWrites]))
  have htail : ∀ (d : Dev) (v : Word) (x : EqX), reg ((setReg d (rEq f oEqTail) v).setEqx f x) a = reg d a := fun d v _ =>
    reg_setReg_other d v (ha f _ hf (by simp [eventWrites]))
  unfold queuePut; dsimp only; split
  · split
    · rw [h _ _ _ _ _ _ ha, hlost]
    · rw [hlost]
  · rw [reg_coalesce, htail]; rfl

theorem reg_postWith_steady {again : Dev → Nat → Nat → Nat → Nat → Dev} (h : SteadyRegs again) (d : Dev) {f : Nat} (hf : f ≤ 192)
    (s c x y : Nat) (tw : Word) (m w : Bool) {a : Nat} (ha : eventSteady a) :
    reg (postWith again d f s c x y tw m w) a = reg d a := by
  unfold postWith; dsimp only; split
  · rw [reg_meetFast, reg_fastPut_steady h _ hf _ _ ha, reg_queuePut_steady h _ hf _ _ ha]
  · rw [reg_queuePut_steady h _ hf _ _ ha]

@[simp] theorem reg_setActive (d : Dev) (s f a : Nat) : reg (setActive d s f) a = reg d a := rfl

theorem reg_happenN_steady (n : Nat) : SteadyRegs (happenN n) := by
  induction n with
  | zero => intro d s c x y a _; rfl
  | succ n ih =>
    intro d s c x y a ha
    unfold happenN
    split
    · rfl
    · split
      · split
        · rfl
        · rw [reg_postWith_steady ih _ (srcFn_le d s x) _ _ _ _ _ _ _ ha, reg_setActive]
      · rw [reg_postWith_steady ih _ (srcFn_le d s x) _ _ _ _ _ _ _ ha]

theorem reg_raise_steady (d : Dev) (s c x y : Nat) {a : Nat} (ha : eventSteady a) : reg (raise d s c x y) a = reg d a :=
  reg_happenN_steady 3 d s c x y a ha

theorem reg_post_steady (d : Dev) {f : Nat} (hf : f ≤ 192) (s c x y : Nat) (tw : Word) (m w : Bool) {a : Nat} (ha : eventSteady a) :
    reg (post d f s c x y tw m w) a = reg d a :=
  reg_postWith_steady (reg_happenN_steady 2) d hf s c x y tw m w ha

/-! ### A change of owner (R459) -/

/-- What a recheck of a source keeps: all that every record keeps. -/
theorem recheck_keeps {P : Dev → Prop} (hsrcs : ∀ d l, P d → P { d with srcs := l })
    (hpost : ∀ d s f c x y tw m, f ≤ 192 → P d → P (post (setActive d s f) f s c x y tw m false)) (d : Dev) (s : Nat) (hd : P d) :
    P (recheck d s) := by
  unfold recheck
  exact each_keeps (P := P) _ (fun d l h => hpost d s _ _ _ _ _ _ (srcFn_le d s _) h) _ _ (hsrcs d _ hd)

theorem ownerChanged_keeps {P : Dev → Prop} (hsrcs : ∀ d l, P d → P { d with srcs := l }) (hclr : ∀ d s, P d → P (clrActive d s))
    (hpost : ∀ d s f c x y tw m, f ≤ 192 → P d → P (post (setActive d s f) f s c x y tw m false)) (d : Dev) (ss : List Nat) (hd : P d) :
    P (ownerChanged d ss) := by
  unfold ownerChanged
  refine each_keeps (P := P) _ (fun d s h => ?_) _ _ hd
  dsimp only
  split
  · exact recheck_keeps hsrcs hpost _ s (hclr d s h)
  · exact hclr d s h

@[simp] theorem core_ownerChanged (d : Dev) (ss : List Nat) : (ownerChanged d ss).core = d.core :=
  ownerChanged_keeps (P := fun x => x.core = d.core) (fun _ _ h => h) (fun _ _ h => h)
    (fun e s f c x y tw m _ h => by rw [core_post, core_setActive, h]) d ss rfl

theorem reg_ownerChanged (d : Dev) (ss : List Nat) {a : Nat} (ha : eventSteady a) : reg (ownerChanged d ss) a = reg d a :=
  ownerChanged_keeps (P := fun x => reg x a = reg d a) (fun _ _ h => h) (fun _ _ h => h)
    (fun e s f c x y tw m hf h => by rw [reg_post_steady _ hf _ _ _ _ _ _ _ ha, reg_setActive, h]) d ss rfl

/-- A change of a stream's owner moves the table of owners alone, beside events. -/
theorem core_assign_stream (d : Dev) (n m : Nat) : (assign d false n m).core = (d.setStreamOwner n m).core := by
  rw [assign, if_neg Bool.false_ne_true, core_ownerChanged]

theorem reg_assign (d : Dev) (ctx : Bool) (n m : Nat) {a : Nat} (ha : eventSteady a) : reg (assign d ctx n m) a = reg d a := by
  cases ctx with
  | true => rw [assign, if_pos rfl]; rfl
  | false => rw [assign, if_neg Bool.false_ne_true, reg_ownerChanged _ _ ha]; rfl

theorem streamOwner_setStreamOwner (d : Dev) (n m k : Nat) :
    (d.setStreamOwner n m).streamOwner k = if k = n then m else d.streamOwner k := by
  by_cases h : k = n
  · subst h; simp [Dev.setStreamOwner, Dev.streamOwner]
  · simp [Dev.setStreamOwner, Dev.streamOwner, h, Tab.get_set_other _ _ _ h]

theorem ctxOwner_setCtxOwner (d : Dev) (c m k : Nat) :
    (d.setCtxOwner c m).ctxOwner k = if k = c then m else d.ctxOwner k := Tab.get_set ..

/-! ### A fault of class C and a denied access (R439, R476, R482) -/

@[simp] theorem core_capture (d : Dev) (k s c x y : Nat) (o : Origin) : (capture d k s c x y o).core = d.core := by
  unfold capture; split
  · rw [core_setRegBit]
  · rw [core_setReg, core_setReg, core_setReg, core_setReg]

/-- The first-error capture of class C moves the registers of that capture alone. -/
theorem reg_capture_classC (d : Dev) (s c x y : Nat) (o : Origin) {a : Nat} (ha : rCap 3 0x18 < a) :
    reg (capture d 0 s c x y o) a = reg d a := by
  have h : ∀ off, off ≤ 0x18 → a ≠ rCap 0 off := fun off ho => by unfold rCap at *; omega
  unfold capture; split
  · rw [reg_setRegBit_other _ _ _ (h 0 (by decide))]
  · rw [reg_setReg_other _ _ (h 0x18 (by decide)), reg_setReg_other _ _ (h 0x10 (by decide)), reg_setReg_other _ _ (h 8 (by decide)),
      reg_setReg_other _ _ (h 0 (by decide))]

/-- The device after the collector has counted, marked and captured a fault of class C. -/
def markedClassC (d : Dev) (s c x y : Nat) (o : Origin) : Dev :=
  capture (setRegBit (incErr d (rFltCount 0)) rFltStatus 55 true) 0 s c x y o

/-- A fault of class C is counted, marked and captured, and may set PEND. -/
theorem collect_classC (d : Dev) (s c x y : Nat) (o : Origin) :
    collect d 0 s c x y o = markedClassC d s c x y o ∨ collect d 0 s c x y o = setPend (markedClassC d s c x y o) := by
  unfold collect
  rw [if_pos rfl]
  split
  · exact .inr rfl
  · exact .inl rfl

theorem core_collect_classC (d : Dev) (s c x y : Nat) (o : Origin) : (collect d 0 s c x y o).core = d.core := by
  have hm : (markedClassC d s c x y o).core = d.core := by rw [markedClassC, core_capture, core_setRegBit, core_incErr]
  rcases collect_classC d s c x y o with h | h
  · rw [h, hm]
  · rw [h, setPend, core_setRegBit, hm]

/-- A fault of class C moves registers of the fault page alone. -/
theorem reg_collect_classC (d : Dev) (s c x y : Nat) (o : Origin) {a : Nat} (ha : rFltCount 3 < a) :
    reg (collect d 0 s c x y o) a = reg d a := by
  have hne : ∀ b, b ≤ rFltCount 3 → a ≠ b := fun b hb => by omega
  have hm : reg (markedClassC d s c x y o) a = reg d a := by
    rw [markedClassC, reg_capture_classC _ _ _ _ _ _ (Nat.lt_trans (by decide) ha),
      reg_setRegBit_other _ _ _ (hne rFltStatus (by decide)), reg_incErr_other _ (hne (rFltCount 0) (by decide))]
  rcases collect_classC d s c x y o with h | h
  · rw [h, hm]
  · rw [h, setPend, reg_setRegBit_other _ _ _ (hne rFltAlert (by decide)), hm]

theorem raiseFault_classC (d : Dev) (s c x y : Nat) (o : Origin) :
    raiseFault d 0 s c x y o = collect (raise d s c x y) 0 s c x y o := by
  rw [raiseFault, if_neg (by decide)]

/-- A denied access moves registers and raises its event; nothing else of the device moves. -/
@[simp] theorem core_deny (d : Dev) (m kind t space addr : Nat) (stream : Option Nat) :
    (deny d m kind t space addr stream).core = d.core := by
  rw [deny, raiseFault_classC, core_collect_classC, core_raise, core_setReg, core_setReg, core_incErr]

/-- A denied access is counted. -/
theorem reg_deny_count (d : Dev) (m kind t space addr : Nat) (stream : Option Nat) :
    reg (deny d m kind t space addr stream) rAccDenied = errAdd (reg d rAccDenied) 1 := by
  rw [deny, raiseFault_classC, reg_collect_classC _ _ _ _ _ _ (by decide), reg_raise _ _ _ _ _ (by unfold eventPage rAccDenied; omega),
    reg_setReg_other _ _ (by decide), reg_setReg_other _ _ (by decide), reg_incErr_same]

end Sys2Proof.Machine

/-! SUPPORT. The ends of chains, halted rings and what a function loses at its reset: what each moves and what it leaves (R404, R413,
R414, R426, R438). -/

namespace Sys2Proof.Machine

/-! ### Channels (R425, R426) -/

theorem chan_setChan_same (d : Dev) (c : Nat) (x : Chan) : (d.setChan c x).chan c = x := Tab.get_set_same ..

theorem chan_onChan_same (d : Dev) (c : Nat) (f : Chan → Chan) : (d.onChan c f).chan c = f (d.chan c) := chan_setChan_same ..

/-- Beside outputs and events, at most the channels of the device move, and no register. -/
def onlyChans (d d' : Dev) : Prop := d'.core = { d.core with chans := d'.chans } ∧ ∀ a, reg d' a = reg d a

theorem onlyChans_refl (d : Dev) : onlyChans d d := ⟨rfl, fun _ => rfl⟩

theorem onlyChans_trans {a b c : Dev} (h : onlyChans a b) (k : onlyChans b c) : onlyChans a c := by
  refine ⟨?_, fun x => (k.2 x).trans (h.2 x)⟩
  rw [k.1, h.1]

theorem onlyChans_setChan (d : Dev) (c : Nat) (x : Chan) : onlyChans d (d.setChan c x) := ⟨rfl, fun _ => rfl⟩

theorem onlyChans_onChan (d : Dev) (c : Nat) (f : Chan → Chan) : onlyChans d (d.onChan c f) := onlyChans_setChan ..

theorem onlyChans_emit (d : Dev) (o : Out) : onlyChans d (emit d o) := ⟨rfl, fun _ => rfl⟩

theorem submitted_of_onlyChans {d d' : Dev} (h : onlyChans d d') : d'.submitted = d.submitted := (congrArg Dev.submitted h.1 :)
theorem streams_of_onlyChans {d d' : Dev} (h : onlyChans d d') : d'.streams = d.streams := (congrArg Dev.streams h.1 :)

theorem streamOwner_of_onlyChans {d d' : Dev} (h : onlyChans d d') (n : Nat) : d'.streamOwner n = d.streamOwner n :=
  (congrArg (fun x => x.streamOwner n) h.1 :)

theorem ctxOwner_of_onlyChans {d d' : Dev} (h : onlyChans d d') (c : Nat) : d'.ctxOwner c = d.ctxOwner c :=
  (congrArg (fun x => x.ctxOwner c) h.1 :)

/-- The end of a chain moves its channel and may write its record. -/
theorem onlyChans_endChain (d : Dev) (c status : Nat) : onlyChans d (endChain d c status) := by
  unfold endChain
  split
  · exact onlyChans_refl d
  · extract_lets cfg x gaps holes x' d1 d2
    have h1 : onlyChans d d1 := by
      show onlyChans d (ite _ _ _)
      split
      · exact onlyChans_setChan ..
      · exact onlyChans_refl d
    have h2 : onlyChans d d2 := onlyChans_trans h1 (onlyChans_onChan ..)
    split
    · exact h2
    · exact onlyChans_trans h2 (onlyChans_emit ..)

/-- A chain in progress that ends leaves its channel without chain and descriptor. -/
theorem chan_endChain (d : Dev) (c status : Nat) (h : (d.chan c).chain.isSome = true) :
    ((endChain d c status).chan c).chain = none ∧ ((endChain d c status).chan c).desc = none := by
  obtain ⟨x, hx⟩ := Option.isSome_iff_exists.mp h
  unfold endChain
  split
  · next hn => rw [hn] at hx; cases hx
  · extract_lets cfg r gaps holes r' d1 d2
    have h2 : d2.chan c = { d1.chan c with chain := none, desc := none } := chan_onChan_same ..
    split
    · rw [h2]; exact ⟨rfl, rfl⟩
    · show (d2.chan c).chain = none ∧ (d2.chan c).desc = none
      rw [h2]; exact ⟨rfl, rfl⟩

theorem core_chErr (d : Dev) (c k cause : Nat) : (chErr d c k cause).core = d.core := by
  unfold chErr; split
  · rw [core_incErr]
  · rw [core_raise, core_incErr]

theorem reg_chErr_other (d : Dev) {c k cause a : Nat} (ha : ¬ eventPage a) (h : a ≠ rCh c (oChErr k)) :
    reg (chErr d c k cause) a = reg d a := by
  unfold chErr; split
  · rw [reg_incErr_other _ h]
  · rw [reg_raise _ _ _ _ _ ha, reg_incErr_other _ h]

theorem reg_chErr_same (d : Dev) {c k : Nat} (cause : Nat) (ha : ¬ eventPage (rCh c (oChErr k))) :
    reg (chErr d c k cause) (rCh c (oChErr k)) = errAdd (reg d (rCh c (oChErr k))) 1 := by
  unfold chErr; split
  · rw [reg_incErr_same]
  · rw [reg_raise _ _ _ _ _ ha, reg_incErr_same]

theorem takeChain_of_chain {d : Dev} {c : Nat} (h : (d.chan c).chain.isSome = true) : takeChain d c = d := by
  obtain ⟨x, hx⟩ := Option.isSome_iff_exists.mp h
  unfold takeChain
  dsimp only
  rw [hx]

/-- A failed request of a channel with a chain in progress abandons that chain. -/
theorem hostFailure_of_chain {d : Dev} {c : Nat} (k cause status : Nat) (h : (d.chan c).chain.isSome = true) :
    hostFailure d c k cause status = abandon d c k cause status := by
  rw [hostFailure, takeChain_of_chain h, if_pos h]

/-- What an abandoned chain leaves: a free channel, its counter raised, and nothing else moved but events and outputs. -/
theorem abandon_effect (s : State) {c k : Nat} (cause status : Nat) (hc : c < 288) (hk : k < 8) (h : (s.dev.chan c).chain.isSome = true) :
    let t := s.onDev fun d => abandon d c k cause status
    (t.dev.chan c).chain = none ∧ (t.dev.chan c).desc = none ∧
      reg t.dev (rCh c (oChErr k)) = errAdd (reg s.dev (rCh c (oChErr k))) 1 ∧ onlyRegs [rCh c (oChErr k)] s t ∧
      t.dev.core = { s.dev.core with chans := t.dev.chans } ∧ sameOutside s t := by
  intro t
  have hcore : (chErr s.dev c k cause).core = s.dev.core := core_chErr ..
  obtain ⟨hend, hregs⟩ := onlyChans_endChain (chErr s.dev c k cause) c status
  have hpage : ¬ eventPage (rCh c (oChErr k)) := not_eventPage_rCh hc (by unfold oChErr; omega)
  have hchain : ((chErr s.dev c k cause).chan c).chain.isSome = true := by
    rw [Dev.chan, Dev.chans_of_core hcore]; exact h
  obtain ⟨hnone, hdesc⟩ := chan_endChain _ c status hchain
  refine ⟨hnone, hdesc, ?_, fun a ha hl => ?_, ?_, rfl, rfl, rfl, rfl⟩
  · exact (hregs _).trans (reg_chErr_same s.dev cause hpage)
  · exact (hregs a).trans (reg_chErr_other s.dev ha (by simpa using hl))
  · rw [← hcore]; exact hend

/-! ### Halted rings (R381, R413, R414) -/

/-- The device with the ring of function f marked as halted for this cause. -/
def haltMarked (d : Dev) (f cause : Nat) : Dev :=
  setRegFld (setRegBit d (rRing f oRingStatus) 63 true) (rRing f oRingStatus) 55 48 cause

theorem haltRing_of_running {d : Dev} {f : Nat} (cause : Nat) (he : ringEnabled d f = true) (hh : ringHalted d f = false) :
    haltRing d f cause = raise (haltMarked d f cause) 1136 2 f := by
  rw [haltRing, if_neg (by simp [he, hh]), haltMarked]

/-- A ring in service that halts reads as halted with its cause; beside its status only events move. -/
theorem haltRing_effect (s : State) {f cause : Nat} (hcause : cause < 256) (he : ringEnabled s.dev f = true)
    (hh : ringHalted s.dev f = false) :
    let t := s.onDev fun d => haltRing d f cause
    ringHalted t.dev f = true ∧ regFld t.dev (rRing f oRingStatus) 55 48 = cause ∧ onlyRegs [rRing f oRingStatus] s t ∧
      t.dev.core = s.dev.core ∧ sameOutside s t := by
  intro t
  have ht : t.dev = raise (haltMarked s.dev f cause) 1136 2 f := haltRing_of_running cause he hh
  have hstatus : reg t.dev (rRing f oRingStatus) = reg (haltMarked s.dev f cause) (rRing f oRingStatus) := by
    rw [ht, reg_raise _ _ _ _ _ (not_eventPage_rRing f _)]
  refine ⟨?_, ?_, fun a ha hl => ?_, ?_, rfl, rfl, rfl, rfl⟩
  · rw [ringHalted, regBit, hstatus, ← regBit, haltMarked, regBit_setRegFld_other _ _ _ (by decide) (by decide) (.inr (by decide)),
      regBit_setRegBit_same _ _ _ (by decide)]
  · rw [regFld, hstatus, ← regFld, haltMarked, regFld_setRegFld_same _ _ _ (by decide) (by decide)]
    exact Nat.mod_eq_of_lt hcause
  · have hne : a ≠ rRing f oRingStatus := by simpa using hl
    rw [ht, reg_raise _ _ _ _ _ ha, haltMarked, reg_setRegFld_other _ _ _ _ hne, reg_setRegBit_other _ _ _ hne]
  · rw [ht, core_raise, haltMarked, core_setRegFld, core_setRegBit]

/-! ### Function level reset (R21, R404, R438) -/

/-- The chains of a function that end move channels alone. -/
theorem onlyChans_closeChainsOf (d : Dev) (f : Nat) : onlyChans d (closeChainsOf d f) := by
  unfold closeChainsOf
  refine each_keeps (P := onlyChans d) _ (fun e x he => ?_) _ _ (onlyChans_refl d)
  dsimp only
  refine onlyChans_trans ?_ (onlyChans_onChan ..)
  split
  · split
    · exact onlyChans_trans he (onlyChans_endChain ..)
    · exact he
  · exact he

/-- One stream of VF f goes back to the PF, which receives an event. -/
def returnStream (f : Nat) (d : Dev) (n : Nat) : Dev := raise (assign d false n 0) (4 * n + 1) 0x0A 0 f

/-- One decode context of VF f goes back to the PF, which receives an event. -/
def returnCtx (f : Nat) (d : Dev) (c : Nat) : Dev := raise (assign d true c 0) 1247 5 c f

theorem returnOwned_eq (d : Dev) (f : Nat) :
    returnOwned d f =
      each ((List.range 96).filter fun c => d.ctxOwner c == f)
        (each ((List.range 192).filter fun n => d.streamOwner n == f) d (returnStream f)) (returnCtx f) := rfl

theorem core_returnStream (f : Nat) (d : Dev) (n : Nat) : (returnStream f d n).core = (d.setStreamOwner n 0).core := by
  rw [returnStream, core_raise, core_assign_stream]

theorem core_returnCtx (f : Nat) (d : Dev) (c : Nat) : (returnCtx f d c).core = (d.setCtxOwner c 0).core := by
  rw [returnCtx, core_raise, assign, if_pos rfl]

theorem streamOwner_returnStreams (f : Nat) (l : List Nat) (d : Dev) (n : Nat) :
    (each l d (returnStream f)).streamOwner n = if n ∈ l then 0 else d.streamOwner n := by
  induction l generalizing d with
  | nil => rfl
  | cons k r ih =>
    show (each r (returnStream f d k) (returnStream f)).streamOwner n = _
    rw [ih, Dev.streamOwner_of_core (core_returnStream f d k), streamOwner_setStreamOwner]
    by_cases hk : n = k <;> by_cases hr : n ∈ r <;> simp [hk, hr]

theorem ctxOwner_returnCtxs (f : Nat) (l : List Nat) (d : Dev) (c : Nat) :
    (each l d (returnCtx f)).ctxOwner c = if c ∈ l then 0 else d.ctxOwner c := by
  induction l generalizing d with
  | nil => rfl
  | cons k r ih =>
    show (each r (returnCtx f d k) (returnCtx f)).ctxOwner c = _
    rw [ih, Dev.ctxOwner_of_core (core_returnCtx f d k), ctxOwner_setCtxOwner]
    by_cases hk : c = k <;> by_cases hr : c ∈ r <;> simp [hk, hr]

/-- The device but for its tables of owners, beside registers and events. -/
def Dev.unowned (d : Dev) : Dev := { d.core with sOwner := [], cOwner := [] }

theorem unowned_of_core {d d' : Dev} (h : d'.core = d.core) : d'.unowned = d.unowned := by rw [Dev.unowned, h, Dev.unowned]

theorem submitted_of_unowned {d d' : Dev} (h : d'.unowned = d.unowned) : d'.submitted = d.submitted := (congrArg Dev.submitted h :)
theorem streams_of_unowned {d d' : Dev} (h : d'.unowned = d.unowned) : d'.streams = d.streams := (congrArg Dev.streams h :)

theorem unowned_returnStream (f : Nat) (d : Dev) (n : Nat) : (returnStream f d n).unowned = d.unowned :=
  (unowned_of_core (core_returnStream f d n)).trans rfl

theorem unowned_returnCtx (f : Nat) (d : Dev) (c : Nat) : (returnCtx f d c).unowned = d.unowned :=
  (unowned_of_core (core_returnCtx f d c)).trans rfl

/-- What returning the streams and contexts of a VF keeps, if each return keeps it. -/
theorem returnOwned_keeps {P : Dev → Prop} (f : Nat) (hs : ∀ d n, P d → P (returnStream f d n)) (hc : ∀ d c, P d → P (returnCtx f d c))
    (d : Dev) (hd : P d) : P (returnOwned d f) := by
  rw [returnOwned_eq]
  exact each_keeps (P := P) _ hc _ _ (each_keeps (P := P) _ hs _ _ hd)

theorem unowned_returnOwned (d : Dev) (f : Nat) : (returnOwned d f).unowned = d.unowned :=
  returnOwned_keeps (P := fun x => x.unowned = d.unowned) f (fun e n h => (unowned_returnStream f e n).trans h)
    (fun e c h => (unowned_returnCtx f e c).trans h) d rfl

theorem reg_returnOwned (d : Dev) (f : Nat) {a : Nat} (ha : eventSteady a) : reg (returnOwned d f) a = reg d a :=
  returnOwned_keeps (P := fun x => reg x a = reg d a) f
    (fun e n h => by rw [returnStream, reg_raise_steady _ _ _ _ _ ha, reg_assign _ _ _ _ ha, h])
    (fun e c h => by rw [returnCtx, reg_raise_steady _ _ _ _ _ ha, reg_assign _ _ _ _ ha, h]) d rfl

/-- The streams that VF f owns go back to the PF; no other stream changes its owner. -/
theorem streamOwner_returnOwned (d : Dev) (f : Nat) {n : Nat} (hn : n < 192) :
    (returnOwned d f).streamOwner n = if d.streamOwner n = f then 0 else d.streamOwner n := by
  have hc : ∀ l e, (each l e (returnCtx f)).streamOwner n = e.streamOwner n := fun l e =>
    each_keeps (P := fun x => x.streamOwner n = e.streamOwner n) _
      (fun x c h => (Dev.streamOwner_of_core (core_returnCtx f x c) n).trans h) l e rfl
  rw [returnOwned_eq, hc, streamOwner_returnStreams]
  simp [hn]

/-- The contexts that VF f owns go back to the PF; no other context changes its owner. -/
theorem ctxOwner_returnOwned (d : Dev) (f : Nat) {c : Nat} (hc : c < 96) :
    (returnOwned d f).ctxOwner c = if d.ctxOwner c = f then 0 else d.ctxOwner c := by
  have hs : ∀ l e, (each l e (returnStream f)).ctxOwner c = e.ctxOwner c := fun l e =>
    each_keeps (P := fun x => x.ctxOwner c = e.ctxOwner c) _
      (fun x n h => (Dev.ctxOwner_of_core (core_returnStream f x n) c).trans h) l e rfl
  rw [returnOwned_eq, ctxOwner_returnCtxs, hs]
  simp [hc]

/-- The device of function f after its rings and its event queue have left service and its chains have ended. -/
def functionStopped (d : Dev) (f : Nat) : Dev := closeChainsOf (queueOff (ringOff d f) f) f

theorem functionReset_eq (d : Dev) (f : Nat) :
    functionReset d f = if f = 0 then functionStopped d f else returnOwned (functionStopped d f) f := rfl

/-- The device once the packets of function f are lost: untaken ones are dropped, those taken get no reply (R381). -/
def dropPackets (d : Dev) (f : Nat) : Dev :=
  { d with
    rings := d.rings.map fun o => if o.fn = f then { o with dropped := true } else o
    submitted := d.submitted.filter fun p => p.fn != f }

theorem ringOff_eq (d : Dev) (f : Nat) : ringOff d f = dropPackets (setRegBit d (rRing f oRingCtrl) 63 false) f := rfl

@[simp] theorem reg_dropPackets (d : Dev) (f a : Nat) : reg (dropPackets d f) a = reg d a := rfl
@[simp] theorem dropPackets_submitted (d : Dev) (f : Nat) : (dropPackets d f).submitted = d.submitted.filter fun p => p.fn != f := rfl
@[simp] theorem dropPackets_streams (d : Dev) (f : Nat) : (dropPackets d f).streams = d.streams := rfl
@[simp] theorem streamOwner_dropPackets (d : Dev) (f n : Nat) : (dropPackets d f).streamOwner n = d.streamOwner n := rfl
@[simp] theorem ctxOwner_dropPackets (d : Dev) (f c : Nat) : (dropPackets d f).ctxOwner c = d.ctxOwner c := rfl

theorem core_queueOff (d : Dev) (f : Nat) : (queueOff d f).core = d.core := by rw [queueOff, core_setReg, core_setRegBit]

theorem onlyChans_functionStopped (d : Dev) (f : Nat) : onlyChans (queueOff (ringOff d f) f) (functionStopped d f) :=
  onlyChans_closeChainsOf ..

theorem submitted_functionStopped (d : Dev) (f : Nat) : (functionStopped d f).submitted = d.submitted.filter fun p => p.fn != f := by
  rw [submitted_of_onlyChans (onlyChans_functionStopped d f), Dev.submitted_of_core (core_queueOff _ f), ringOff_eq,
    dropPackets_submitted, Dev.submitted_of_core (core_setRegBit ..)]

theorem streams_functionStopped (d : Dev) (f : Nat) : (functionStopped d f).streams = d.streams := by
  rw [streams_of_onlyChans (onlyChans_functionStopped d f), Dev.streams_of_core (core_queueOff _ f), ringOff_eq,
    dropPackets_streams, Dev.streams_of_core (core_setRegBit ..)]

theorem streamOwner_functionStopped (d : Dev) (f n : Nat) : (functionStopped d f).streamOwner n = d.streamOwner n := by
  rw [streamOwner_of_onlyChans (onlyChans_functionStopped d f), Dev.streamOwner_of_core (core_queueOff _ f), ringOff_eq,
    streamOwner_dropPackets, Dev.streamOwner_of_core (core_setRegBit ..)]

theorem ctxOwner_functionStopped (d : Dev) (f c : Nat) : (functionStopped d f).ctxOwner c = d.ctxOwner c := by
  rw [ctxOwner_of_onlyChans (onlyChans_functionStopped d f), Dev.ctxOwner_of_core (core_queueOff _ f), ringOff_eq,
    ctxOwner_dropPackets, Dev.ctxOwner_of_core (core_setRegBit ..)]

theorem ringEnabled_functionStopped (d : Dev) {f : Nat} (hf : f ≤ 192) : ringEnabled (functionStopped d f) f = false := by
  have hp : ∀ off, off < 0x400 → rRing f oRingCtrl ≠ rEq f off := fun off ho => rEq_page hf ho (not_eventPage_rRing f _)
  rw [ringEnabled, regBit, (onlyChans_functionStopped d f).2, queueOff, reg_setReg_other _ _ (hp _ (by decide)),
    reg_setRegBit_other _ _ _ (hp _ (by decide)), ringOff_eq, reg_dropPackets, ← regBit, regBit_setRegBit_same _ _ _ (by decide)]

theorem eqEnabled_functionStopped (d : Dev) (f : Nat) : regBit (functionStopped d f) (rEq f oEqCtrl) 63 = false := by
  rw [regBit, (onlyChans_functionStopped d f).2, queueOff,
    reg_setReg_other _ _ (show rEq f oEqCtrl ≠ rEq f oFastPend by unfold rEq oEqCtrl oFastPend; omega), ← regBit,
    regBit_setRegBit_same _ _ _ (by decide)]

/-- What a function level reset leaves: rings and event queue out of service, no untaken packet of the function, and what a VF owned with
the PF (R21, R404). -/
theorem functionReset_effect (d : Dev) {f : Nat} (hf : f ≤ 192) :
    ringEnabled (functionReset d f) f = false ∧ regBit (functionReset d f) (rEq f oEqCtrl) 63 = false ∧
      (functionReset d f).submitted = d.submitted.filter (fun p => p.fn != f) ∧
      (∀ n < 192, (functionReset d f).streamOwner n = if f ≠ 0 ∧ d.streamOwner n = f then 0 else d.streamOwner n) ∧
      (∀ c < 96, (functionReset d f).ctxOwner c = if f ≠ 0 ∧ d.ctxOwner c = f then 0 else d.ctxOwner c) ∧
      (functionReset d f).streams = d.streams := by
  have hring := ringEnabled_functionStopped d hf
  have heq := eqEnabled_functionStopped d f
  rw [functionReset_eq]
  by_cases h0 : f = 0
  · rw [if_pos h0]
    exact ⟨hring, heq, submitted_functionStopped d f, fun n _ => by rw [streamOwner_functionStopped, if_neg fun h => h.1 h0],
      fun c _ => by rw [ctxOwner_functionStopped, if_neg fun h => h.1 h0], streams_functionStopped d f⟩
  · rw [if_neg h0]
    have hrest := unowned_returnOwned (functionStopped d f) f
    refine ⟨?_, ?_, ?_, fun n hn => ?_, fun c hc => ?_, ?_⟩
    · rw [ringEnabled, regBit, reg_returnOwned _ _ (eventSteady_of_not_eventPage (not_eventPage_rRing f _))]
      exact hring
    · rw [regBit, reg_returnOwned _ _ (eventSteady_eqCtrl f)]
      exact heq
    · rw [submitted_of_unowned hrest, submitted_functionStopped]
    · rw [streamOwner_returnOwned _ _ hn, streamOwner_functionStopped]; simp [h0]
    · rw [ctxOwner_returnOwned _ _ hc, ctxOwner_functionStopped]; simp [h0]
    · rw [streams_of_unowned hrest, streams_functionStopped]

end Sys2Proof.Machine

/-! SUPPORT. Bytes on the bus: what a byte reads as after bytes have been written, over the links of free buffers too (R280, R283, R412). -/

namespace Sys2Proof.Machine

/-! ### Free lists whose links are overwritten -/

/-- The free list of pool q with these words standing over its links. -/
def withSpoilt (d : Dev) (q : Nat) (x : Tab (Option Word)) : Dev := setFreeList d q { freeList d q with spoilt := x }

/-- At most the free lists of Sump move. -/
def onlyFree (d d' : Dev) : Prop := d' = { d with mouth := { d.mouth with free := d'.mouth.free } }

theorem onlyFree_refl (d : Dev) : onlyFree d d := rfl

theorem onlyFree_trans {a b c : Dev} (h : onlyFree a b) (k : onlyFree b c) : onlyFree a c := by
  unfold onlyFree at *
  rw [k, h]

theorem onlyFree_withSpoilt (d : Dev) (q : Nat) (x : Tab (Option Word)) : onlyFree d (withSpoilt d q x) := rfl

theorem freeList_withSpoilt (d : Dev) (q : Nat) (x : Tab (Option Word)) (p : Nat) :
    freeList (withSpoilt d q x) p = if p = q then { freeList d q with spoilt := x } else freeList d p := Tab.get_set ..

/-- The runs of a free list rest on its links alone. -/
theorem runs_spoilt (f : FreeList) (x : Tab (Option Word)) (fuel h n : Nat) :
    ({ f with spoilt := x } : FreeList).runs fuel h n = f.runs fuel h n := by
  induction fuel generalizing h n with
  | zero => rfl
  | succ k ih =>
    unfold FreeList.runs
    simp only [ih]
    rfl

theorem freeRuns_withSpoilt (d : Dev) (q : Nat) (x : Tab (Option Word)) (p : Nat) : freeRuns (withSpoilt d q x) p = freeRuns d p := by
  unfold freeRuns
  rw [freeList_withSpoilt, show freeIn (withSpoilt d q x) p = freeIn d p from rfl]
  split
  · next h => subst h; exact runs_spoilt ..
  · rfl

theorem next_withSpoilt (d : Dev) (q : Nat) (x : Tab (Option Word)) (p i : Nat) :
    (freeList (withSpoilt d q x) p).next i = (freeList d p).next i := by
  rw [freeList_withSpoilt]
  split
  · next h => subst h; rfl
  · rfl

/-- What stands over the links of a pool moves no link. -/
theorem linkWord_withSpoilt (d : Dev) (q : Nat) (x : Tab (Option Word)) (p i : Nat) :
    linkWord (withSpoilt d q x) p i = linkWord d p i := by
  unfold linkWord
  rw [freeRuns_withSpoilt, next_withSpoilt]
  rfl

/-- The first 8 bytes of a free buffer after a word has been put there. -/
theorem linkNow_put (d : Dev) (q i : Nat) (w : Word) (p j : Nat) :
    linkNow (withSpoilt d q ((freeList d q).spoilt.set none i (some w))) p j = if p = q ∧ j = i then w else linkNow d p j := by
  unfold linkNow
  rw [linkWord_withSpoilt, freeList_withSpoilt]
  by_cases hp : p = q
  · subst hp
    rw [if_pos rfl, Tab.get_set]
    by_cases hj : j = i
    · simp [hj]
    · simp [hj]
  · simp [hp]

/-! ### Which link holds a byte -/

/-- Where a link lies rests on registers, on what is referenced and on what has been cut off: the free lists play no part. -/
theorem linkAt_withSpoilt (d : Dev) (q : Nat) (x : Tab (Option Word)) (a : Nat) : linkAt (withSpoilt d q x) a = linkAt d a := rfl

theorem bufferAddr_eq (d : Dev) (q i : Nat) : bufferAddr d q i = bufferAddr d q 0 + i * poolBytes q := by
  unfold bufferAddr; dsimp only; omega

/-- The byte of a link lies in the first 8 bytes of its buffer, so the address is known from buffer and byte. -/
theorem linkAt_some {d : Dev} {a q i k : Nat} (h : linkAt d a = some (q, i, k)) : k < 8 ∧ a = bufferAddr d q i + k := by
  unfold linkAt at h
  split at h
  · cases h
  · obtain ⟨p, hfind, hp⟩ := Option.bind_eq_some_iff.mp h
    have hlo : bufferAddr d p 0 ≤ a := by
      have := List.find?_some hfind
      simp only [Bool.and_eq_true, decide_eq_true_eq] at this
      exact this.1
    dsimp only at hp
    split at hp
    · next hc =>
      cases hp
      refine ⟨hc.1, ?_⟩
      have := Nat.div_add_mod' (a - bufferAddr d q 0) (poolBytes q)
      rw [bufferAddr_eq]
      omega
    · cases hp

/-! ### One byte written over the bus -/

/-- The word that stands over a link once byte k of it is written. -/
def putByte (w : Word) (k : Nat) (b : Byte) : Word := word (replaceBits w.toNat (8 * k) 8 b.toNat)

/-- Byte k of a word. -/
def byteOf (w : Word) (k : Nat) : Byte := BitVec.ofNat 8 (w.toNat / 256 ^ k)

theorem byteOf_putByte (w : Word) {k j : Nat} (b : Byte) (hk : k < 8) : byteOf (putByte w k b) j = if j = k then b else byteOf w j := by
  have hpow : ∀ n, 256 ^ n = 2 ^ (8 * n) := fun n => by rw [Nat.pow_mul]
  apply BitVec.eq_of_toNat_eq
  have hput : (putByte w k b).toNat = replaceBits w.toNat (8 * k) 8 b.toNat := toNat_word (replaceBits_lt _ w.isLt (by omega))
  rw [byteOf, BitVec.toNat_ofNat, hput, hpow]
  by_cases h : j = k
  · rw [if_pos h, h, replaceBits_div_mod_same, Nat.mod_eq_of_lt b.isLt]
  · rw [if_neg h, replaceBits_div_mod_other _ _ (by omega), byteOf, BitVec.toNat_ofNat, hpow]

theorem overLink_eq_of_link {d : Dev} {a q i k : Nat} (b : Byte) (h : linkAt d a = some (q, i, k)) :
    overLink d a b = withSpoilt d q ((freeList d q).spoilt.set none i (some (putByte (linkNow d q i) k b))) := by
  have hpow : 256 ^ k = 2 ^ (8 * k) := by rw [Nat.pow_mul]
  unfold overLink putByte replaceBits
  rw [h, Nat.mod_eq_of_lt b.isLt, ← hpow]
  rfl

theorem overLink_eq_of_none {d : Dev} {a : Nat} (b : Byte) (h : linkAt d a = none) : overLink d a b = d := by
  unfold overLink
  rw [h]

theorem onlyFree_overLink (d : Dev) (a : Nat) (b : Byte) : onlyFree d (overLink d a b) := by
  cases h : linkAt d a with
  | none => rw [overLink_eq_of_none b h]; exact onlyFree_refl d
  | some x => rw [overLink_eq_of_link b h]; exact onlyFree_withSpoilt ..

theorem linkAt_overLink (d : Dev) (a : Nat) (b : Byte) (x : Nat) : linkAt (overLink d a b) x = linkAt d x := by
  cases h : linkAt d a with
  | none => rw [overLink_eq_of_none b h]
  | some y => rw [overLink_eq_of_link b h, linkAt_withSpoilt]

/-- A byte of the bus: that of a link, or that of memory. -/
def busByteOf (d : Dev) (a : Nat) (m : Byte) : Byte :=
  match linkAt d a with
  | some (q, i, k) => byteOf (linkNow d q i) k
  | none => m

theorem busByte_eq (s : State) (a : Nat) : busByte s a = busByteOf s.dev a (s.byte a) := rfl

theorem busByteOf_link {d : Dev} {a q i k : Nat} (m : Byte) (h : linkAt d a = some (q, i, k)) :
    busByteOf d a m = byteOf (linkNow d q i) k := by
  unfold busByteOf; rw [h]

theorem busByteOf_none {d : Dev} {a : Nat} (m : Byte) (h : linkAt d a = none) : busByteOf d a m = m := by
  unfold busByteOf; rw [h]

/-- A byte of a link that is written stands there. -/
theorem busByteOf_overLink_same (d : Dev) (a : Nat) (b : Byte) : busByteOf (overLink d a b) a b = b := by
  cases h : linkAt d a with
  | none => rw [overLink_eq_of_none b h, busByteOf_none b h]
  | some x =>
    obtain ⟨q, i, k⟩ := x
    have h' := linkAt_overLink d a b a
    rw [busByteOf_link b (h'.trans h), overLink_eq_of_link b h, linkNow_put, if_pos ⟨rfl, rfl⟩, byteOf_putByte _ b (linkAt_some h).1,
      if_pos rfl]

/-- Every other byte of the bus stays. -/
theorem busByteOf_overLink_other (d : Dev) {a x : Nat} (b m : Byte) (hx : x ≠ a) : busByteOf (overLink d a b) x m = busByteOf d x m := by
  cases h : linkAt d a with
  | none => rw [overLink_eq_of_none b h]
  | some y =>
    obtain ⟨q, i, k⟩ := y
    have h' := linkAt_overLink d a b x
    cases hl : linkAt d x with
    | none => rw [busByteOf_none m (h'.trans hl), busByteOf_none m hl]
    | some z =>
      obtain ⟨p, j, l⟩ := z
      rw [busByteOf_link m (h'.trans hl), busByteOf_link m hl, overLink_eq_of_link b h, linkNow_put]
      split
      · next hpj =>
        obtain ⟨rfl, rfl⟩ := hpj
        have hlk : l ≠ k := fun e => hx ((linkAt_some hl).2.trans (e ▸ (linkAt_some h).2.symm))
        rw [byteOf_putByte _ b (linkAt_some h).1, if_neg hlk]
      · rfl

/-! ### Consecutive bytes written over the bus -/

/-- The links of a device after the first n of these bytes have been written from address a on. -/
def overLinks (d : Dev) (a : Nat) (bs : List Byte) (n : Nat) : Dev :=
  (List.range n).foldl (fun d i => overLink d (a + i) (bs.getD i 0)) d

theorem overLinks_succ (d : Dev) (a : Nat) (bs : List Byte) (n : Nat) :
    overLinks d a bs (n + 1) = overLink (overLinks d a bs n) (a + n) (bs.getD n 0) := by
  rw [overLinks, List.range_succ, List.foldl_append]; rfl

theorem onlyFree_overLinks (d : Dev) (a : Nat) (bs : List Byte) (n : Nat) : onlyFree d (overLinks d a bs n) := by
  induction n with
  | zero => exact onlyFree_refl d
  | succ n ih => rw [overLinks_succ]; exact onlyFree_trans ih (onlyFree_overLink ..)

/-- Bytes written where no free buffer has its link move nothing of the device. -/
theorem overLinks_of_none (d : Dev) (a : Nat) (bs : List Byte) (n : Nat) (h : ∀ k, k < n → linkAt d (a + k) = none) :
    overLinks d a bs n = d := by
  induction n with
  | zero => rfl
  | succ n ih =>
    rw [overLinks_succ, ih fun k hk => h k (Nat.lt_succ_of_lt hk), overLink_eq_of_none _ (h n (Nat.lt_succ_self n))]

/-- Each byte written reads as written. -/
theorem busByteOf_overLinks (d : Dev) (a : Nat) (bs : List Byte) (n k : Nat) (hk : k < n) :
    busByteOf (overLinks d a bs n) (a + k) (bs.getD k 0) = bs.getD k 0 := by
  induction n with
  | zero => exact absurd hk (Nat.not_lt_zero k)
  | succ n ih =>
    rw [overLinks_succ]
    by_cases h : k = n
    · subst h; exact busByteOf_overLink_same ..
    · rw [busByteOf_overLink_other _ _ _ (show a + k ≠ a + n by omega)]
      exact ih (by omega)

theorem dev_busStore (s : State) (a : Nat) (bs : List Byte) : (busStore s a bs).dev = overLinks s.dev a bs bs.length := rfl

theorem byte_busStore (s : State) (a : Nat) (bs : List Byte) (x : Nat) : (busStore s a bs).byte x = (s.store a bs).byte x := rfl

/-- A write over the bus: the bytes read as written, in memory and over the links of free buffers; no other byte of memory and nothing of
the device but its free lists moves, and not these where no link lies (R280, R283, R412). -/
theorem busStore_effect (s : State) {a : Nat} {bs : List Byte} (h : a + bs.length ≤ Config.memBytes) :
    let t := busStore s a bs
    (∀ k, k < bs.length → t.byte (a + k) = bs.getD k 0) ∧ (∀ k, k < bs.length → busByte t (a + k) = bs.getD k 0) ∧
      (∀ b, (b < a ∨ a + bs.length ≤ b) → t.byte b = s.byte b) ∧
      ((∀ k, k < bs.length → linkAt s.dev (a + k) = none) → t.dev = s.dev) ∧
      t.dev = { s.dev with mouth := { s.dev.mouth with free := t.dev.mouth.free } } ∧ t.nv = s.nv ∧ t.pending = s.pending := by
  intro t
  have hbyte : ∀ k, k < bs.length → t.byte (a + k) = bs.getD k 0 := fun k hk => by
    rw [byte_busStore, State.byte_store_inside s a bs k hk h, List.getD_eq_getElem?_getD, List.getElem?_eq_getElem hk, Option.getD_some]
  refine ⟨hbyte, fun k hk => ?_, fun b hb => ?_, fun hnone => ?_, ?_, rfl, rfl⟩
  · rw [busByte_eq, hbyte k hk, dev_busStore, busByteOf_overLinks s.dev a bs bs.length k hk]
  · rw [byte_busStore, State.byte_store_outside s a bs b hb]
  · rw [dev_busStore, overLinks_of_none s.dev a bs bs.length hnone]
  · exact onlyFree_overLinks s.dev a bs bs.length

end Sys2Proof.Machine

/-! SUPPORT. The happenings of PCIe on a die that runs, and one step of the machine. -/

namespace Sys2Proof.Machine

/-- The device once its link is known to be down. -/
def linkLost (d : Dev) : Dev := { d with pwr := { d.pwr with linkUp := false } }

@[simp] theorem reg_linkLost (d : Dev) (a : Nat) : reg (linkLost d) a = reg d a := rfl
@[simp] theorem linkLost_pwr (d : Dev) : (linkLost d).pwr = { d.pwr with linkUp := false } := rfl
theorem core_linkLost (d : Dev) : (linkLost d).core = { d.core with pwr := (linkLost d).pwr } := rfl

/-! ### The commands of PCIe on a die that runs -/

section Alive

variable {s : State} (h : alive s.dev = true)
include h

theorem exec_functionLevelReset_alive (f : Fin 193) :
    exec (.functionLevelReset f) s = .next (s.onDev fun d => functionReset d f.val) := by
  show ok (if alive s.dev then _ else s) = _
  rw [if_pos h, ok_eq]

theorem exec_errorCompletion_alive (r : HostRequest) : exec (.errorCompletion r) s = .next (errorCompletion s r) := by
  show ok (if alive s.dev then _ else s) = _
  rw [if_pos h, ok_eq]

theorem exec_completionTimeout_alive (r : HostRequest) : exec (.completionTimeout r) s = .next (requestTimeout s r) := by
  show ok (if alive s.dev then _ else s) = _
  rw [if_pos h, ok_eq]

theorem exec_completionTimeoutValue_some {code : Fin 16} {us : Nat} (hr : timeoutRange code.val = some us) :
    exec (.completionTimeoutValue code) s = .next (s.onDev fun d => setRegFld d rPcieCtrl 31 0 us) := by
  show execCompletionTimeoutValue code s = _
  rw [execCompletionTimeoutValue, if_pos h, hr, ok_eq]

theorem exec_completionTimeoutValue_none {code : Fin 16} (hr : timeoutRange code.val = none) :
    exec (.completionTimeoutValue code) s = .next s := by
  show execCompletionTimeoutValue code s = _
  rw [execCompletionTimeoutValue, if_pos h, hr, ok_eq]

theorem exec_lateCompletion_alive : exec .lateCompletion s = .next (s.onDev fun d => incErr d rPcieLateCpl) := by
  show ok (if alive s.dev then _ else s) = _
  rw [if_pos h, ok_eq]

theorem exec_bar2Access_alive {off len : Nat} (bytes : Option (List Byte)) (hl : off + len ≤ bar2Size s.dev) :
    exec (.bar2Access off bytes len) s = .next (bar2Access s off bytes len) := by
  show ok (if (alive s.dev && decide (off + len ≤ bar2Size s.dev)) = true then _ else s) = _
  rw [if_pos (by rw [h, decide_eq_true hl]; rfl), ok_eq]

theorem exec_pcieLinkDown_alive :
    exec .pcieLinkDown s = .next (s.onDev fun d => linkLost (setReg d rPcieLink 0)) := by
  show execPcieLinkDown s = _
  rw [execPcieLinkDown, if_pos h, ok_eq]
  rfl

theorem exec_pcieLinkUp_alive (width speed : Nat) (flit : Bool) :
    exec (.pcieLinkUp width speed flit) s = .next (s.onDev fun d => linkTrained d width speed flit) := by
  show ok (if alive s.dev then _ else s) = _
  rw [if_pos h, ok_eq]

end Alive

/-! ### What the registers of the window, the timeouts and the link become -/

/-- The ranges of the Completion Timeout Value fit CTO_US (R413). -/
theorem timeoutRange_lt {code us : Nat} (h : timeoutRange code = some us) : us < 2 ^ 32 := by
  unfold timeoutRange at h
  split at h <;> cases h <;> decide

theorem sameOutside_onDev (s : State) (f : Dev → Dev) : sameOutside s (s.onDev f) := ⟨rfl, rfl, rfl, rfl⟩

/-- One register that is set: it reads as set, and nothing else of the state moves. -/
theorem setReg_effect (s : State) (a : Nat) (v : Word) :
    let t := s.onDev fun d => setReg d a v
    reg t.dev a = v ∧ (∀ b, b ≠ a → reg t.dev b = reg s.dev b) ∧ t.dev = { s.dev with regs := t.dev.regs } ∧ sameOutside s t :=
  ⟨reg_setReg_same .., fun _ hb => reg_setReg_other _ _ hb, rfl, rfl, rfl, rfl, rfl⟩

theorem calBlk_setCal (d : Dev) (b : Nat) (x : CalBlk) (k : Nat) : (d.setCal b x).calBlk k = if k = b then x else d.calBlk k :=
  Tab.get_set ..

/-- The word that PCIE_LINK holds for a link of this width, speed and framing (R502). -/
def linkStatus (width speed : Nat) (flit : Bool) : Word :=
  word (width % 256 * 2 ^ 56 + speed % 256 * 2 ^ 48 + flit.toNat * 2 ^ 47)

/-- The device once its link is known to be up. -/
def linkSeenUp (d : Dev) : Dev := { d with pwr := { d.pwr with linkUp := true, linkSeen := true } }

@[simp] theorem reg_linkSeenUp (d : Dev) (a : Nat) : reg (linkSeenUp d) a = reg d a := rfl
@[simp] theorem linkSeenUp_pwr (d : Dev) : (linkSeenUp d).pwr = { d.pwr with linkUp := true, linkSeen := true } := rfl
@[simp] theorem linkSeenUp_streams (d : Dev) : (linkSeenUp d).streams = d.streams := rfl
@[simp] theorem calBlk_linkSeenUp (d : Dev) (b : Nat) : (linkSeenUp d).calBlk b = d.calBlk b := rfl
@[simp] theorem calBlk_setReg (d : Dev) (a : Nat) (v : Word) (b : Nat) : (setReg d a v).calBlk b = d.calBlk b := rfl
@[simp] theorem reg_setCal (d : Dev) (b : Nat) (x : CalBlk) (a : Nat) : reg (d.setCal b x) a = reg d a := rfl

/-- The first training after a boot runs the boot pair of block 34; a later one does not (R512). -/
theorem linkTrained_eq (d : Dev) (width speed : Nat) (flit : Bool) :
    linkTrained d width speed flit =
      if d.pwr.linkSeen then linkSeenUp (setReg d rPcieLink (linkStatus width speed flit))
      else (linkSeenUp (setReg d rPcieLink (linkStatus width speed flit))).setCal 34 { stage := 2 } := by
  rw [linkTrained, linkStatus, linkSeenUp, setReg_pwr]
  cases d.pwr.linkSeen
  · rw [if_neg Bool.false_ne_true, if_pos Bool.not_false]
  · rw [if_pos rfl, if_neg (by decide)]

/-- What a trained link moves: its register, its state, and at its first training block 34 of the calibration. -/
theorem linkTrained_effect (d : Dev) (width speed : Nat) (flit : Bool) :
    reg (linkTrained d width speed flit) rPcieLink = linkStatus width speed flit ∧
      (linkTrained d width speed flit).pwr = { d.pwr with linkUp := true, linkSeen := true } ∧
      (d.pwr.linkSeen = false → ((linkTrained d width speed flit).calBlk 34).stage = 2) ∧
      (∀ b, b ≠ 34 → (linkTrained d width speed flit).calBlk b = d.calBlk b) ∧
      (∀ a, a ≠ rPcieLink → reg (linkTrained d width speed flit) a = reg d a) ∧
      (linkTrained d width speed flit).streams = d.streams := by
  rw [linkTrained_eq]
  cases hs : d.pwr.linkSeen with
  | true =>
    rw [if_pos rfl]
    refine ⟨?_, ?_, fun h => Bool.noConfusion h, fun b _ => ?_, fun a ha => ?_, ?_⟩
    · rw [reg_linkSeenUp, reg_setReg_same]
    · rw [linkSeenUp_pwr, setReg_pwr]
    · rw [calBlk_linkSeenUp, calBlk_setReg]
    · rw [reg_linkSeenUp, reg_setReg_other _ _ ha]
    · rw [linkSeenUp_streams, setReg_streams]
  | false =>
    rw [if_neg Bool.false_ne_true]
    refine ⟨?_, ?_, fun _ => ?_, fun b hb => ?_, fun a ha => ?_, ?_⟩
    · rw [reg_setCal, reg_linkSeenUp, reg_setReg_same]
    · rw [Dev.setCal_pwr, linkSeenUp_pwr, setReg_pwr]
    · rw [calBlk_setCal, if_pos rfl]
    · rw [calBlk_setCal, if_neg hb, calBlk_linkSeenUp, calBlk_setReg]
    · rw [reg_setCal, reg_linkSeenUp, reg_setReg_other _ _ ha]
    · rw [Dev.setCal_streams, linkSeenUp_streams, setReg_streams]

@[simp] theorem reg_emit (d : Dev) (o : Out) (a : Nat) : reg (emit d o) a = reg d a := rfl

theorem mem_out_emit (d : Dev) (o : Out) : o ∈ (emit d o).out := List.mem_append_right _ (List.mem_singleton_self o)

/-- A granted access lies in device memory (R408). -/
theorem memGranted_backed {d : Dev} {m a len : Nat} {write : Bool} (h : memGranted d m a len write = true) : a + len ≤ Config.memBytes := by
  unfold memGranted at h
  rw [Bool.and_eq_true, decide_eq_true_eq] at h
  exact h.1

section Window

variable (s : State) (off len : Nat)

theorem bar2Access_write_granted (bs : List Byte) (h : memGranted s.dev 0 ((reg s.dev rPcieBar2Offset).toNat + off) bs.length true = true) :
    bar2Access s off (some bs) len = busStore s ((reg s.dev rPcieBar2Offset).toNat + off) bs := if_pos h

theorem bar2Access_write_denied (bs : List Byte) (h : memGranted s.dev 0 ((reg s.dev rPcieBar2Offset).toNat + off) bs.length true = false) :
    bar2Access s off (some bs) len = s.onDev fun d =>
      deny d 0 1 (deniedWindow d 0 ((reg s.dev rPcieBar2Offset).toNat + off) bs.length true) 1 ((reg s.dev rPcieBar2Offset).toNat + off) none :=
  if_neg (by rw [h]; exact Bool.false_ne_true)

theorem bar2Access_read_granted (h : memGranted s.dev 0 ((reg s.dev rPcieBar2Offset).toNat + off) len false = true) :
    bar2Access s off none len = s.onDev fun d =>
      emit d (.bytes ((List.range len).map fun i => busByte s ((reg s.dev rPcieBar2Offset).toNat + off + i)) false) := if_pos h

theorem bar2Access_read_denied (h : memGranted s.dev 0 ((reg s.dev rPcieBar2Offset).toNat + off) len false = false) :
    bar2Access s off none len = s.onDev fun d =>
      emit (deny d 0 0 (deniedWindow d 0 ((reg s.dev rPcieBar2Offset).toNat + off) len false) 1 ((reg s.dev rPcieBar2Offset).toNat + off) none)
        (.bytes (List.replicate len 0) false) :=
  if_neg (by rw [h]; exact Bool.false_ne_true)

end Window

/-! ### The statements -/

/-- Settles O49, one clause per happening: each is the effect lemma of its operation on a die that runs. -/
theorem pcieHappenings : Obligations.PcieHappenings := by
  unfold Obligations.PcieHappenings
  intro s h
  refine ⟨fun f => ?functionReset,
    ⟨fun f _ he hh => ⟨?ringError, ?ringTimeout⟩, fun c hc hchain => ⟨fun tail htail => ?chainError, fun tail => ?chainTimeout⟩⟩,
    fun code => ⟨fun us hus => ?timeoutValue, exec_completionTimeoutValue_none h⟩, ?lateCompletion,
    fun off len hl => ⟨fun bs => ⟨fun hg => ?windowWrite, fun hg => ?deniedWrite⟩, fun hg => ?windowRead, fun hg => ?deniedRead⟩,
    ?linkDown, fun width speed flit => ?linkUp⟩
  case functionReset =>
    obtain ⟨hring, heq, hsub, hso, hco, hstreams⟩ := functionReset_effect s.dev (f := f.val) (by omega)
    exact ⟨_, exec_functionLevelReset_alive h f, hring, heq, hsub, hso, hco, hstreams, rfl, rfl, rfl, rfl⟩
  case ringError => exact ⟨_, exec_errorCompletion_alive h (.slots f), haltRing_effect s (by decide) he hh⟩
  case ringTimeout => exact ⟨_, exec_completionTimeout_alive h (.slots f), haltRing_effect s (by decide) he hh⟩
  case chainError =>
    refine ⟨s.onDev fun d => abandon d c 3 4 3, ?_, abandon_effect s 4 3 hc (by decide) hchain⟩
    rw [exec_errorCompletion_alive h, errorCompletion, if_neg (by rw [htail]; exact Bool.false_ne_true)]
    exact congrArg (fun d => Host.Outcome.next { s with dev := d }) (hostFailure_of_chain 3 4 3 hchain)
  case chainTimeout =>
    refine ⟨s.onDev fun d => abandon d c 2 3 2, ?_, abandon_effect s 3 2 hc (by decide) hchain⟩
    rw [exec_completionTimeout_alive h]
    exact congrArg (fun d => Host.Outcome.next { s with dev := d }) (hostFailure_of_chain 2 3 2 hchain)
  case timeoutValue =>
    refine ⟨_, exec_completionTimeoutValue_some h hus, ?_, (setReg_effect s _ _).2⟩
    exact (regFld_setRegFld_same s.dev rPcieCtrl us (by decide) (by decide)).trans (Nat.mod_eq_of_lt (timeoutRange_lt hus))
  case lateCompletion => exact ⟨_, exec_lateCompletion_alive h, setReg_effect s _ _⟩
  case windowWrite =>
    refine ⟨_, exec_bar2Access_alive h (some bs) hl, ?_⟩
    rw [bar2Access_write_granted s off len bs hg]
    exact busStore_effect s (memGranted_backed hg)
  case deniedWrite =>
    refine ⟨_, exec_bar2Access_alive h (some bs) hl, ?_⟩
    rw [bar2Access_write_denied s off len bs hg, State.onDev_dev]
    exact ⟨reg_deny_count .., core_deny .., sameOutside_onDev ..⟩
  case windowRead => rw [exec_bar2Access_alive h none hl, bar2Access_read_granted s off len hg]
  case deniedRead =>
    refine ⟨_, exec_bar2Access_alive h none hl, ?_⟩
    rw [bar2Access_read_denied s off len hg, State.onDev_dev, reg_emit, core_emit]
    exact ⟨mem_out_emit .., reg_deny_count .., core_deny .., sameOutside_onDev ..⟩
  case linkDown =>
    refine ⟨_, exec_pcieLinkDown_alive h, ?_⟩
    rw [State.onDev_dev]
    refine ⟨?_, ?_, fun a _ ha => ?_, ?_, sameOutside_onDev ..⟩
    · rw [reg_linkLost, reg_setReg_same]
    · rw [linkLost_pwr, setReg_pwr]
    · rw [State.onDev_dev, reg_linkLost, reg_setReg_other _ _ (by simpa using ha)]
    · rw [core_linkLost, core_setReg]
  case linkUp =>
    obtain ⟨hlink, hpwr, hpair, hcal, hregs, hstreams⟩ := linkTrained_effect s.dev width speed flit
    refine ⟨_, exec_pcieLinkUp_alive h width speed flit, hlink, hpwr, hpair, hcal, fun a _ ha => ?_, hstreams, sameOutside_onDev ..⟩
    exact hregs a (by simpa using ha)

theorem step_cons (c : Instr) (rest : List Instr) (s : State) : step { s with pending := c :: rest } = exec c { s with pending := rest } := rfl

theorem step_nil {s : State} (h : s.pending = []) : step s = .next (idle s) := by
  unfold step
  rw [h]

/-- Settles O57: the two arms of a step. -/
theorem stepRunsTheFrontCommand : Obligations.StepRunsTheFrontCommand :=
  ⟨step_cons, fun s h => ⟨idle s, step_nil h, rfl, rfl, rfl, rfl, rfl⟩⟩

end Sys2Proof.Machine

/-! SUPPORT. Owners of streams and decode contexts, and who may open an entry (R18 to R20, R32, R392). -/

namespace Sys2Proof.Machine

/-! ### Who may open an entry (R19, R32, R388) -/

/-- The issuer may open entry n: it names one that it owns, or the PF leaves the choice and n is the one found (R32). -/
def mayOpen (p : Pkt) (owner : Nat) (found : Option Nat) (n : Nat) : Prop :=
  if p.target = 0xFFFF then p.fn = 0 ∧ found = some n else notOwner p owner = false ∧ n = p.target

section MayOpen

variable {p : Pkt} {owner n : Nat} {found : Option Nat} (h : mayOpen p owner found n)
include h

theorem mayOpen_issuer : (p.target == 0xFFFF && p.fn != 0 || p.target != 0xFFFF && notOwner p owner) = false := by
  unfold mayOpen at h
  split at h
  · next ht => simp [ht, h.1]
  · next ht => simp [ht, h.1]

theorem mayOpen_target (ht : p.target ≠ 0xFFFF) : n = p.target := by
  rw [mayOpen, if_neg ht] at h
  exact h.2

theorem mayOpen_found (hfound : p.target ≠ 0xFFFF → found = some p.target) : found = some n := by
  by_cases ht : p.target = 0xFFFF
  · rw [mayOpen, if_pos ht] at h
    exact h.2
  · rw [hfound ht, mayOpen_target h ht]

end MayOpen

/-! ### Ownership (R18, R20, R392) -/

/-- A device without an entry in its tables of owners has the owners of R18. -/
theorem owners_of_empty {d : Dev} (hs : d.sOwner = []) (hc : d.cOwner = []) :
    (∀ n < 192, d.streamOwner n = n + 1) ∧ ∀ c < 96, d.ctxOwner c = 0 :=
  ⟨fun n _ => by rw [Dev.streamOwner, hs]; rfl, fun c _ => by rw [Dev.ctxOwner, hc]; rfl⟩

/-- Settles O58: a reset empties both tables of owners. -/
theorem ownershipAfterReset : Obligations.OwnershipAfterReset := by
  rintro d (rfl | ⟨s, kind, die, rfl⟩)
  · exact owners_of_empty rfl rfl
  · exact owners_of_empty rfl rfl

theorem Dev.pcie_of_core {d d' : Dev} (h : d'.core = d.core) : d'.pcie = d.pcie := (congrArg Dev.pcie h :)

theorem Dev.functionOn_of_core {d d' : Dev} (h : d'.core = d.core) (f : Nat) : d'.functionOn f = d.functionOn f := by
  rw [Dev.functionOn, Dev.functionOn, Dev.pcie_of_core h]

/-- A change of owner moves the two tables of owners alone, beside events. -/
theorem core_assign (d : Dev) (ctx : Bool) (n m : Nat) :
    (assign d ctx n m).core = (if ctx then d.setCtxOwner n m else d.setStreamOwner n m).core := by
  cases ctx with
  | true => rfl
  | false => exact core_assign_stream d n m

theorem streamOwner_assign (d : Dev) (ctx : Bool) (n m k : Nat) :
    (assign d ctx n m).streamOwner k = if ctx = false ∧ k = n then m else d.streamOwner k := by
  rw [Dev.streamOwner_of_core (core_assign d ctx n m)]
  cases ctx with
  | true => simp only [Bool.true_eq_false, false_and, if_false]; rfl
  | false => simpa using streamOwner_setStreamOwner d n m k

theorem ctxOwner_assign (d : Dev) (ctx : Bool) (n m k : Nat) :
    (assign d ctx n m).ctxOwner k = if ctx = true ∧ k = n then m else d.ctxOwner k := by
  rw [Dev.ctxOwner_of_core (core_assign d ctx n m)]
  cases ctx with
  | true => simpa using ctxOwner_setCtxOwner d n m k
  | false => simp only [Bool.false_eq_true, false_and, if_false]; rfl

theorem core_assign_owners (d : Dev) (ctx : Bool) (n m : Nat) :
    (assign d ctx n m).core = { d.core with sOwner := (assign d ctx n m).sOwner, cOwner := (assign d ctx n m).cOwner } := by
  rw [Dev.sOwner_of_core (core_assign d ctx n m), Dev.cOwner_of_core (core_assign d ctx n m), core_assign]
  cases ctx <;> rfl

theorem sameRegs_assign (d : Dev) (ctx : Bool) (n m : Nat) : sameRegs d (assign d ctx n m) :=
  fun _ he _ => reg_assign d ctx n m (eventSteady_of_not_eventPage he)

/-- Settles O6: the owner that the packet names is set, and every other entry of the two tables stays. -/
theorem assignMovesOwnership : Obligations.AssignMovesOwnership := by
  intro fn hdr ps s p h hfn hhdr hw hon
  have hexec : exec (.streamAssign fn hdr ps) s = ok (submit opStreamAssign p s) := rfl
  have hpf : p.fn = 0 := hfn
  clear_value p
  have hcore := core_taken p s
  have hgo : opStreamAssign (taken p s) p =
      ((taken p s).onDev fun d => assign d (p.b 1 63) p.target (p.f 1 7 0), .now stOk [] p.target) := by
    have hnone : firstRefusal
        [ (hdrBad p 1 (if p.b 1 63 then 96 else 192), stBadParam), (p.fn != 0, stDenied)
        , (!within (p.w 1) (ones 63 63 ||| ones 7 0) || !(taken p s).dev.functionOn (p.f 1 7 0), stBadParam) ] = none := by
      rw [hhdr, hpf, hw, Dev.functionOn_of_core hcore, hon]; rfl
    exact simply_ok hnone
  refine ⟨_, hexec.trans (congrArg ok (submit_answered h hgo)), ?_, ?_, ?_, ?_, ?_, sameOutside_taken p s _, ?_⟩
  · intro hb; rw [State.onDev_dev, streamOwner_assign, if_pos ⟨hb, rfl⟩]
  · intro hb; rw [State.onDev_dev, ctxOwner_assign, if_pos ⟨hb, rfl⟩]
  · intro n hn
    rw [State.onDev_dev, streamOwner_assign, if_neg (by rintro ⟨hb, rfl⟩; simp [hb] at hn), Dev.streamOwner_of_core hcore]
  · intro c hc
    rw [State.onDev_dev, ctxOwner_assign, if_neg (by rintro ⟨hb, rfl⟩; simp [hb] at hc), Dev.ctxOwner_of_core hcore]
  · rw [State.onDev_dev, core_assign_owners, hcore]
  · exact sameRegs_trans (sameRegs_taken s.dev p h.1) (sameRegs_assign (taken p s).dev _ _ _)

end Sys2Proof.Machine

/-! SUPPORT. Grants in the state in which a packet has been taken, and the admission of a stream (R23 to R29, R37, R38, R390, R431). -/

namespace Sys2Proof.Machine

/-! ### Grants in the state in which a packet has been taken (R431 to R436) -/

/-- Devices of one core whose registers agree outside the pages of events and rings. -/
def sameGrants (d d' : Dev) : Prop := d'.core = d.core ∧ sameRegs d d'

theorem sameGrants_taken {p : Pkt} (s : State) (hf : p.fn ≤ 192) : sameGrants s.dev (taken p s).dev :=
  ⟨core_taken p s, sameRegs_taken s.dev p hf⟩

section Grants

variable {d d' : Dev} (h : sameGrants d d')
include h

theorem granted_same (t m : Nat) (write inst : Bool) : granted d' t m write inst = granted d t m write inst := by
  have hlock : accessLocked d' = accessLocked d :=
    congrArg (bit · 62) (h.2 rSecLocks (by unfold eventPage rSecLocks; omega) (by unfold ringPage rSecLocks; omega))
  have hcode : accCode d' t m = accCode d t m := by
    unfold accCode
    rw [Dev.acc_of_core h.1, Dev.accStd_of_core h.1]
  unfold granted
  rw [hlock, hcode]

theorem winGranted_same (m k : Nat) (write : Bool) : winGranted d' m k write = winGranted d m k write := by
  unfold winGranted
  by_cases hk : k < 256
  · have hreg : reg d' (rWinAssign k) = reg d (rWinAssign k) :=
      h.2 _ (by unfold eventPage rWinAssign; omega) (by unfold ringPage rWinAssign; omega)
    rw [granted_same h, regBit, regBit, regFld, regFld, hreg]
  · simp [hk]

theorem memGranted_same (m a len : Nat) (write : Bool) : memGranted d' m a len write = memGranted d m a len write := by
  unfold memGranted
  simp only [winGranted_same h]

end Grants

/-! ### The placement of a stream (R27, R455) -/

theorem stream_setStream_same (d : Dev) (n : Nat) (x : Stream) : (d.setStream n x).stream n = x := Tab.get_set_same ..

theorem stream_setStream_other (d : Dev) {n m : Nat} (x : Stream) (h : m ≠ n) : (d.setStream n x).stream m = d.stream m :=
  Tab.get_set_other d.streams _ _ h

/-- What each step of a fold of partial steps keeps, the fold keeps. -/
theorem foldl_bind_keeps {α β : Type} {P : β → Prop} {g : β → α → Option β} (step : ∀ b a b', g b a = some b' → P b → P b') (l : List α)
    {b b' : β} (h : l.foldl (fun o a => o.bind fun x => g x a) (some b) = some b') (hb : P b) : P b' := by
  induction l generalizing b with
  | nil => cases h; exact hb
  | cons a r ih =>
    have hnone : ∀ k : List α, k.foldl (fun o a => o.bind fun x => g x a) none = none := fun k => by
      induction k with
      | nil => rfl
      | cons _ _ ihk => exact ihk
    cases hg : g b a with
    | none => rw [List.foldl_cons, Option.bind_some, hg, hnone] at h; cases h
    | some x => rw [List.foldl_cons, Option.bind_some, hg] at h; exact ih h (step _ _ _ hg hb)

/-- At most the parts of stream n and the allocations move. -/
def placesStream (n : Nat) (d e : Dev) : Prop :=
  e = { d with streams := e.streams, allocs := e.allocs } ∧ (∀ m, m ≠ n → e.stream m = d.stream m) ∧
    e.stream n = { d.stream n with parts := (e.stream n).parts }

theorem placesStream_refl (n : Nat) (d : Dev) : placesStream n d d := ⟨rfl, fun _ _ => rfl, rfl⟩

theorem placesStream_trans {n : Nat} {a b c : Dev} (h : placesStream n a b) (k : placesStream n b c) : placesStream n a c := by
  obtain ⟨hd, hother, hn⟩ := h
  obtain ⟨kd, kother, kn⟩ := k
  refine ⟨?_, fun m hm => (kother m hm).trans (hother m hm), ?_⟩
  · rw [kd, hd]
  · rw [kn, hn]

/-- An allocation moves the list of allocations alone. -/
theorem allocate_effect {d e : Dev} {region owner : Nat} {sizes : List Nat} (h : allocate d region owner sizes = some e) :
    e = { d with allocs := e.allocs } := by
  unfold allocate at h
  dsimp only at h
  split at h
  · cases h
  · refine foldl_bind_keeps (P := fun x : Dev => x = { d with allocs := x.allocs }) (fun b a b' hg hb => ?_) _ h rfl
    obtain ⟨at_, -, rfl⟩ := Option.map_eq_some_iff.mp hg
    rw [hb]

theorem placesStream_allocate {d e : Dev} {region owner : Nat} {sizes : List Nat} (n : Nat) (h : allocate d region owner sizes = some e) :
    placesStream n d e := by
  rw [allocate_effect h]
  exact ⟨rfl, fun _ _ => rfl, rfl⟩

theorem placesStream_place {d e : Dev} {n : Nat} {loads : List Nat} (h : place d n loads = some e) : placesStream n d e := by
  unfold place at h
  split at h
  · cases h
  · refine foldl_bind_keeps (P := placesStream n d) (fun b a b' hg hb => ?_) _ h (placesStream_refl n d)
    obtain ⟨g, -, rfl⟩ := Option.map_eq_some_iff.mp hg
    refine placesStream_trans hb ⟨rfl, fun m hm => stream_onStream_other _ _ hm, ?_⟩
    rw [stream_onStream_same]

/-- A stream that is admitted: it arms with the configuration and the rate parameters of its words and has its parts; no other stream
moves. -/
theorem admitStream_effect {d e : Dev} {n : Nat} {c : StreamCfg} {p : RateParams} (h : admitStream d n c p = some e) :
    e.stream n =
        { freshStream c p with
          rateCnt := (d.stream n).rateCnt, refCnt := (d.stream n).refCnt, availCnt := (d.stream n).availCnt, parts := (e.stream n).parts } ∧
      (∀ m, m ≠ n → e.stream m = d.stream m) ∧ e = { d with streams := e.streams, allocs := e.allocs } := by
  unfold admitStream at h
  dsimp only at h
  obtain ⟨x, hx, he⟩ := Option.bind_eq_some_iff.mp h
  obtain ⟨hd, hother, hn⟩ := placesStream_trans (placesStream_place hx) (placesStream_allocate n he)
  refine ⟨?_, fun m hm => ?_, ?_⟩
  · rw [hn, stream_setStream_same]
  · rw [hother m hm, stream_setStream_other _ _ hm]
  · rw [hd]; rfl

/-! ### STREAM.OPEN (R37, R38, R390) -/

/-- The advice of every stream is recomputed: beside events, registers move alone. -/
theorem core_rephase (d : Dev) : (rephase d).core = d.core := by
  unfold rephase
  refine each_keeps (P := fun x : Dev => x.core = d.core) _ (fun x n hx => ?_) _ _ rfl
  dsimp only
  split
  · exact hx
  · split
    · rw [core_setReg, hx]
    · rw [core_raise, core_setReg, hx]

theorem core_armStream (d : Dev) (n : Nat) : (armStream d n).core = d.core := by
  rw [armStream, core_rephase, clearLantern, core_setReg, core_setReg]

theorem openTarget_of_core {d d' : Dev} (h : d'.core = d.core) (p : Pkt) : openTarget d' p = openTarget d p := by
  unfold openTarget
  simp only [Dev.streamOwner_of_core h, Dev.stream_of_core h]

/-- STREAM.OPEN whose checks all pass. -/
theorem opStreamOpen_accepted {s : State} {p : Pkt} {n : Nat} {d : Dev} (hhdr : hdrBadOpen p 9 192 = false)
    (hn : mayOpen p (s.dev.streamOwner p.target) (openTarget s.dev p) n)
    (hmem : memGranted s.dev p.fn (cfgOf p).ringBase ((cfgOf p).slotCount * (cfgOf p).slotStride) true = true)
    (hfree : (s.dev.stream n).phase = .free) (harm : (s.dev.stream n).arming = false) (hw : openWordsOk p = true)
    (hc : (cfgOf p).ok = true) (hr : (cfgOf p).rateOk ((cfgOf p).rateOf (p.w 7) (p.w 8) (p.w 9)) = true)
    (hd : admitStream s.dev n (cfgOf p) ((cfgOf p).rateOf (p.w 7) (p.w 8) (p.w 9)) = some d) :
    opStreamOpen s p = ({ s with dev := armStream d n }, .later n (openResults (d.stream n))) := by
  have htgt : openTarget s.dev p = some n := mayOpen_found hn fun h => if_pos h
  have hissuer : firstRefusal [(hdrBadOpen p 9 192, stBadParam),
      (p.target == 0xFFFF && p.fn != 0 || p.target != 0xFFFF && notOwner p (s.dev.streamOwner p.target), stDenied)] = none := by
    rw [hhdr, mayOpen_issuer hn]; rfl
  have hidle : (p.target != 0xFFFF && ((s.dev.stream p.target).phase != .free || (s.dev.stream p.target).arming)) = false := by
    by_cases h : p.target = 0xFFFF
    · simp [h]
    · rw [mayOpen_target hn h] at hfree harm
      simp [hfree, harm]
  have hwords : firstRefusal
      [ (p.target != 0xFFFF && ((s.dev.stream p.target).phase != .free || (s.dev.stream p.target).arming), stBusy)
      , (!openWordsOk p || !(cfgOf p).ok || !(cfgOf p).rateOk ((cfgOf p).rateOf (p.w 7) (p.w 8) (p.w 9)), stBadParam)
      , ((openTarget s.dev p).isNone, stNoContext) ] = none := by
    rw [hidle, hw, hc, hr, htgt]; rfl
  unfold opStreamOpen
  dsimp only
  rw [hissuer, hmem, hwords, htgt, Option.bind_some, hd]
  rfl

/-- A device with these packets outstanding. -/
def withRings (l : List Outstanding) (d : Dev) : Dev := { d with rings := l }

/-- Settles O8: the operation runs on the state in which the packet has been taken, where every check reads as before. -/
theorem openStartsTheSetUp : Obligations.OpenStartsTheSetUp := by
  intro fn hdr ps s n d p c rp h hhdr hn hmem hfree harm hw hc hr hd
  have hexec : exec (.streamOpen fn hdr ps) s = ok (submit opStreamOpen p s) := rfl
  have hfn : p.fn = fn := rfl
  have htag : p.tag = none := rfl
  clear_value p
  subst hfn
  have hcore := core_taken p s
  have hgo := opStreamOpen_accepted (s := taken p s) (n := n) hhdr
    (by rw [openTarget_of_core hcore, Dev.streamOwner_of_core hcore]; exact hn)
    ((memGranted_same (sameGrants_taken s h.1) ..).trans hmem) (by rw [Dev.stream_of_core hcore]; exact hfree)
    (by rw [Dev.stream_of_core hcore]; exact harm) hw hc hr hd
  obtain ⟨hstream, hother, hrest⟩ := admitStream_effect hd
  have harmed := core_armStream d n
  generalize armStream d n = a at hgo harmed
  have hat : ∀ m, a.stream m = d.stream m := Dev.stream_of_core harmed
  have hdev : a.core = { s.dev.core with streams := a.streams, allocs := a.allocs } := by
    rw [Dev.streams_of_core harmed, Dev.allocs_of_core harmed, harmed, hrest, ← hcore]; rfl
  have hrings : a.rings = s.dev.rings := (congrArg Dev.rings hdev :)
  refine ⟨_, hexec.trans (congrArg ok (submit_later h hgo)), ?_, ?_, ?_, ?_, ?_, ?_, fun m hm => ?_, ?_, ⟨rfl, rfl, rfl, rfl⟩⟩
  · exact (congrArg Stream.arming ((hat n).trans hstream) :)
  · exact (congrArg Stream.phase ((hat n).trans hstream) :)
  · exact (congrArg Stream.cfg ((hat n).trans hstream) :)
  · exact (congrArg Stream.params ((hat n).trans hstream) :)
  · exact congrArg Stream.parts (hat n)
  · rw [← hrings, ← htag]; rfl
  · exact (hat m).trans ((hother m hm).trans (Dev.stream_of_core hcore m))
  · exact congrArg (withRings _) hdev

end Sys2Proof.Machine

/-! SUPPORT. The DECODE commands on their context: what each moves, and that every other context stays (R16, R216, R223 to R225). -/

namespace Sys2Proof.Machine

/-! ### Contexts -/

theorem ctx_setCtx_same (d : Dev) (c : Nat) (x : Ctx) : (d.setCtx c x).ctx c = x := Tab.get_set_same ..

theorem ctx_setCtx_other (d : Dev) {c k : Nat} (x : Ctx) (h : k ≠ c) : (d.setCtx c x).ctx k = d.ctx k :=
  Tab.get_set_other d.ctxs _ _ h

theorem ctx_onCtx_same (d : Dev) (c : Nat) (f : Ctx → Ctx) : (d.onCtx c f).ctx c = f (d.ctx c) := ctx_setCtx_same ..

/-- No context of the device but c moves. -/
def otherCtxs (c : Nat) (d d' : Dev) : Prop := ∀ k, k ≠ c → d'.ctx k = d.ctx k

theorem otherCtxs_refl (c : Nat) (d : Dev) : otherCtxs c d d := fun _ _ => rfl

theorem otherCtxs_of_core (c : Nat) {d d' : Dev} (h : d'.core = d.core) : otherCtxs c d d' := fun k _ => Dev.ctx_of_core h k

theorem otherCtxs_trans {c : Nat} {a b d : Dev} (h : otherCtxs c a b) (k : otherCtxs c b d) : otherCtxs c a d :=
  fun i hi => (k i hi).trans (h i hi)

theorem otherCtxs_ite {c : Nat} {d e e' : Dev} {b : Prop} [Decidable b] (h : otherCtxs c d e) (h' : otherCtxs c d e') :
    otherCtxs c d (if b then e else e') := by
  split
  · exact h
  · exact h'

section Steps

variable {c : Nat} {d e : Dev} (h : otherCtxs c d e)
include h

theorem otherCtxs_setCtx (x : Ctx) : otherCtxs c d (e.setCtx c x) := fun k hk => (ctx_setCtx_other e x hk).trans (h k hk)

theorem otherCtxs_onCtx (f : Ctx → Ctx) : otherCtxs c d (e.onCtx c f) := otherCtxs_setCtx h _

theorem otherCtxs_ctxErr (w k : Nat) : otherCtxs c d (ctxErr e c w k) := otherCtxs_onCtx h _

theorem otherCtxs_raise {s cause x y : Nat} : otherCtxs c d (raise e s cause x y) :=
  otherCtxs_trans h (otherCtxs_of_core c (core_raise ..))

theorem otherCtxs_ctxStat (w k : Nat) : otherCtxs c d (ctxStat e c w k) :=
  otherCtxs_ite (otherCtxs_raise (otherCtxs_setCtx h _)) (otherCtxs_setCtx h _)

/-- The counters and events of an output frame are those of its context. -/
theorem otherCtxs_frameEvents {x : Ctx} {y : Shown} {taken late : Bool} : otherCtxs c d (frameEvents e c x y taken late) := by
  unfold frameEvents
  extract_lets d1 d2 l1 d3 e1
  have h1 : otherCtxs c d d1 := otherCtxs_ctxStat h 1 1
  have h2 : otherCtxs c d d2 := otherCtxs_ite (otherCtxs_raise (otherCtxs_ctxErr h1 8 1)) h1
  have hl : otherCtxs c d l1 := otherCtxs_ctxErr h2 9 1
  have h3 : otherCtxs c d d3 := otherCtxs_ite (otherCtxs_ite hl (otherCtxs_raise (otherCtxs_onCtx hl _))) h2
  have he : otherCtxs c d e1 := otherCtxs_ctxErr h3 3 1
  exact otherCtxs_ite (otherCtxs_ite (otherCtxs_raise (otherCtxs_onCtx h3 _)) h3)
    (otherCtxs_ite he (otherCtxs_raise (otherCtxs_onCtx he _)))

end Steps

/-! ### Frames that are written out (R215 to R217) -/

theorem core_storeAs (s : State) (m a : Nat) (bs : List Byte) (n : Option Nat) : (storeAs s m a bs n).1.dev.core = s.dev.core := by
  unfold storeAs
  split
  · rfl
  · exact core_deny ..

theorem core_storeSlot (s : State) (base : Nat) (rows : List (Nat × List Byte)) : (storeSlot s base rows).dev.core = s.dev.core :=
  each_keeps (P := fun t : State => t.dev.core = s.dev.core) _ (fun _ _ h => (core_storeAs ..).trans h) rows s rfl

theorem otherCtxs_outputNext (s : State) (c : Nat) : otherCtxs c s.dev (outputNext s c).dev := by
  unfold outputNext
  dsimp only
  split
  · exact otherCtxs_refl c s.dev
  · split
    · exact otherCtxs_refl c s.dev
    · rw [State.onDev_dev]
      have h : ∀ base rows, otherCtxs c s.dev (storeSlot s base rows).dev := fun _ _ => otherCtxs_of_core c (core_storeSlot ..)
      exact otherCtxs_ite (otherCtxs_trans (otherCtxs_frameEvents (otherCtxs_setCtx (h _ _) _)) (otherCtxs_of_core c (core_emit ..)))
        (otherCtxs_frameEvents (otherCtxs_setCtx (h _ _) _))

/-- Writing out the frames of context c moves no other context. -/
theorem otherCtxs_outputDue (s : State) (c : Nat) : otherCtxs c s.dev (outputDue s c).dev :=
  each_keeps (P := fun t : State => otherCtxs c s.dev t.dev) _ (fun t _ h => otherCtxs_trans h (otherCtxs_outputNext t c)) _ s
    (otherCtxs_refl c s.dev)

/-! ### The commands -/

theorem ctxRefusals_taken {p : Pkt} {s : State} {count : Nat} (h : ctxGo p s count) :
    ctxRefusals (taken p s).dev p count = [(false, stBadParam), (false, stDenied), (false, stBadState)] := by
  obtain ⟨hhdr, howner, hoff⟩ := h
  unfold ctxRefusals ctxOff at *
  rw [Dev.ctx_of_core (core_taken p s), Dev.ctxOwner_of_core (core_taken p s), hhdr, howner, hoff]

/-- One change of context c in the state in which a packet has been taken. -/
theorem onCtx_taken_effect {p : Pkt} (s : State) (hf : p.fn ≤ 192) (c : Nat) (f : Ctx → Ctx) :
    let t := (taken p s).onDev fun d => d.onCtx c f
    t.dev.ctx c = f (s.dev.ctx c) ∧ onlyCtx c s t ∧ t.dev.core = { s.dev.core with ctxs := t.dev.ctxs } ∧ sameRegs s.dev t.dev ∧
      sameOutside s t := by
  intro t
  have hcore := core_taken p s
  refine ⟨?_, otherCtxs_onCtx (otherCtxs_of_core c hcore) f, ?_, sameRegs_taken s.dev p hf, sameOutside_taken p s _⟩
  · rw [← Dev.ctx_of_core hcore]; exact ctx_onCtx_same ..
  · rw [← hcore]; rfl

/-! #### DECODE.OPEN (R17, R31, R32, R225) -/

/-- A context that is opened: it has the fields of its words and keeps its counters; beside it the allocations alone move. -/
theorem openCtx_effect {d e : Dev} {c : Nat} {x : Ctx} (h : openCtx d c x = some e) :
    e.ctx c = { x with cnt := (d.ctx c).cnt } ∧ otherCtxs c d e ∧ e = { d with ctxs := e.ctxs, allocs := e.allocs } := by
  unfold openCtx at h
  split at h
  · cases h
  · obtain ⟨a, ha, rfl⟩ := Option.map_eq_some_iff.mp h
    have hall := allocate_effect ha
    have hat : ∀ k, a.ctx k = d.ctx k := fun k => (congrArg (Dev.ctx · k) hall :)
    refine ⟨?_, otherCtxs_setCtx (fun k _ => hat k) _, ?_⟩
    · rw [ctx_setCtx_same, hat]
    · rw [hall]; rfl

theorem ctxTarget_of_core {d d' : Dev} (h : d'.core = d.core) (p : Pkt) : ctxTarget d' p = ctxTarget d p := by
  unfold ctxTarget
  simp only [Dev.ctxOwner_of_core h, Dev.ctx_of_core h]

/-- DECODE.OPEN whose checks all pass. -/
theorem opDecodeOpen_accepted {s : State} {p : Pkt} {c : Nat} {d : Dev} (hhdr : hdrBadOpen p 8 96 = false)
    (hc : mayOpen p (s.dev.ctxOwner p.target) (ctxTarget s.dev p) c)
    (hfree : (s.dev.ctx c).phase = .free) (hin : memGranted s.dev p.fn (ctxOf p).inBase (ctxOf p).inSize true = true)
    (hout : memGranted s.dev p.fn (ctxOf p).outBase ((ctxOf p).outSlots * (ctxOf p).outStride) true = true) (hok : ctxOk p = true)
    (hd : openCtx s.dev c (ctxOf p) = some d) : opDecodeOpen s p = ({ s with dev := d }, .now stOk [] c) := by
  have htgt : ctxTarget s.dev p = some c := mayOpen_found hc fun h => if_pos h
  have hissuer : firstRefusal [(hdrBadOpen p 8 96, stBadParam),
      (p.target == 0xFFFF && p.fn != 0 || p.target != 0xFFFF && notOwner p (s.dev.ctxOwner p.target), stDenied)] = none := by
    rw [hhdr, mayOpen_issuer hc]; rfl
  have hidle : (p.target != 0xFFFF && (s.dev.ctx p.target).phase != .free) = false := by
    by_cases h : p.target = 0xFFFF
    · simp [h]
    · rw [mayOpen_target hc h] at hfree
      simp [hfree]
  have hwords : firstRefusal
      [ (p.target != 0xFFFF && (s.dev.ctx p.target).phase != .free, stBusy), (!ctxOk p, stBadParam)
      , ((ctxTarget s.dev p).isNone, stNoContext) ] = none := by
    rw [hidle, hok, htgt]; rfl
  unfold opDecodeOpen
  dsimp only
  rw [hissuer, hin, hout, hwords, htgt, Option.bind_some, hd]
  rfl

theorem decodeOpen_effect {p : Pkt} {s : State} {c : Nat} {d : Dev} (h : takesNow p s) (hhdr : hdrBadOpen p 8 96 = false)
    (hc : mayOpen p (s.dev.ctxOwner p.target) (ctxTarget s.dev p) c) (hfree : (s.dev.ctx c).phase = .free)
    (hin : memGranted s.dev p.fn (ctxOf p).inBase (ctxOf p).inSize true = true)
    (hout : memGranted s.dev p.fn (ctxOf p).outBase ((ctxOf p).outSlots * (ctxOf p).outStride) true = true) (hok : ctxOk p = true)
    (hd : openCtx (taken p s).dev c (ctxOf p) = some d) :
    ∃ t, submit opDecodeOpen p s = answered p t stOk [] c ∧ t.dev.ctx c = { ctxOf p with cnt := (s.dev.ctx c).cnt } ∧
      t.dev.allocs = d.allocs ∧ onlyCtx c s t ∧ t.dev.core = { s.dev.core with ctxs := t.dev.ctxs, allocs := t.dev.allocs } ∧
      sameRegs s.dev t.dev ∧ sameOutside s t := by
  have hcore := core_taken p s
  have hgrants := sameGrants_taken s h.1
  obtain ⟨hctx, hother, hrest⟩ := openCtx_effect hd
  have hgo := opDecodeOpen_accepted (s := taken p s) hhdr
    (by rw [ctxTarget_of_core hcore, Dev.ctxOwner_of_core hcore]; exact hc)
    (by rw [Dev.ctx_of_core hcore]; exact hfree) ((memGranted_same hgrants ..).trans hin) ((memGranted_same hgrants ..).trans hout) hok hd
  refine ⟨_, submit_answered h hgo, ?_, rfl, otherCtxs_trans (otherCtxs_of_core c hcore) hother, ?_, ?_, ⟨rfl, rfl, rfl, rfl⟩⟩
  · rw [← Dev.ctx_of_core hcore]; exact hctx
  · rw [← hcore]; exact congrArg Dev.core hrest
  · have hregs : d.regs = (taken p s).dev.regs := (congrArg Dev.regs hrest :)
    intro a he hr
    show d.regs.get (regReset a) a = _
    rw [hregs]
    exact reg_taken p s h.1 he hr

/-! #### DECODE.RELEASE (R216) -/

/-- A context without the slots whose frames are not after this FRAME_SEQ. -/
def releasedTo (q : Nat) (x : Ctx) : Ctx := { x with slots := x.slots.filter fun e => frameAfter e.2 q }

theorem dueFrames_releasedTo (q : Nat) (x : Ctx) : dueFrames (releasedTo q x) (releasedTo q x).waits = dueFrames x x.waits := rfl

theorem outputDue_of_none {s : State} {c : Nat} (h : dueFrames (s.dev.ctx c) (s.dev.ctx c).waits = 0) : outputDue s c = s := by
  rw [outputDue, h]; rfl

theorem decodeRelease_effect {p : Pkt} {s : State} (h : takesNow p s) (hgo : ctxGo p s 1) (hw : within (p.w 1) (ones 31 0) = true) :
    ∃ t, submit opDecodeRelease p s = answered p t stOk [] p.target ∧
      t = outputDue ((taken p s).onDev fun d => d.onCtx p.target fun _ => releasedTo (p.f 1 31 0) (s.dev.ctx p.target)) p.target ∧
      onlyCtx p.target s t ∧
      (dueFrames (s.dev.ctx p.target) (s.dev.ctx p.target).waits = 0 →
        t.dev.ctx p.target = releasedTo (p.f 1 31 0) (s.dev.ctx p.target) ∧ t.dev.core = { s.dev.core with ctxs := t.dev.ctxs } ∧
          sameRegs s.dev t.dev ∧ sameOutside s t) := by
  obtain ⟨hctx, hother, hrest⟩ := onCtx_taken_effect s h.1 p.target fun _ => releasedTo (p.f 1 31 0) (s.dev.ctx p.target)
  have hop : opDecodeRelease (taken p s) p =
      (outputDue ((taken p s).onDev fun d => d.onCtx p.target fun _ => releasedTo (p.f 1 31 0) (s.dev.ctx p.target)) p.target,
        .now stOk [] p.target) := by
    rw [← Dev.ctx_of_core (core_taken p s)]
    exact simply_ok (by rw [ctxRefusals_taken hgo, hw]; rfl)
  refine ⟨_, submit_answered h hop, rfl, otherCtxs_trans hother (otherCtxs_outputDue _ _), fun hdue => ?_⟩
  rw [outputDue_of_none (by rw [hctx, dueFrames_releasedTo, hdue])]
  exact ⟨hctx, hrest⟩

/-! #### DECODE.RESYNC (R224) -/

theorem core_pauseUpdate (d : Dev) (c : Nat) : (pauseUpdate d c).core = d.core := by
  unfold pauseUpdate
  simp only [apply_ite Dev.core, core_setRegBit, ite_self]

theorem reg_pauseUpdate_other (d : Dev) {c a : Nat} (h : a ≠ rCh c oChStatus) : reg (pauseUpdate d c) a = reg d a := by
  unfold pauseUpdate
  simp only [apply_ite (reg · a), reg_setRegBit_other _ _ _ h, ite_self]

/-- A context without its input and its reference pictures. -/
def resynced (x : Ctx) : Ctx := { x with units := [], auOpen := none, auDrop := false, fill := 0, pics := [], midUnit := false }

theorem decodeResync_effect {p : Pkt} {s : State} (h : takesNow p s) (hgo : ctxGo p s 0) :
    ∃ t, submit opDecodeResync p s = answered p t stOk [] p.target ∧ t.dev.ctx p.target = resynced (s.dev.ctx p.target) ∧
      onlyCtx p.target s t ∧ t.dev.core = { s.dev.core with ctxs := t.dev.ctxs } ∧
      (∀ a, ¬ eventPage a → ¬ ringPage a → a ≠ rCh (192 + p.target) oChStatus → reg t.dev a = reg s.dev a) ∧ sameOutside s t := by
  obtain ⟨hctx, hother, hcore, hregs, -⟩ := onCtx_taken_effect s h.1 p.target resynced
  have hop : opDecodeResync (taken p s) p =
      ((taken p s).onDev fun d => pauseUpdate (d.onCtx p.target resynced) (192 + p.target), .now stOk [] p.target) :=
    simply_ok (by rw [ctxRefusals_taken hgo]; rfl)
  have hpause : ∀ d, (pauseUpdate d (192 + p.target)).core = d.core := fun d => core_pauseUpdate d _
  refine ⟨_, submit_answered h hop, ?_, otherCtxs_trans hother (otherCtxs_of_core _ (hpause _)), ?_, fun a he hr ha => ?_,
    sameOutside_taken p s _⟩
  · exact (Dev.ctx_of_core (hpause _) _).trans hctx
  · rw [State.onDev_dev, hpause, Dev.ctxs_of_core (hpause _)]; exact hcore
  · exact (reg_pauseUpdate_other _ ha).trans (hregs a he hr)

/-! #### DECODE.QUERY and DECODE.CLEAR (R223) -/

theorem decodeQuery_effect {p : Pkt} {s : State} (h : takesNow p s) (hhdr : hdrBad p 0 96 = false)
    (hreader : notReader p (s.dev.ctxOwner p.target) = false) :
    ∃ t, submit opDecodeQuery p s = answered p t stOk
        (decodeWord0 (s.dev.ctx p.target) :: [1, 2, 3, 4, 5, 6, 7, 8, 9].map fun w => (s.dev.ctx p.target).cnt.get 0 w) p.target ∧
      t.dev.core = s.dev.core ∧ sameRegs s.dev t.dev ∧ sameOutside s t := by
  have hcore := core_taken p s
  have hop : opDecodeQuery (taken p s) p = (taken p s, .now stOk
      (decodeWord0 (s.dev.ctx p.target) :: [1, 2, 3, 4, 5, 6, 7, 8, 9].map fun w => (s.dev.ctx p.target).cnt.get 0 w) p.target) := by
    have hgo : firstRefusal [(hdrBad p 0 96, stBadParam), (notReader p ((taken p s).dev.ctxOwner p.target), stDenied)] = none := by
      rw [Dev.ctxOwner_of_core hcore, hhdr, hreader]; rfl
    rw [← Dev.ctx_of_core hcore]
    unfold opDecodeQuery
    rw [simply_ok hgo]
  exact ⟨_, submit_answered h hop, hcore, sameRegs_taken s.dev p h.1, rfl, rfl, rfl, rfl⟩

/-- The counters of a table after a clear: those of the list whose bits are set read 0, the others stay. -/
theorem get_clearCnt (t : Tab Word) (v : Word) (ws : List Nat) (w : Nat) :
    (clearCnt t v ws).get 0 w = if w ∈ ws ∧ bit v w = true then 0 else t.get 0 w := by
  induction ws generalizing t with
  | nil => simp [clearCnt]
  | cons k r ih =>
    have hcons : clearCnt t v (k :: r) = clearCnt (if bit v k then t.set 0 k 0 else t) v r := rfl
    rw [hcons, ih]
    by_cases hk : w = k
    · subst hk
      cases hb : bit v w <;> simp
    · have hget : (if bit v k then t.set 0 k 0 else t).get 0 w = t.get 0 w := by
        split
        · exact Tab.get_set_other _ _ _ hk
        · rfl
      rw [hget]
      simp [hk]

theorem decodeClear_effect {p : Pkt} {s : State} (h : takesNow p s) (hgo : ctxGo p s 1) (hw : within (p.w 1) (ones 9 3) = true) :
    ∃ t u, submit opDecodeClear p s = answered p t stOk [] p.target ∧ t.dev.ctx p.target = { s.dev.ctx p.target with cnt := u } ∧
      (∀ w, u.get 0 w = if 3 ≤ w ∧ w ≤ 9 ∧ p.b 1 w = true then 0 else (s.dev.ctx p.target).cnt.get 0 w) ∧
      onlyCtx p.target s t ∧ t.dev.core = { s.dev.core with ctxs := t.dev.ctxs } ∧ sameRegs s.dev t.dev ∧ sameOutside s t := by
  obtain ⟨hctx, hrest⟩ := onCtx_taken_effect s h.1 p.target fun x => { x with cnt := clearCnt x.cnt (p.w 1) [3, 4, 5, 6, 7, 8, 9] }
  refine ⟨_, _, submit_answered h (simply_ok (by rw [ctxRefusals_taken hgo, hw]; rfl)), hctx, fun w => ?_, hrest⟩
  have hmem : w ∈ [3, 4, 5, 6, 7, 8, 9] ↔ 3 ≤ w ∧ w ≤ 9 := by simp; omega
  simp only [get_clearCnt, hmem, and_assoc]
  rfl

/-- Settles O20, one effect lemma for each command. -/
theorem decodeCommandsActOnTheirContext : Obligations.DecodeCommandsActOnTheirContext := by
  intro fn hdr ps s
  refine ⟨?openCtx, ?release, ?resync, ?query, ?clear⟩
  case openCtx =>
    intro p x c d h hhdr hc hfree hin hout hok hd
    obtain ⟨t, ht, heffect⟩ := decodeOpen_effect h hhdr hc hfree hin hout hok hd
    exact ⟨t, congrArg ok ht, heffect⟩
  case release =>
    intro p h hgo hw
    obtain ⟨t, ht, heffect⟩ := decodeRelease_effect h hgo hw
    exact ⟨t, congrArg ok ht, heffect⟩
  case resync =>
    intro p h hgo
    obtain ⟨t, ht, heffect⟩ := decodeResync_effect h hgo
    exact ⟨t, congrArg ok ht, heffect⟩
  case query =>
    intro p x h hhdr hreader
    obtain ⟨t, ht, heffect⟩ := decodeQuery_effect h hhdr hreader
    exact ⟨t, congrArg ok ht, heffect⟩
  case clear =>
    intro p h hgo hw
    obtain ⟨t, u, ht, heffect⟩ := decodeClear_effect h hgo hw
    exact ⟨t, u, congrArg ok ht, heffect⟩

end Sys2Proof.Machine

/-! SUPPORT. RECIP.REMOVE and the record of a stream that lists the same recipient again (R175, R228, R326, R445). -/

namespace Sys2Proof.Machine

/-! ### The record of a stream in device memory (R228, R445) -/

theorem length_sized (n : Nat) (l : List Byte) : (sized n l).length = n := by
  rw [sized, List.length_append, List.length_take, List.length_replicate]
  omega

/-- The groups stand behind the acknowledgement table. -/
theorem tableBytes_group (d : Dev) (n k : Nat) : (tableBytes d n)[0x600 + k]? = ((List.range 8).flatMap (groupBytes d n))[k]? := by
  rw [tableBytes, List.getElem?_append_right (by rw [length_sized]; omega), length_sized, Nat.add_sub_cancel_left]

/-- What both copies of a record hold of bytes that have been written: the first copy as written. -/
theorem byte_storeBoth_first (s : State) {n off : Nat} {bs : List Byte} {k : Nat} {b : Byte} (hb : bs[k]? = some b) (hn : n < 192)
    (hoff : off + bs.length ≤ 0x8000) : (storeBoth s n off bs).byte (0xEE0000000 + 0x8000 * n + off + k) = b := by
  obtain ⟨hk, rfl⟩ := List.getElem?_eq_some_iff.mp hb
  have hmem : Config.memBytes = 64424509440 := rfl
  rw [storeBoth, State.byte_store_outside _ _ _ _ (.inl (by omega)), State.byte_store_inside _ _ _ _ hk (by omega)]

/-- A stream of which neither images nor VERIFIED nor counters move: its table and its groups alone are brought up to date. -/
theorem syncRecord_of_table {old : Dev} {s : State} {n : Nat} (hsame : s.dev.stream n = old.stream n)
    (htable : tableBytes s.dev n ≠ tableBytes old n) : syncRecord old s n = storeBoth s n 0x3800 (tableBytes s.dev n) := by
  have himages : syncImages (old.stream n) s n = s := by
    have hnone : ((old.stream n).images.filter fun i => !(old.stream n).images.contains i) = [] := by simp
    rw [syncImages, hsame, hnone]; rfl
  have hphase : ((old.stream n).phase == .free && (old.stream n).phase != .free) = false := Bool.and_not_self _
  rw [syncRecord, hsame, hphase, if_neg Bool.false_ne_true, himages, syncVerified, hsame, if_pos rfl, syncTable, if_neg htable, hsame,
    if_pos rfl]

theorem memGen_syncRecord (old : Dev) (s : State) (n : Nat) : (syncRecord old s n).memGen = s.memGen :=
  syncRecord_keeps (P := fun t => t.memGen = s.memGen) (fun t m a bs h => (storeBoth_memGen t m a bs).trans h) old s n rfl

/-- Where one stream alone has a record, that record is brought up to date. -/
theorem byte_syncRecords_singleton {old : Dev} {s : State} {n : Nat} (h : recordsOf old s.dev = [n]) (a : Nat) :
    (syncRecords old s).byte a = (syncRecord old s n).byte a := by
  rw [State.byte, State.byte, syncRecords_memGen, memGen_syncRecord, syncRecords, h]
  rfl

/-! ### RECIP.REMOVE -/

/-- RECIP.REMOVE whose checks all pass. -/
theorem opRecipRemove_accepted {p : Pkt} {s : State} (h : entryGo p s 0) :
    opRecipRemove s p = (keepRecords (fun s => s.onDev fun d => freeRecip d p.target) s, .now stOk [] p.target) := by
  obtain ⟨hhdr, howner, hvalid, hgrant⟩ := h
  have hall : recipRefusals s.dev p 0 false = [(false, stBadParam), (false, stDenied), (false, stBadParam)] := by
    rw [recipRefusals, hhdr, howner, hvalid]; rfl
  have hnone : firstRefusal ([(false, stBadParam), (false, stDenied), (false, stBadParam)] ++ []) = none := rfl
  rw [opRecipRemove, onEntry, hall, Bool.not_false, hgrant, simply_ok hnone]
  rfl

/-- A device that is READY with the PF's rings in service, whose table of recipients lists entry 0 twice: as a recipient of stream 0 and
as one of stream 1. No operation of the model makes such a table, but it is a state, and the statement speaks of all of them. -/
def twiceListedDev : Dev :=
  { pwr := { die := .running }
    regs := [(rBootStatus, word (4 * 2 ^ 60)), (rRing 0 oSqSize, 64), (rRing 0 oCqSize, 64), (rRing 0 oRingCtrl, word (2 ^ 63))]
    streams := [(1, { phase := .running })]
    recips := [(0, { valid := true, stream := 0 }), (0, { valid := true, stream := 1 })] }

/-- Where the record of stream 1 counts the reporting recipients of group 0 (R175, R228). -/
def reportersAddr : Nat := 0xEE0000000 + 0x8000 * 1 + 0x3800 + (0x600 + 2)

/-- The record of stream 1 counts the second listing. -/
def twiceListed : State := { mem := [(reportersAddr, 1)], dev := twiceListedDev }

/-- RECIP.REMOVE of entry 0, by the PF. -/
def removeFirst : Pkt := mkPkt 0x0602 0 0 []

theorem takesNow_removeFirst : takesNow removeFirst twiceListed := by unfold takesNow; decide +kernel

theorem entryGo_removeFirst : entryGo removeFirst twiceListed 0 := by unfold entryGo; decide +kernel

theorem entryGo_removeFirst_taken : entryGo removeFirst (taken removeFirst twiceListed) 0 := by unfold entryGo; decide +kernel

/-- The state in which RECIP.REMOVE has freed the entry. -/
def firstFreed : State := (taken removeFirst twiceListed).onDev fun d => freeRecip d removeFirst.target

/-- Both listings go, and with the second the recipient that the record of stream 1 counted. -/
theorem groups_firstFreed :
    ((List.range 8).flatMap (groupBytes (taken removeFirst twiceListed).dev 1))[2]? = some 1 ∧
      ((List.range 8).flatMap (groupBytes firstFreed.dev 1))[2]? = some 0 := by decide +kernel

theorem length_tableBytes_firstFreed : (tableBytes firstFreed.dev 1).length = 0x680 := by
  rw [tableBytes, List.length_append, length_sized]
  decide +kernel

/-- The record of stream 1 is written again, without that recipient. -/
theorem byte_removeFirst : (submit opRecipRemove removeFirst twiceListed).byte reportersAddr = 0 := by
  obtain ⟨hbefore, hafter⟩ := groups_firstFreed
  have htable : tableBytes firstFreed.dev 1 ≠ tableBytes (taken removeFirst twiceListed).dev 1 := by
    intro h
    have hat := congrArg (·[0x600 + 2]?) h
    simp only [tableBytes_group, hbefore, hafter] at hat
    exact absurd hat (by decide)
  have hstream : firstFreed.dev.stream 1 = (taken removeFirst twiceListed).dev.stream 1 := by decide +kernel
  have hrecords : recordsOf (taken removeFirst twiceListed).dev firstFreed.dev = [1] := by decide +kernel
  have hgo := opRecipRemove_accepted entryGo_removeFirst_taken
  rw [submit_answered takesNow_removeFirst hgo, answered, State.onDev_byte, keepRecords, ← firstFreed, byte_syncRecords_singleton hrecords,
    syncRecord_of_table hstream htable, reportersAddr]
  exact byte_storeBoth_first firstFreed ((tableBytes_group ..).trans hafter) (by decide) (by rw [length_tableBytes_firstFreed]; decide)

theorem stream_removeFirst : (twiceListed.dev.recip removeFirst.target).stream = 0 := by decide +kernel

/-- Refutes O30, by its second clause: the removal of entry 0 for stream 0 takes the second listing of entry 0 away too, and the record of
stream 1, which counted it, is brought up to date. -/
theorem not_recipAddAndRemove : ¬ Obligations.RecipAddAndRemove := by
  rintro ⟨-, hremove⟩
  obtain ⟨t, hexec, -, -, -, -, -, -, -, -, hrecord⟩ := hremove 0 0 [] twiceListed takesNow_removeFirst entryGo_removeFirst
  have hsubmit : submit opRecipRemove removeFirst twiceListed = answered removeFirst t stOk [] removeFirst.target :=
    Host.Outcome.next.inj hexec
  have hother : ¬ inRecord 0 reportersAddr := by unfold inRecord reportersAddr; omega
  have hkept : t.byte reportersAddr = 1 := (hrecord _ (stream_removeFirst ▸ hother)).trans (by decide +kernel)
  have hmoved : t.byte reportersAddr = 0 := by rw [← byte_removeFirst, hsubmit, answered, State.onDev_byte]
  rw [hkept] at hmoved
  exact absurd hmoved (by decide)

end Sys2Proof.Machine

/-! SUPPORT. Galleries whose sources are not fast: their event records abandon no routine, whatever a change of bands raises (R95, R467). -/

namespace Sys2Proof.Machine

/-! ### No fast source and no fast event of a Gallery (R95, R467, R470) -/

/-- A device in which no source of a Gallery is fast and no fast event waits to abandon a routine. -/
def quietGals (d : Dev) : Prop := d.fastMet = [] ∧ ∀ k < 208, srcFast d (768 + k) = false

theorem restartMet_of_quiet {s : State} (h : quietGals s.dev) : restartMet s = s := by
  rw [restartMet, if_pos (by rw [h.1]; rfl)]

/-- A register that is not the configuration of a Gallery's source may move. -/
theorem quietGals_setReg {d : Dev} {a : Nat} (v : Word) (ha : a < rSrcCfg 768 ∨ rSrcCfg 976 ≤ a) (h : quietGals d) :
    quietGals (setReg d a v) :=
  ⟨h.1, fun k hk => by
    rw [srcFast, regBit, reg_setReg_other d v (show rSrcCfg (768 + k) ≠ a by unfold rSrcCfg at *; omega)]
    exact h.2 k hk⟩

theorem quietGals_incErr {d : Dev} {a : Nat} (ha : a < rSrcCfg 768 ∨ rSrcCfg 976 ≤ a) (h : quietGals d) : quietGals (incErr d a) :=
  quietGals_setReg _ ha h

theorem quietGals_rEq {d : Dev} (f off : Nat) (v : Word) (h : quietGals d) : quietGals (setReg d (rEq f off) v) :=
  quietGals_setReg v (.inr (by unfold rEq rSrcCfg; omega)) h

theorem quietGals_emit {d : Dev} (o : Out) (h : quietGals d) : quietGals (emit d o) := h

theorem quietGals_setEqx {d : Dev} (f : Nat) (x : EqX) (h : quietGals d) : quietGals (d.setEqx f x) := h

theorem quietGals_incErr_rEq {d : Dev} (f off : Nat) (h : quietGals d) : quietGals (incErr d (rEq f off)) := quietGals_rEq f off _ h

/-! ### What an event leaves quiet -/

/-- An effect that raises an event leaves quiet Galleries quiet. -/
def QuietEvents (again : Dev → Nat → Nat → Nat → Nat → Dev) : Prop := ∀ d s c x y, quietGals d → quietGals (again d s c x y)

theorem quietGals_limited {d : Dev} (key i : Nat) {f : Dev → Dev} (hf : ∀ d, quietGals d → quietGals (f d)) (h : quietGals d) :
    quietGals (limited d key i f) := by
  unfold limited
  dsimp only
  split
  · exact hf _ h
  · exact h

theorem quietGals_fastPut {again : Dev → Nat → Nat → Nat → Nat → Dev} (hagain : QuietEvents again) {d : Dev} (f : Nat) (w0 w1 : Word)
    (h : quietGals d) : quietGals (fastPut again d f w0 w1) := by
  unfold fastPut
  split
  · exact quietGals_emit _ (quietGals_rEq f _ _ (quietGals_rEq f _ _ (quietGals_rEq f _ _ h)))
  · exact quietGals_emit _ (quietGals_limited _ _ (fun e he => hagain e _ _ _ _ he) (quietGals_incErr_rEq f _ h))

theorem quietGals_coalesce {d : Dev} (f n : Nat) (h : quietGals d) : quietGals (coalesce d f n) := by
  unfold coalesce
  extract_lets x counted
  have hcounted : quietGals counted := quietGals_setEqx f _ h
  split
  · exact h
  · split
    · exact quietGals_emit _ (quietGals_setEqx f _ hcounted)
    · exact hcounted

theorem quietGals_queuePut {again : Dev → Nat → Nat → Nat → Nat → Dev} (hagain : QuietEvents again) {d : Dev} (f : Nat) (w0 w1 : Word)
    (h : quietGals d) : quietGals (queuePut again d f w0 w1) := by
  unfold queuePut
  extract_lets n tail x lost phase w written tail' put
  have hlost : quietGals lost := quietGals_setEqx f _ (quietGals_incErr_rEq f _ h)
  split
  · split
    · exact hagain _ _ _ _ _ hlost
    · exact hlost
  · exact quietGals_coalesce f 1 (quietGals_setEqx f _ (quietGals_rEq f _ _ (quietGals_emit _ h)))

/-- The record of a source of a Gallery is not fast, and that of any other source meets no routine. -/
theorem quietGals_postWith {again : Dev → Nat → Nat → Nat → Nat → Dev} (hagain : QuietEvents again) {d : Dev} (f s c x y : Nat)
    (tw : Word) (m w : Bool) (h : quietGals d) : quietGals (postWith again d f s c x y tw m w) := by
  have hqueue : ∀ w0, quietGals (queuePut again d f w0 tw) := fun w0 => quietGals_queuePut hagain f w0 tw h
  unfold postWith
  dsimp only
  split
  · next hfast =>
    have hsrc : ¬ (768 ≤ s ∧ s < 976 ∧ s % 8 ≠ 1) := by
      rintro ⟨hlo, hhi, -⟩
      obtain ⟨k, rfl⟩ := Nat.exists_eq_add_of_le hlo
      rw [h.2 k (by omega)] at hfast
      exact Bool.noConfusion hfast
    rw [meetFast, if_neg hsrc]
    exact quietGals_fastPut hagain f _ _ (hqueue _)
  · exact hqueue _

theorem quietGals_happenN (n : Nat) : QuietEvents (happenN n) := by
  induction n with
  | zero => exact fun _ _ _ _ _ h => h
  | succ n ih =>
    intro d s c x y h
    unfold happenN
    split
    · exact h
    · split
      · split
        · exact h
        · exact quietGals_postWith ih _ _ _ _ _ _ _ _ h
      · exact quietGals_postWith ih _ _ _ _ _ _ _ _ h

theorem quietGals_raise {d : Dev} (s c x y : Nat) (h : quietGals d) : quietGals (raise d s c x y) := quietGals_happenN 3 d s c x y h

end Sys2Proof.Machine

/-! SUPPORT. What every change of bands on their Galleries keeps: streams and Galleries move, reports and events are put out, and nothing else
of the device is touched (R105, R143, R150, R161, R230, R251). -/

namespace Sys2Proof.Machine

/-! ### The primitive changes -/

/-- A property of devices that a change of a stream or of a Gallery, an output and an event keep. -/
structure KeptByBands (P : Dev → Prop) : Prop where
  setStream : ∀ {d : Dev} (n : Nat) (x : Stream), P d → P (d.setStream n x)
  setGal : ∀ {d : Dev} (g : Nat) (x : Gal), P d → P (d.setGal g x)
  emit : ∀ {d : Dev} (o : Out), P d → P (emit d o)
  raise : ∀ {d : Dev} (s c x y : Nat), P d → P (raise d s c x y)

namespace KeptByBands

variable {P : Dev → Prop} (hP : KeptByBands P) {d : Dev}
include hP

theorem onStream (n : Nat) (f : Stream → Stream) (h : P d) : P (d.onStream n f) := hP.setStream n _ h

theorem onGal (g : Nat) (f : Gal → Gal) (h : P d) : P (d.onGal g f) := hP.setGal g _ h

theorem onBand (n seq : Nat) (f : Band → Band) (h : P d) : P (Machine.onBand d n seq f) := hP.onStream n _ h

theorem streamStat (n family w k : Nat) (sel : Stream → Tab Word) (put : Stream → Tab Word → Stream) (h : P d) :
    P (Machine.streamStat d n family w k sel put) := by
  unfold Machine.streamStat
  dsimp only
  split
  · exact hP.raise _ _ _ _ (hP.setStream n _ h)
  · exact hP.setStream n _ h

/-! ### Bands that are given up (R105, R143, R150, R230, R251) -/

theorem account (n seq : Nat) (host delivered : Bool) (h : P d) : P (Machine.account d n seq host delivered) := by
  have hband : P (Machine.onBand d n seq fun b => { b with accounted := true }) := hP.onBand n seq _ h
  unfold Machine.account
  split
  · exact h
  · dsimp only
    split
    · exact h
    · split
      · exact hband
      · split
        · exact hP.streamStat n _ _ _ _ _ hband
        · have hdue := hP.streamStat n 2 4 1 (fun s => s.availCnt) (fun s t => { s with availCnt := t }) hband
          split
          · exact hP.streamStat n _ _ _ _ _ hdue
          · exact hP.raise _ _ _ _ (hP.onStream n _ hdue)

theorem reportPicture (n : Nat) (rs : RateState) (p : PicStats) (f : Bool) (h : P d) : P (Machine.reportPicture d n rs p f) := by
  unfold Machine.reportPicture
  refine hP.streamStat n _ _ _ _ _ (hP.onStream n _ ?_)
  split
  · exact hP.emit _ h
  · exact h

theorem endPicOf (n frame : Nat) (f : Bool) (h : P d) : P (Machine.endPicOf d n frame f) := by
  unfold Machine.endPicOf
  dsimp only
  split
  · unfold endPicture
    dsimp only
    split
    · exact h
    · exact hP.onStream n _ (hP.reportPicture n _ _ f h)
  · split
    · exact h
    · exact hP.onStream n _ (hP.reportPicture n _ _ f h)

theorem lostImage (n : Nat) (b : Band) (h : P d) : P (Machine.lostImage d n b) := by
  unfold Machine.lostImage
  split
  · exact h
  · exact hP.onStream n _ h

theorem loseLast (n : Nat) (b : Band) (h : P d) : P (Machine.loseLast d n b) := by
  unfold Machine.loseLast
  split
  · exact hP.onStream n _ (hP.endPicOf n _ _ (hP.onStream n _ h))
  · exact h

theorem setFifo (g : Nat) (l : List FifoItem) (h : P d) : P (Machine.setFifo d g l) := hP.onGal g _ h

theorem startRoutine (g : Nat) (h : P d) : P (Machine.startRoutine d g) := by
  unfold Machine.startRoutine
  split
  · exact h
  · exact hP.onGal g _ (hP.onBand _ _ _ h)

theorem reseat (g : Nat) (was : Option (Routine × Nat × Nat)) (h : P d) : P (Machine.reseat d g was) := by
  unfold Machine.reseat
  split
  · exact h
  · exact hP.startRoutine g h

theorem takeOff (n : Nat) (b : Band) (now : Bool) (h : P d) : P (Machine.takeOff d n b now) :=
  hP.reseat _ _ (hP.setFifo _ _ (hP.onGal _ _ h))

theorem giveUp (n seq : Nat) (h : P d) : P (Machine.giveUp d n seq) := by
  unfold Machine.giveUp moveVerified
  exact hP.onStream n _ (hP.onBand n seq _ h)

theorem loseBand (n : Nat) (b : Band) (now : Bool) (h : P d) : P (Machine.loseBand d n b now) :=
  hP.giveUp n _ (hP.loseLast n b (hP.takeOff n b now (hP.lostImage n b (hP.onStream n _ h))))

/-! ### Flush (R105) -/

theorem flushGal (g : Nat) (h : P d) : P (Machine.flushGal d g) := by
  unfold Machine.flushGal
  refine hP.raise _ _ _ _ (hP.setFifo g _ (hP.onGal g _ (each_keeps (P := P) _ (fun e x he => ?_) _ d h)))
  dsimp only
  split
  · next b _ =>
    have haccount := hP.account x.1 b.seq true false he
    split
    · exact haccount
    · exact hP.loseBand _ _ _ haccount
  · exact he

end KeptByBands

/-- A change of bands leaves quiet Galleries quiet. -/
theorem keptByBands_quietGals : KeptByBands quietGals where
  setStream _ _ h := h
  setGal _ _ h := h
  emit _ h := h
  raise := quietGals_raise

end Sys2Proof.Machine

/-! SUPPORT. Galleries: a class C fault, what a flush leaves in the FIFO, and the unread interval (R89, R103 to R105). -/

namespace Sys2Proof.Machine

/-! ### Tables -/

theorem gal_onGal_same (d : Dev) (g : Nat) (f : Gal → Gal) : (d.onGal g f).gal g = f (d.gal g) := Tab.get_set_same ..

theorem gal_onGal_other (d : Dev) {g h : Nat} (f : Gal → Gal) (hne : h ≠ g) : (d.onGal g f).gal h = d.gal h :=
  Tab.get_set_other _ _ _ hne

theorem Dev.gal_of_core {d d' : Dev} (h : d'.core = d.core) (g : Nat) : d'.gal g = d.gal g := by
  rw [Dev.gal, Dev.gal, Dev.gals_of_core h]

/-- The register of a Gallery lies below the event system. -/
theorem rGal_lt {g off : Nat} (hg : g < 26) (ho : off < 0x10000) : rGal g off < 0x2A0000 := by unfold rGal; omega

theorem not_eventPage_rGal {g off : Nat} (hg : g < 26) (ho : off < 0x10000) : ¬ eventPage (rGal g off) := by
  have := rGal_lt hg ho
  unfold eventPage; omega

/-- A command of a Gallery whose effect leaves quiet Galleries quiet. -/
theorem galEffect_of_quiet {i : Instr} {s t : State} (hexec : exec i s = .next (restartMet t)) (hquiet : quietGals s.dev → quietGals t.dev) :
    galEffect i s t :=
  ⟨fun h => hexec.trans (congrArg ok (restartMet_of_quiet (hquiet h))), hexec⟩

/-! ### A fault of class C that a block raises (R476, R482) -/

/-- Whether a fault of class C sets PEND or not, every other register is as the collector marked it. -/
theorem reg_collect_classC_eq (d : Dev) (s c x y : Nat) (o : Origin) {a : Nat} (ha : a ≠ rFltAlert) :
    reg (collect d 0 s c x y o) a = reg (markedClassC d s c x y o) a := by
  rcases collect_classC d s c x y o with h | h
  · rw [h]
  · rw [h, setPend, reg_setRegBit_other _ _ _ ha]

/-- The capture of a class moves no register below the captures. -/
theorem reg_capture_below (d : Dev) (k s c x y : Nat) (o : Origin) {a : Nat} (ha : a < rCap 0 0) : reg (capture d k s c x y o) a = reg d a := by
  have hne : ∀ off, a ≠ rCap k off := fun off => by unfold rCap at *; omega
  unfold capture
  split
  · rw [reg_setRegBit_other _ _ _ (hne _)]
  · rw [reg_setReg_other _ _ (hne _), reg_setReg_other _ _ (hne _), reg_setReg_other _ _ (hne _), reg_setReg_other _ _ (hne _)]

/-- After a capture VALID of its class is set. -/
theorem regBit_capture_valid (d : Dev) (k s c x y : Nat) (o : Origin) : regBit (capture d k s c x y o) (rCap k 0) 63 = true := by
  have hne : ∀ off, 0 < off → rCap k 0 ≠ rCap k off := fun off ho => by unfold rCap; omega
  unfold capture
  split
  · next hvalid =>
    rw [setRegBit, regBit, reg_setReg_same, setBit, bit_setFld_other _ _ (by decide) (by decide) (.inr (by decide))]
    exact hvalid
  · rw [regBit, reg_setReg_other _ _ (hne 0x18 (by decide)), reg_setReg_other _ _ (hne 0x10 (by decide)),
      reg_setReg_other _ _ (hne 8 (by decide)), reg_setReg_same, bit_setBit_same _ _ (by decide)]

theorem blockFault_classC (d : Dev) (s c x y : Nat) :
    blockFault d 0 s c x y = collect (raise d s c x y) 0 s c x y (blockOrigin d s c) := raiseFault_classC ..

/-- A block's fault of class C moves no register below the fault collector's, beside those of its event. -/
theorem reg_blockFault_classC_below (d : Dev) (s c x y : Nat) {a : Nat} (hpage : ¬ eventPage a) (ha : a < rFltStatus) :
    reg (blockFault d 0 s c x y) a = reg d a := by
  have hlt : ∀ b, rFltStatus ≤ b → a ≠ b := fun b hb => by omega
  rw [blockFault_classC, reg_collect_classC_eq _ _ _ _ _ _ (hlt _ (by decide)), markedClassC,
    reg_capture_below _ _ _ _ _ _ _ (Nat.lt_trans ha (by decide)), reg_setRegBit_other _ _ _ (hlt _ (by decide)),
    reg_incErr_other _ (hlt _ (by decide)), reg_raise _ _ _ _ _ hpage]

/-- A block's fault of class C is counted, marked and captured. -/
theorem blockFault_classC_marks (d : Dev) (s c x y : Nat) :
    reg (blockFault d 0 s c x y) (rFltCount 0) = errAdd (reg d (rFltCount 0)) 1 ∧
      regBit (blockFault d 0 s c x y) rFltStatus 55 = true ∧ regBit (blockFault d 0 s c x y) (rCap 0 0) 63 = true := by
  have hpage : ¬ eventPage (rFltCount 0) := by unfold eventPage rFltCount; omega
  rw [blockFault_classC]
  refine ⟨?_, ?_, ?_⟩
  · rw [reg_collect_classC_eq _ _ _ _ _ _ (by decide), markedClassC, reg_capture_classC _ _ _ _ _ _ (by decide),
      reg_setRegBit_other _ _ _ (by decide), reg_incErr_same, reg_raise _ _ _ _ _ hpage]
  · rw [regBit, reg_collect_classC_eq _ _ _ _ _ _ (by decide), markedClassC, reg_capture_below _ _ _ _ _ _ _ (by decide), ← regBit,
      regBit_setRegBit_same _ _ _ (by decide)]
  · rw [regBit, reg_collect_classC_eq _ _ _ _ _ _ (by decide), ← regBit, markedClassC, regBit_capture_valid]

theorem core_blockFault_classC (d : Dev) (s c x y : Nat) : (blockFault d 0 s c x y).core = d.core := by
  rw [blockFault_classC, core_collect_classC, core_raise]

theorem quietGals_capture {d : Dev} (k s c x y : Nat) (o : Origin) (h : quietGals d) : quietGals (capture d k s c x y o) := by
  have hput : ∀ {e : Dev} (off : Nat) (v : Word), quietGals e → quietGals (setReg e (rCap k off) v) := fun off v =>
    quietGals_setReg v (.inr (by unfold rCap rSrcCfg; omega))
  unfold capture
  split
  · exact hput _ _ h
  · exact hput _ _ (hput _ _ (hput _ _ (hput _ _ h)))

theorem quietGals_collect_classC {d : Dev} (s c x y : Nat) (o : Origin) (h : quietGals d) : quietGals (collect d 0 s c x y o) := by
  have hcount : quietGals (incErr d (rFltCount 0)) := quietGals_incErr (.inr (by decide)) h
  have hmarked : quietGals (markedClassC d s c x y o) := quietGals_capture _ _ _ _ _ _ (quietGals_setReg _ (.inr (by decide)) hcount)
  rcases collect_classC d s c x y o with hc | hc
  · rw [hc]
    exact hmarked
  · rw [hc]
    exact quietGals_setReg _ (.inr (by decide)) hmarked

theorem quietGals_blockFault_classC {d : Dev} (s c x y : Nat) (h : quietGals d) : quietGals (blockFault d 0 s c x y) := by
  rw [blockFault_classC]
  exact quietGals_collect_classC _ _ _ _ _ (quietGals_raise s c x y h)

/-! #### SRAM_CORR (R89) -/

/-- The device after a corrected SRAM error of Gallery g. -/
def sramCorrected (g : Nat) (d : Dev) : Dev := blockFault (incErr d (rGal g oSramCe)) 0 (768 + 8 * g + 2) 1

theorem exec_sramCorr_alive {s : State} (h : alive s.dev = true) (g : Fin 26) :
    exec (.sramCorr g) s = .next (restartMet (s.onDev (sramCorrected g.val))) := by
  show ok (if alive s.dev then _ else s) = _
  rw [if_pos h]; rfl

theorem quietGals_sramCorrected {g : Nat} (hg : g < 26) {d : Dev} (h : quietGals d) : quietGals (sramCorrected g d) :=
  quietGals_blockFault_classC _ _ _ _ (quietGals_incErr (.inl (Nat.lt_trans (rGal_lt hg (by decide)) (by decide))) h)

theorem sramCorrected_effect {g : Nat} (hg : g < 26) (d : Dev) :
    reg (sramCorrected g d) (rGal g oSramCe) = errAdd (reg d (rGal g oSramCe)) 1 ∧
      reg (sramCorrected g d) (rFltCount 0) = errAdd (reg d (rFltCount 0)) 1 ∧ regBit (sramCorrected g d) rFltStatus 55 = true ∧
      regBit (sramCorrected g d) (rCap 0 0) 63 = true ∧ (sramCorrected g d).core = d.core := by
  have hlt := rGal_lt hg (show oSramCe < 0x10000 by decide)
  obtain ⟨hcount, hstatus, hvalid⟩ := blockFault_classC_marks (incErr d (rGal g oSramCe)) (768 + 8 * g + 2) 1 0 0
  refine ⟨?_, hcount.trans ?_, hstatus, hvalid, ?_⟩
  · rw [sramCorrected, reg_blockFault_classC_below _ _ _ _ _ (not_eventPage_rGal hg (by decide)) (Nat.lt_trans hlt (by decide)),
      reg_incErr_same]
  · rw [reg_incErr_other _ (by unfold rFltCount; omega)]
  · rw [sramCorrected, core_blockFault_classC, core_incErr]

/-! ### What a flush leaves in the FIFO (R104, R105) -/

theorem mem_insertBy {α : Type} {le : α → α → Bool} {x y : α} {l : List α} (h : y ∈ insertBy le x l) : y = x ∨ y ∈ l := by
  induction l with
  | nil => exact .inl (List.mem_singleton.mp h)
  | cons z r ih =>
    unfold insertBy at h
    split at h
    · rcases List.mem_cons.mp h with rfl | h
      · exact .inr List.mem_cons_self
      · exact (ih h).imp_right (List.mem_cons_of_mem _)
    · exact List.mem_cons.mp h

/-- Ordering a list brings no element into it. -/
theorem mem_of_mem_sortBy {α : Type} {le : α → α → Bool} {l : List α} {y : α} (h : y ∈ sortBy le l) : y ∈ l :=
  each_keeps_mem (P := fun k : List α => ∀ z ∈ k, z ∈ l) (fun k x => insertBy le x k) l
    (fun _ _ hx hk _ hz => (mem_insertBy hz).elim (fun he => he ▸ hx) (hk _)) [] (fun _ hz => absurd hz List.not_mem_nil) y h

/-- An item is the gap marker of a flush: COUNT is not 0 and CAUSE is 2. -/
def FifoItem.flushMark (it : FifoItem) : Prop := it.count ≠ 0 ∧ it.cause = 2

theorem flushMark_flushed {d : Dev} {g : Nat} {it : FifoItem} (h : it ∈ flushed d g) : it.flushMark := by
  obtain ⟨x, -, rfl⟩ := List.mem_map.mp (mem_of_mem_sortBy h)
  exact ⟨Nat.ne_of_gt (Nat.lt_of_lt_of_le Nat.one_pos (Nat.le_max_left ..)), rfl⟩

/-- A lost band joins a marker that stands or brings its own. -/
theorem flushMark_addRun {l : List FifoItem} {x : FifoItem} (hl : ∀ it ∈ l, it.flushMark) (hx : x.flushMark) :
    ∀ it ∈ addRun l x, it.flushMark := by
  intro it hit
  unfold addRun at hit
  split at hit
  · obtain ⟨y, hy, rfl⟩ := List.mem_map.mp hit
    obtain ⟨hcount, hcause⟩ := hl y hy
    split
    · exact ⟨fun h => hcount (Nat.eq_zero_of_add_eq_zero h).1, hcause⟩
    · exact ⟨hcount, hcause⟩
  · rcases List.mem_append.mp hit with hit | hit
    · exact hl it hit
    · exact List.mem_singleton.mp hit ▸ hx

/-- The runs of what a flush discards are gap markers of a flush. -/
theorem flushMark_runs (d : Dev) (g : Nat) : ∀ it ∈ (flushed d g).foldl addRun [], it.flushMark :=
  each_keeps_mem (P := fun l : List FifoItem => ∀ it ∈ l, it.flushMark) addRun (flushed d g)
    (fun _ _ hx hl => flushMark_addRun hl (flushMark_flushed hx)) [] fun _ h => absurd h List.not_mem_nil

theorem fifo_setFifo (d : Dev) (g : Nat) (l : List FifoItem) : ((setFifo d g l).gal g).fifo = l := by
  rw [setFifo, gal_onGal_same]
  dsimp only
  split <;> rfl

/-- A flush leaves the runs of what it discards, and nothing else, in the FIFO. -/
theorem fifo_flushGal (d : Dev) (g : Nat) : ((flushGal d g).gal g).fifo = (flushed d g).foldl addRun [] := by
  unfold flushGal
  rw [Dev.gal_of_core (core_raise ..), fifo_setFifo]

/-- Placing head entries leaves COUNT and CAUSE of the items. -/
theorem flushMark_placeHeads {l : List FifoItem} (p : Nat) (hl : ∀ it ∈ l, it.flushMark) : ∀ it ∈ (placeHeads l p).1, it.flushMark := by
  intro it hit
  have hmem := List.mem_map_of_mem (f := fun it : FifoItem => { it with place := none }) hit
  rw [placeHeads_items] at hmem
  obtain ⟨x, hx, heq⟩ := List.mem_map.mp hmem
  have hcount : x.count = it.count := (congrArg FifoItem.count heq :)
  have hcause : x.cause = it.cause := (congrArg FifoItem.cause heq :)
  have hmark := hl x hx
  rwa [FifoItem.flushMark, hcount, hcause] at hmark

/-- The state after a flush of Gallery g, with its head entries and stream records. -/
def flushedState (g : Nat) (s : State) : State := keepRecords (onFifo g fun d => flushGal d g) s

theorem barGate_granted {s : State} {m a : Nat} (effect : State → State) (halive : alive s.dev = true)
    (hgrant : barGranted s.dev m a true = true) (ha : a % 8 = 0) : barGate s m a true effect = effect s := by
  unfold barGate
  rw [halive, hgrant, ha]
  rfl

theorem exec_flush_granted {s : State} {m : Nat} {g : Fin 26} (halive : alive s.dev = true)
    (hgrant : barGranted s.dev m (rGal g.val oFifoCtrl) true = true) : exec (.flush m g) s = .next (restartMet (flushedState g.val s)) :=
  congrArg ok (barGate_granted _ halive hgrant (by unfold rGal oFifoCtrl; omega))

theorem dev_flushedState (g : Nat) (s : State) :
    (flushedState g s).dev = (flushGal s.dev g).onGal g fun y =>
      { y with
        fifo := (placeHeads ((flushed s.dev g).foldl addRun []) ((flushGal s.dev g).gal g).wr).1
        wr := (placeHeads ((flushed s.dev g).foldl addRun []) ((flushGal s.dev g).gal g).wr).2 } := by
  rw [flushedState, keepRecords_dev, onFifo, writeHeads_dev, State.onDev_dev, fifo_flushGal]

theorem flushMark_flushedState (g : Nat) (s : State) : ∀ it ∈ ((flushedState g s).dev.gal g).fifo, it.flushMark := by
  rw [dev_flushedState, gal_onGal_same]
  exact flushMark_placeHeads _ (flushMark_runs s.dev g)

theorem quietGals_flushedState {s : State} (g : Nat) (h : quietGals s.dev) : quietGals (flushedState g s).dev := by
  rw [dev_flushedState]
  exact keptByBands_quietGals.onGal g _ (keptByBands_quietGals.flushGal g h)

theorem onlyOutputs_flushedState {g : Nat} (hg : g < 26) (s : State) : onlyOutputs s (flushedState g s) :=
  keepRecords_onlyOutputs (onlyFifo_onlyOutputs hg (onFifo_onlyFifo g _ s))

/-! ### The unread interval (R103) -/

theorem exec_timeout_working {s : State} (h : working s.dev = true) (g : Fin 26) :
    exec (.timeout g) s = .next (restartMet (s.onDev fun d => fifoTimeout d g.val)) := by
  show ok (if working s.dev then _ else s) = _
  rw [if_pos h]; rfl

/-- An unread interval that has been raised is not raised again. -/
theorem fifoTimeout_raised {d : Dev} {g : Nat} (h : (d.gal g).tmoRaised = true) : fifoTimeout d g = d := by
  unfold fifoTimeout
  exact if_pos (.inr (.inr h))

/-- The device at the end of Gallery g's unread interval, before its event. -/
def tmoCounted (g : Nat) (d : Dev) : Dev :=
  incErr ((advance d ((d.gal g).lastRead + regFld d (rGal g oFifoCtrl) 31 0 * 1000)).onGal g fun x => { x with tmoRaised := true })
    (rGal g oFifoTmoCnt)

theorem fifoTimeout_unread {d : Dev} {g : Nat} (hus : regFld d (rGal g oFifoCtrl) 31 0 ≠ 0) (hread : (d.gal g).readable = true)
    (htmo : (d.gal g).tmoRaised = false) : fifoTimeout d g = raise (tmoCounted g d) (768 + 8 * g) 1 := by
  unfold fifoTimeout
  exact if_neg (by simp [hus, hread, htmo])

theorem quietGals_tmoCounted {g : Nat} (hg : g < 26) {d : Dev} (h : quietGals d) : quietGals (tmoCounted g d) :=
  quietGals_incErr (.inl (Nat.lt_trans (rGal_lt hg (by decide)) (by decide))) (keptByBands_quietGals.onGal g _ h)

/-- The end of an unread interval is marked and counted; time is carried forward, and nothing else moves. -/
theorem tmoCounted_effect (g : Nat) (d : Dev) :
    (tmoCounted g d).gal g = { d.gal g with tmoRaised := true } ∧
      reg (tmoCounted g d) (rGal g oFifoTmoCnt) = errAdd (reg d (rGal g oFifoTmoCnt)) 1 ∧
      (tmoCounted g d).now = max d.now ((d.gal g).lastRead + regFld d (rGal g oFifoCtrl) 31 0 * 1000) ∧
      (∀ a, a ≠ rGal g oFifoTmoCnt → reg (tmoCounted g d) a = reg d a) ∧
      (tmoCounted g d).streams = d.streams ∧ ∀ h, h ≠ g → (tmoCounted g d).gal h = d.gal h := by
  refine ⟨?_, reg_incErr_same .., rfl, fun _ ha => reg_incErr_other _ ha, rfl, fun h hne => ?_⟩
  · rw [tmoCounted, Dev.gal_of_core (core_incErr ..), gal_onGal_same]
    rfl
  · rw [tmoCounted, Dev.gal_of_core (core_incErr ..), gal_onGal_other _ _ hne]
    rfl

/-! ### The statement -/

/-- Settles O18, one clause for each happening: its effect lemma, and that it leaves quiet Galleries quiet. -/
theorem sramErrorsAndFifoEvents : Obligations.SramErrorsAndFifoEvents := by
  refine ⟨fun g s halive => ?sramCorr,
    fun g s => ⟨fun m halive hgrant => ?flush, fun hwork hus hread => ⟨fun htmo => ?raised, fun htmo => ?unread⟩⟩⟩
  case sramCorr =>
    obtain ⟨hce, hcount, hstatus, hvalid, hcore⟩ := sramCorrected_effect g.isLt s.dev
    exact ⟨_, galEffect_of_quiet (exec_sramCorr_alive halive g) (quietGals_sramCorrected g.isLt), hce, hcount, hstatus, hvalid, hcore,
      sameOutside_onDev ..⟩
  case flush =>
    exact ⟨_, galEffect_of_quiet (exec_flush_granted halive hgrant) (quietGals_flushedState g.val), flushMark_flushedState g.val s,
      onlyOutputs_flushedState g.isLt s⟩
  case raised =>
    have hexec := exec_timeout_working hwork g
    rw [State.onDev, fifoTimeout_raised htmo] at hexec
    exact galEffect_of_quiet hexec id
  case unread =>
    have hexec := exec_timeout_working hwork g
    obtain ⟨hgal, hcount, hnow, hregs, hstreams, hother⟩ := tmoCounted_effect g.val s.dev
    rw [State.onDev, fifoTimeout_unread hus hread htmo] at hexec
    have hcore : (raise (tmoCounted g.val s.dev) (768 + 8 * g.val) 1).core = (tmoCounted g.val s.dev).core := core_raise ..
    refine ⟨_, galEffect_of_quiet hexec fun h => quietGals_raise _ _ _ _ (quietGals_tmoCounted g.isLt h), ?_, ?_, ?_, fun a hpage ha => ?_, ?_,
      fun h hne => ?_, rfl, rfl, rfl, rfl⟩
    · exact (Dev.gal_of_core hcore _).trans hgal
    · exact (reg_raise _ _ _ _ _ (not_eventPage_rGal g.isLt (by decide))).trans hcount
    · exact (Dev.now_of_core hcore).trans hnow
    · exact (reg_raise _ _ _ _ _ hpage).trans (hregs a ha)
    · exact (Dev.streams_of_core hcore).trans hstreams
    · exact (Dev.gal_of_core hcore _).trans (hother h hne)

end Sys2Proof.Machine

/-! SUPPORT. Commands on one stream: what one change of a stream moves, and the record of that stream with it (R19, R228, R389, R445). -/

namespace Sys2Proof.Machine

/-! ### Two changes of one entry -/

theorem Tab.del_del {α : Type} (t : Tab α) (k : Nat) : (t.del k).del k = t.del k := by
  induction t with
  | nil => rfl
  | cons e r ih =>
    obtain ⟨j, v⟩ := e
    by_cases h : j = k <;> simp [Tab.del, h, ih]

theorem Tab.del_ins {α : Type} (t : Tab α) (k : Nat) (v : α) : (t.ins k v).del k = t.del k := by
  induction t with
  | nil => simp [Tab.ins, Tab.del]
  | cons e r ih =>
    obtain ⟨j, w⟩ := e
    by_cases h : j < k
    · simp [Tab.ins, Tab.del, h, ih]
    · simp [Tab.ins, Tab.del, h]

/-- Of two settings of one entry the second stands. -/
theorem Tab.set_set {α : Type} [DecidableEq α] (t : Tab α) (dflt v w : α) (k : Nat) :
    (t.set dflt k v).set dflt k w = t.set dflt k w := by
  have hdel : (t.set dflt k v).del k = t.del k := by
    unfold Tab.set
    split
    · exact Tab.del_del t k
    · rw [Tab.del_ins, Tab.del_del]
  rw [Tab.set, hdel, ← Tab.set]

/-- Two changes of one stream are one. -/
theorem onStream_onStream (d : Dev) (n : Nat) (f g : Stream → Stream) :
    (d.onStream n f).onStream n g = d.onStream n fun x => g (f x) := by
  rw [Dev.onStream, stream_onStream_same, Dev.onStream, Dev.setStream, Dev.setStream, Tab.set_set]
  rfl

/-! ### The state in which a packet has been taken -/

theorem stream_taken (p : Pkt) (s : State) (n : Nat) : (taken p s).dev.stream n = s.dev.stream n :=
  Dev.stream_of_core (core_taken p s) n

theorem streamOwner_taken (p : Pkt) (s : State) (n : Nat) : (taken p s).dev.streamOwner n = s.dev.streamOwner n :=
  Dev.streamOwner_of_core (core_taken p s) n

theorem recips_taken (p : Pkt) (s : State) : (taken p s).dev.recips = s.dev.recips := Dev.recips_of_core (core_taken p s)

/-- A header that passes names a target within its limit (R387). -/
theorem target_lt_of_hdrBad {p : Pkt} {count limit : Nat} (h : hdrBad p count limit = false) : p.target < limit := by
  unfold hdrBad at h
  simp only [Bool.or_eq_false_iff, decide_eq_false_iff_not] at h
  omega

theorem reg_taken_lantern {p : Pkt} (s : State) (hf : p.fn ≤ 192) {n off : Nat} (hn : n < 192) (ho : off < 0x1000) :
    reg (taken p s).dev (rLan n off) = reg s.dev (rLan n off) :=
  reg_taken p s hf (by unfold eventPage rLan; omega) (by unfold ringPage rLan; omega)

theorem reg_taken_mouthStream {p : Pkt} (s : State) (hf : p.fn ≤ 192) {n off : Nat} (hn : n < 192) (ho : off < 0x100) :
    reg (taken p s).dev (rMs n off) = reg s.dev (rMs n off) :=
  reg_taken p s hf (by unfold eventPage rMs; omega) (by unfold ringPage rMs; omega)

/-- A command on one stream that passes its checks, with parameter words that meet their limits, is not refused. -/
theorem firstRefusal_streamGo {p : Pkt} {s : State} {count : Nat} {wordsOk : Bool} (hgo : streamGo p s count) (hok : wordsOk = true) :
    firstRefusal (streamRefusals (taken p s).dev p count ++ [(!wordsOk, stBadParam)]) = none := by
  rw [streamRefusals_taken hgo, hok]; rfl

theorem firstRefusal_streamQueryGo {p : Pkt} {s : State} (hgo : streamQueryGo p s) :
    firstRefusal (streamQueryRefusals (taken p s).dev p) = none := by
  rw [streamQueryRefusals_taken hgo]; rfl

/-- One change of stream n in the state in which a packet has been taken. -/
theorem onStream_taken_effect {p : Pkt} (s : State) (hf : p.fn ≤ 192) (n : Nat) (f : Stream → Stream) :
    let t := (taken p s).onDev fun d => d.onStream n f
    t.dev.stream n = f (s.dev.stream n) ∧ onlyStream n s t := by
  intro t
  refine ⟨?_, sameOutside_taken p s _, ?_, sameRegs_taken s.dev p hf, fun m hm => ?_⟩
  · rw [← stream_taken p s n]; exact stream_onStream_same ..
  · rw [← core_taken p s]; exact core_onStream ..
  · rw [← stream_taken p s m]; exact stream_onStream_other _ f hm

/-! ### The size of what a record holds (R175, R227, R228) -/

@[simp] theorem length_leBytes (n : Nat) (v : Int) : (leBytes n v).length = n := by
  rw [leBytes, List.length_map, List.length_range]

theorem length_imageBytes (x : Stream) (i : Image) : (imageBytes x i).length = 0x600 := by
  simp only [imageBytes, List.length_append, length_sized, length_leBytes]

theorem length_groupBytes (d : Dev) (n g : Nat) : (groupBytes d n g).length = 16 := by
  simp only [groupBytes, List.length_append, length_sized, length_leBytes]

theorem length_tableBytes (d : Dev) (n : Nat) : (tableBytes d n).length = 0x680 := by
  have hgroups : (List.range 8).map (fun g => (groupBytes d n g).length) = (List.range 8).map fun _ => 16 :=
    List.map_congr_left fun g _ => length_groupBytes d n g
  rw [tableBytes, List.length_append, length_sized, List.length_flatMap]
  exact congrArg (fun l => 0x600 + l.sum) hgroups

/-- The table and the groups of a stream rest on the stream and on the recipients. -/
theorem tableBytes_congr {d d' : Dev} {n : Nat} (hstream : d'.stream n = d.stream n) (hrecips : d'.recips = d.recips) :
    tableBytes d' n = tableBytes d n := by
  have hgroups : groupBytes d' n = groupBytes d n := by
    funext g
    simp only [groupBytes, recipsOf, Dev.recip, hstream, hrecips]
  rw [tableBytes, hstream, hgroups, tableBytes]

/-! ### Bringing the record of one stream up to date (R228, R445) -/

theorem onlyWhere_refl (P : Nat → Prop) (s : State) : onlyWhere P s s := ⟨rfl, rfl, rfl, fun _ _ => rfl⟩

theorem onlyWhere_trans {P : Nat → Prop} {a b c : State} (h : onlyWhere P a b) (k : onlyWhere P b c) : onlyWhere P a c := by
  obtain ⟨hpending, hgen, hnv, hbyte⟩ := h
  obtain ⟨kpending, kgen, knv, kbyte⟩ := k
  exact ⟨kpending.trans hpending, kgen.trans hgen, knv.trans hnv, fun i hi => (kbyte i hi).trans (hbyte i hi)⟩

/-- The same of a state that takes its memory alone from the other. -/
theorem onlyWhere_withMem {P : Nat → Prop} {s t : State} (h : onlyWhere P s t) : onlyWhere P s { s with mem := t.mem } := by
  obtain ⟨-, hgen, -, hbyte⟩ := h
  refine ⟨rfl, rfl, rfl, fun a ha => ?_⟩
  have ht := hbyte a ha
  unfold State.byte at ht ⊢
  rwa [hgen] at ht

/-- Bytes that fit into a record move no byte beside its two copies. -/
theorem onlyRecord_storeBoth (s : State) (n : Nat) {off : Nat} {bs : List Byte} (h : off + bs.length ≤ 0x8000) :
    onlyRecord n s (storeBoth s n off bs) := by
  refine ⟨rfl, rfl, rfl, fun a ha => ?_⟩
  unfold inRecord at ha
  rw [storeBoth, State.byte_store_outside _ _ _ _ (by omega), State.byte_store_outside _ _ _ _ (by omega)]

/-- Images stand in the first eight slots of a record, whatever their numbers. -/
theorem onlyRecord_images {n : Nat} {s : State} (l : List Image) (bytes : State → Image → List Byte)
    (hlen : ∀ u i, (bytes u i).length = 0x600) :
    onlyRecord n s (each l s fun u i => storeBoth u n (i.seq % 8 * 0x600) (bytes u i)) :=
  each_keeps (P := onlyRecord n s) _
    (fun u i hu => onlyWhere_trans hu (onlyRecord_storeBoth u n (by rw [hlen]; omega))) l s (onlyWhere_refl _ s)

theorem onlyRecord_syncVerified (was : Stream) (s : State) (n : Nat) : onlyRecord n s (syncVerified was s n) := by
  unfold syncVerified
  split
  · exact onlyWhere_refl _ s
  · exact onlyRecord_storeBoth s n (show 0x3000 + 8 ≤ 0x8000 by decide)

theorem onlyRecord_syncTable (old : Dev) (s : State) (n : Nat) : onlyRecord n s (syncTable old s n) := by
  have htable : onlyRecord n s (if tableBytes s.dev n = tableBytes old n then s else storeBoth s n 0x3800 (tableBytes s.dev n)) := by
    split
    · exact onlyWhere_refl _ s
    · exact onlyRecord_storeBoth s n (by rw [length_tableBytes]; decide)
  unfold syncTable
  dsimp only
  split
  · exact htable
  · exact onlyWhere_trans htable (onlyRecord_storeBoth _ n (by rw [counterBytes, length_sized]; decide))

theorem onlyRecord_clearRecord (was : Stream) (s : State) (n : Nat) : onlyRecord n s (clearRecord was s n) :=
  onlyWhere_trans (onlyRecord_images _ (fun _ _ => List.replicate 0x600 0) fun _ _ => List.length_replicate) <|
    onlyWhere_trans (onlyRecord_storeBoth _ n (by rw [List.length_replicate]; decide))
      (onlyRecord_storeBoth _ n (by rw [List.length_replicate]; decide))

/-- Bringing one record up to date moves that record alone. -/
theorem onlyRecord_syncRecord (old : Dev) (s : State) (n : Nat) : onlyRecord n s (syncRecord old s n) := by
  unfold syncRecord
  split
  · exact onlyRecord_clearRecord ..
  · exact onlyWhere_trans (onlyRecord_images _ (fun u i => imageBytes (u.dev.stream n) i) fun _ _ => length_imageBytes ..) <|
      onlyWhere_trans (onlyRecord_syncVerified _ _ n) (onlyRecord_syncTable old _ n)

theorem dev_syncRecord (old : Dev) (s : State) (n : Nat) : (syncRecord old s n).dev = s.dev :=
  syncRecord_keeps (P := fun u => u.dev = s.dev) (fun u m a bs h => (storeBoth_dev u m a bs).trans h) old s n rfl

/-- The record of a stream that has not moved is not written. -/
theorem syncRecord_unmoved {old : Dev} {s : State} {n : Nat} (hstream : s.dev.stream n = old.stream n)
    (htable : tableBytes s.dev n = tableBytes old n) : syncRecord old s n = s := by
  have himages : syncImages (old.stream n) s n = s := by
    have hnone : ((old.stream n).images.filter fun i => !(old.stream n).images.contains i) = [] := by simp
    rw [syncImages, hstream, hnone]; rfl
  have hphase : ((old.stream n).phase == .free && (old.stream n).phase != .free) = false := Bool.and_not_self _
  rw [syncRecord, hstream, hphase, if_neg Bool.false_ne_true, himages, syncVerified, hstream, if_pos rfl, syncTable, if_pos htable,
    hstream, if_pos rfl]

/-- Where at most stream n and its table have moved, at most its record moves. -/
theorem onlyRecord_syncRecords {old : Dev} {s : State} {n : Nat}
    (hother : ∀ m, m ≠ n → s.dev.stream m = old.stream m ∧ tableBytes s.dev m = tableBytes old m) :
    onlyRecord n s (syncRecords old s) := by
  have hall : (each (recordsOf old s.dev) s (syncRecord old)).dev = s.dev ∧
      onlyRecord n s (each (recordsOf old s.dev) s (syncRecord old)) := by
    refine each_keeps (P := fun t => t.dev = s.dev ∧ onlyRecord n s t) _ (fun t m ht => ?_) _ _ ⟨rfl, onlyWhere_refl _ s⟩
    obtain ⟨hdev, honly⟩ := ht
    refine ⟨(dev_syncRecord old t m).trans hdev, ?_⟩
    by_cases hm : m = n
    · subst hm
      exact onlyWhere_trans honly (onlyRecord_syncRecord old t m)
    · obtain ⟨hstream, htable⟩ := hother m hm
      rwa [syncRecord_unmoved (hdev ▸ hstream) (hdev ▸ htable)]
  exact onlyWhere_withMem hall.2

/-- An operation whose effect is one change of the target stream, with the record that moves on. -/
theorem recordEffect_of {i : Instr} {p : Pkt} {s : State} {op : State → Pkt → State × Answer} {f : Stream → Stream}
    (hi : exec i s = ok (submit op p s)) (h : takesNow p s)
    (hop : op (taken p s) p = (keepRecords (·.onDev fun d => d.onStream p.target f) (taken p s), .now stOk [] p.target)) :
    recordEffect i p s f := by
  obtain ⟨htarget, -, hdev⟩ := onStream_taken_effect s h.1 p.target f
  have hother : ∀ m, m ≠ p.target →
      ((taken p s).dev.onStream p.target f).stream m = (taken p s).dev.stream m ∧
        tableBytes ((taken p s).dev.onStream p.target f) m = tableBytes (taken p s).dev m := fun m hm =>
    have hstream := stream_onStream_other (taken p s).dev f hm
    ⟨hstream, tableBytes_congr hstream rfl⟩
  have hbefore : onlyRecord p.target s ((taken p s).onDev fun d => d.onStream p.target f) := ⟨rfl, rfl, rfl, fun _ _ => rfl⟩
  refine ⟨_, hi.trans (congrArg ok (submit_answered h hop)), htarget, hdev, ?_⟩
  exact onlyWhere_trans hbefore (onlyRecord_syncRecords hother)

end Sys2Proof.Machine

/-! SUPPORT. The commands that stage parameters, set a report ring, clear counters and answer what a stream holds (R156 to R166, R190 to R192,
R252, R391, R396). -/

namespace Sys2Proof.Machine

/-! ### Staged commands (R156 to R158, R165, R166, R192) -/

/-- The state in which a packet has been taken, with a command staged for the stream that it names. -/
def stagedFor (p : Pkt) (s : State) (x : Staged) : State := (taken p s).onDev fun d => stage d p.target x

/-- A command that is staged joins the list of its stream at the end. -/
theorem streamEffect_of_staged {i : Instr} {p : Pkt} {s : State} {op : State → Pkt → State × Answer} {x : Staged}
    (hi : exec i s = ok (submit op p s)) (h : takesNow p s) (hop : op (taken p s) p = (stagedFor p s x, .now stOk [] p.target)) :
    streamEffect i p s [] fun y => { y with staged := y.staged ++ [x] } := streamEffect_of hi h hop

theorem opRateSet_accepted {p : Pkt} {s : State} (hgo : streamGo p s 3) (hwords : rateWordsOk (p.w 1) (p.w 2) (p.w 3) = true)
    (hrate : (s.dev.stream p.target).cfg.rateOk (rateSetOf s.dev p) = true) :
    opRateSet (taken p s) p =
      ((stagedFor p s (.rateSet (rateSetOf s.dev p))).onDev fun d => onRef d p.target fun r => { r with keyForced := true },
        .now stOk [] p.target) := by
  have hset : rateSetOf (taken p s).dev p = rateSetOf s.dev p := by rw [rateSetOf, stream_taken, rateSetOf]
  have hok : (rateWordsOk (p.w 1) (p.w 2) (p.w 3) && ((taken p s).dev.stream p.target).cfg.rateOk (rateSetOf (taken p s).dev p)) = true := by
    rw [hwords, hset, stream_taken, hrate]; rfl
  rw [← hset]
  unfold opRateSet
  exact simply_ok (firstRefusal_streamGo hgo hok)

/-- RATE.SET is staged, and asks for a key frame: both are one change of the stream. -/
theorem streamEffect_rateSet {i : Instr} {p : Pkt} {s : State} (hi : exec i s = ok (submit opRateSet p s)) (h : takesNow p s)
    (hgo : streamGo p s 3) (hwords : rateWordsOk (p.w 1) (p.w 2) (p.w 3) = true)
    (hrate : (s.dev.stream p.target).cfg.rateOk (rateSetOf s.dev p) = true) :
    streamEffect i p s [] fun x =>
      { x with staged := x.staged ++ [.rateSet (rateSetOf s.dev p)], ref := { x.ref with keyForced := true } } := by
  have hone : (stagedFor p s (.rateSet (rateSetOf s.dev p))).onDev (fun d => onRef d p.target fun r => { r with keyForced := true }) =
      (taken p s).onDev fun d => d.onStream p.target fun x =>
        { x with staged := x.staged ++ [.rateSet (rateSetOf s.dev p)], ref := { x.ref with keyForced := true } } := by
    simp only [stagedFor, State.onDev, stage, onRef, onStream_onStream]
  exact streamEffect_of hi h (by rw [opRateSet_accepted hgo hwords hrate, hone])

theorem opRateTarget_accepted {p : Pkt} {s : State} (hgo : streamGo p s 1) (hok : rateTargetOk (s.dev.stream p.target) p = true) :
    opRateTarget (taken p s) p = (stagedFor p s (.target (p.f 1 63 32) (p.f 1 7 0)), .now stOk [] p.target) :=
  simply_ok (firstRefusal_streamGo hgo (by rw [stream_taken, hok]))

theorem opRateLimits_accepted {p : Pkt} {s : State} (hgo : streamGo p s 1) (hw : within (p.w 1) (ones 63 48) = true)
    (hmin : p.f 1 63 56 ≤ p.f 1 55 48) (hmax : p.f 1 55 48 ≤ 51) :
    opRateLimits (taken p s) p = (stagedFor p s (.limits (p.f 1 63 56) (p.f 1 55 48)), .now stOk [] p.target) := by
  unfold opRateLimits
  exact simply_ok (firstRefusal_streamGo hgo (by simp [hw, hmin, hmax]))

theorem opRateRoi_accepted {p : Pkt} {s : State} (hgo : streamGo p s 9) (hok : roiOk (s.dev.stream p.target).cfg p = true) :
    opRateRoi (taken p s) p = (stagedFor p s (.roi (roiOf p)), .now stOk [] p.target) :=
  simply_ok (firstRefusal_streamGo hgo (by rw [stream_taken, hok]))

/-- RATE.MAP, whose extent of device memory is granted to the issuer (R435). -/
theorem opRateMap_accepted {p : Pkt} {s : State} (hf : p.fn ≤ 192) (hgo : streamGo p s 2)
    (hok : mapOk (s.dev.stream p.target).cfg p = true)
    (hgrant : memGranted s.dev p.fn (p.w 1).toNat ((s.dev.stream p.target).cfg.slotCount * p.f 2 63 32) true = true) :
    opRateMap (taken p s) p =
      (stagedFor p s (.map { base := (p.w 1).toNat, stride := p.f 2 63 32, en := p.b 2 0 }), .now stOk [] p.target) := by
  obtain ⟨hhdr, howner, hoff⟩ := hgo
  have hissuer : firstRefusal [(hdrBad p 2 192, stBadParam), (notOwner p ((taken p s).dev.streamOwner p.target), stDenied)] = none := by
    rw [streamOwner_taken, hhdr, howner]; rfl
  have hgranted := (memGranted_same (sameGrants_taken s hf) p.fn (p.w 1).toNat
    ((s.dev.stream p.target).cfg.slotCount * p.f 2 63 32) true).trans hgrant
  have hwords : firstRefusal
      [(streamOff (taken p s).dev p, stBadState), (!mapOk ((taken p s).dev.stream p.target).cfg p, stBadParam)] = none := by
    have hofft : streamOff (taken p s).dev p = false := by rw [streamOff, stream_taken, ← streamOff, hoff]
    rw [hofft, stream_taken, hok]; rfl
  unfold opRateMap
  dsimp only
  rw [hissuer]
  dsimp only
  rw [stream_taken, hgranted, Bool.not_true, Bool.and_false, if_neg Bool.false_ne_true, ← stream_taken p s]
  exact simply_ok hwords

theorem opRefConfig_accepted {p : Pkt} {s : State} (hgo : streamGo p s 3) (hok : refCfgOk p = true) :
    opRefConfig (taken p s) p = (stagedFor p s (.refConfig (refCfgOf p)), .now stOk [] p.target) :=
  simply_ok (firstRefusal_streamGo hgo hok)

/-- Settles O1: each command, once its checks pass, is one change of its stream. -/
theorem stagedCommandsJoinTheList : Obligations.StagedCommandsJoinTheList := by
  intro fn hdr ps s
  refine ⟨?rateSet, ?rateTarget, ?rateLimits, ?rateRoi, ?rateMap, ?refConfig⟩
  case rateSet => exact fun h hgo hwords hrate => streamEffect_rateSet rfl h hgo hwords hrate
  case rateTarget => exact fun h hgo hok => streamEffect_of_staged rfl h (opRateTarget_accepted hgo hok)
  case rateLimits => exact fun h hgo hw hmin hmax => streamEffect_of_staged rfl h (opRateLimits_accepted hgo hw hmin hmax)
  case rateRoi => exact fun h hgo hok => streamEffect_of_staged rfl h (opRateRoi_accepted hgo hok)
  case rateMap => exact fun h hgo hok hgrant => streamEffect_of_staged rfl h (opRateMap_accepted h.1 hgo hok hgrant)
  case refConfig => exact fun h hgo hok => streamEffect_of_staged rfl h (opRefConfig_accepted hgo hok)

/-! ### The report ring and the counters (R161, R162, R165, R190, R252) -/

theorem opRateReport_accepted {p : Pkt} {s : State} (hgo : streamGo p s 2) (hok : ringWordsOk (p.w 1) (p.w 2) 16 65536 = true) :
    opRateReport (taken p s) p =
      ((taken p s).onDev fun d => d.onStream p.target fun x => { x with report := ringOf (p.w 1) (p.w 2) }, .now stOk [] p.target) :=
  simply_ok (firstRefusal_streamGo hgo hok)

/-- The state in which a packet has been taken, with one change of its stream and of its record. -/
def recordedFor (p : Pkt) (s : State) (f : Stream → Stream) : State :=
  keepRecords (·.onDev fun d => d.onStream p.target f) (taken p s)

theorem opRateClear_accepted {p : Pkt} {s : State} (hgo : streamGo p s 1) (hw : within (p.w 1) (ones 9 3) = true) :
    opRateClear (taken p s) p =
      (recordedFor p s fun x => { x with rateCnt := clearCnt x.rateCnt (p.w 1) [3, 4, 5, 6, 7, 8, 9] }, .now stOk [] p.target) :=
  simply_ok (firstRefusal_streamGo hgo hw)

theorem opRefClear_accepted {p : Pkt} {s : State} (hgo : streamGo p s 1) (hw : within (p.w 1) (ones 9 5) = true) :
    opRefClear (taken p s) p =
      (recordedFor p s fun x => { x with refCnt := clearCnt x.refCnt (p.w 1) [5, 6, 7, 8, 9] }, .now stOk [] p.target) :=
  simply_ok (firstRefusal_streamGo hgo hw)

theorem opStreamClear_accepted {p : Pkt} {s : State} (hgo : streamGo p s 1) (hw : within (p.w 1) (ones 8 7) = true) :
    opStreamClear (taken p s) p =
      (recordedFor p s fun x => { x with availCnt := clearCnt x.availCnt (p.w 1) [7, 8] }, .now stOk [] p.target) :=
  simply_ok (firstRefusal_streamGo hgo hw)

/-- What a counter reads after a clear of the words lo to hi. -/
theorem get_clearCnt_between {ws : List Nat} {lo hi : Nat} (hws : ∀ w, w ∈ ws ↔ lo ≤ w ∧ w ≤ hi) (t : Tab Word) (v : Word) (w : Nat) :
    (clearCnt t v ws).get 0 w = if lo ≤ w ∧ w ≤ hi ∧ bit v w = true then 0 else t.get 0 w := by
  simp only [get_clearCnt, hws, and_assoc]

/-- Settles O2: the ring, and each table of counters, is one change of the stream; the record of the stream alone moves on with it. -/
theorem reportAndClearCommands : Obligations.ReportAndClearCommands := by
  intro fn hdr ps s
  refine ⟨?report, ?rateClear, ?refClear, ?streamClear⟩
  case report => exact fun h hgo hok => streamEffect_of rfl h (opRateReport_accepted hgo hok)
  case rateClear =>
    exact fun h hgo hw => ⟨_, recordEffect_of rfl h (opRateClear_accepted hgo hw), fun x =>
      ⟨_, rfl, get_clearCnt_between (by simp; omega) x.rateCnt _⟩⟩
  case refClear =>
    exact fun h hgo hw => ⟨_, recordEffect_of rfl h (opRefClear_accepted hgo hw), fun x =>
      ⟨_, rfl, get_clearCnt_between (by simp; omega) x.refCnt _⟩⟩
  case streamClear =>
    exact fun h hgo hw => ⟨_, recordEffect_of rfl h (opStreamClear_accepted hgo hw), fun x =>
      ⟨_, rfl, get_clearCnt_between (by simp; omega) x.availCnt _⟩⟩

/-! ### The queries of a stream (R162, R190, R391, R396) -/

/-- The words of STREAM.QUERY for stream n (R252, R391). -/
def streamWords (d : Dev) (n : Nat) : List Word :=
  let x := d.stream n
  [ word (x.phase.num * 2 ^ 62 + d.streamOwner n % 256 * 2 ^ 54 + x.load), word (partsWord x)
  , reg d (rMs n oMsReseq), reg d (rLan n oLanRows) ] ++ [4, 5, 6, 7, 8].map fun w => x.availCnt.get 0 w

/-- The words of RATE.QUERY for a stream (R162). -/
def rateWords (x : Stream) : List Word :=
  word (x.rate.d % two32 * two32 + signedBits 32 x.rate.v) :: [1, 2, 3, 4, 5, 6, 7, 8, 9].map (fun w => x.rateCnt.get 0 w)
    ++ [word (x.qLast * 2 ^ 56 + x.params.mode)]

/-- The words of REF.QUERY for stream n (R190). -/
def refWords (d : Dev) (n : Nat) : List Word :=
  refWord0 d n :: [1, 2, 3, 4, 5, 6, 7, 8, 9].map fun w => (d.stream n).refCnt.get 0 w

/-- The words of RASTER.QUERY for stream n (R396). -/
def rasterWords (d : Dev) (n : Nat) : List Word := (List.range 10).map fun i => reg d (rLan n (8 + 8 * i))

theorem streamWords_taken {p : Pkt} (s : State) (hf : p.fn ≤ 192) {n : Nat} (hn : n < 192) :
    streamWords (taken p s).dev n = streamWords s.dev n := by
  have hreseq := reg_taken_mouthStream s hf hn (off := oMsReseq) (by decide)
  have hrows := reg_taken_lantern s hf hn (off := oLanRows) (by decide)
  rw [streamWords, stream_taken, streamOwner_taken, hreseq, hrows, streamWords]

/-- The first word of REF.QUERY rests on the stream and on the recipients. -/
theorem refWord0_taken (p : Pkt) (s : State) (n : Nat) : refWord0 (taken p s).dev n = refWord0 s.dev n := by
  have hmarked : markedIn (taken p s).dev n = markedIn s.dev n := by
    funext g
    simp only [markedIn, recipsOf, Dev.recip, recips_taken]
  rw [refWord0, stream_taken, hmarked, refWord0]

theorem refWords_taken (p : Pkt) (s : State) (n : Nat) : refWords (taken p s).dev n = refWords s.dev n := by
  rw [refWords, refWord0_taken, stream_taken, refWords]

theorem rasterWords_taken {p : Pkt} (s : State) (hf : p.fn ≤ 192) {n : Nat} (hn : n < 192) :
    rasterWords (taken p s).dev n = rasterWords s.dev n :=
  List.map_congr_left fun i hi => reg_taken_lantern s hf hn (by have := List.mem_range.mp hi; omega)

theorem opStreamQuery_accepted {p : Pkt} {s : State} (hf : p.fn ≤ 192) (hgo : streamQueryGo p s) :
    opStreamQuery (taken p s) p = (taken p s, .now stOk (streamWords s.dev p.target) p.target) := by
  rw [← streamWords_taken s hf (target_lt_of_hdrBad hgo.1)]
  unfold opStreamQuery
  exact simply_ok (firstRefusal_streamQueryGo hgo)

theorem opRateQuery_accepted {p : Pkt} {s : State} (hgo : streamQueryGo p s) :
    opRateQuery (taken p s) p = (taken p s, .now stOk (rateWords (s.dev.stream p.target)) p.target) := by
  rw [← stream_taken p s]
  unfold opRateQuery
  exact simply_ok (firstRefusal_streamQueryGo hgo)

theorem opRefQuery_accepted {p : Pkt} {s : State} (hgo : streamQueryGo p s) :
    opRefQuery (taken p s) p = (taken p s, .now stOk (refWords s.dev p.target) p.target) := by
  rw [← refWords_taken p s]
  unfold opRefQuery
  exact simply_ok (firstRefusal_streamQueryGo hgo)

theorem opRasterQuery_accepted {p : Pkt} {s : State} (hf : p.fn ≤ 192) (hhdr : hdrBad p 0 192 = false)
    (howner : notOwner p (s.dev.streamOwner p.target) = false) :
    opRasterQuery (taken p s) p = (taken p s, .now stOk (rasterWords s.dev p.target) p.target) := by
  have hnone : firstRefusal [(hdrBad p 0 192, stBadParam), (notOwner p ((taken p s).dev.streamOwner p.target), stDenied)] = none := by
    rw [streamOwner_taken, hhdr, howner]; rfl
  rw [← rasterWords_taken s hf (target_lt_of_hdrBad hhdr)]
  exact simply_ok hnone

/-- Settles O3: each query answers its words, read in the state in which its packet has been taken, and changes nothing. -/
theorem streamQueriesAnswer : Obligations.StreamQueriesAnswer := by
  intro fn hdr ps s
  refine ⟨?streamQuery, ?rateQuery, ?refQuery, ?rasterQuery⟩
  case streamQuery => exact fun h hgo => streamEffect_id rfl h (opStreamQuery_accepted h.1 hgo)
  case rateQuery => exact fun h hgo => streamEffect_id rfl h (opRateQuery_accepted hgo)
  case refQuery => exact fun h hgo => streamEffect_id rfl h (opRefQuery_accepted hgo)
  case rasterQuery => exact fun h hhdr howner => streamEffect_id rfl h (opRasterQuery_accepted h.1 hhdr howner)

end Sys2Proof.Machine

/-! SUPPORT. Key requests and refresh requests: the stream that they name and its record move, and an event may be raised (R184, R186, R228). -/

namespace Sys2Proof.Machine

/-! ### One stream, and an event beside it -/

theorem onlyStreamDev_onStream (s : State) (n : Nat) (f : Stream → Stream) : onlyStreamDev n s (s.onDev fun d => d.onStream n f) :=
  ⟨core_onStream .., fun _ _ _ => rfl, fun _ hm => stream_onStream_other s.dev f hm⟩

/-- An event moves no stream, and no register outside the pages of the event system. -/
theorem onlyStreamDev_raise {n : Nat} {s t : State} (h : onlyStreamDev n s t) (src cause subj data : Nat) :
    onlyStreamDev n s (t.onDev fun d => raise d src cause subj data) := by
  obtain ⟨hcore, hregs, hother⟩ := h
  refine ⟨?_, fun a he hr => (reg_raise _ _ _ _ _ he).trans (hregs a he hr), fun m hm => ?_⟩
  · rw [State.onDev_dev, core_raise, hcore, Dev.streams_of_core (core_raise ..)]
  · exact (Dev.stream_of_core (core_raise ..) m).trans (hother m hm)

theorem onlyStreamDev_taken {n : Nat} {p : Pkt} {s t : State} (hf : p.fn ≤ 192) (h : onlyStreamDev n (taken p s) t) : onlyStreamDev n s t := by
  obtain ⟨hcore, hregs, hother⟩ := h
  exact ⟨hcore.trans (by rw [core_taken]), sameRegs_trans (sameRegs_taken s.dev p hf) hregs,
    fun m hm => (hother m hm).trans (stream_taken p s m)⟩

theorem recips_of_onlyStreamDev {n : Nat} {s t : State} (h : onlyStreamDev n s t) : t.dev.recips = s.dev.recips := (congrArg Dev.recips h.1 :)

/-- An operation that moves the stream it names and may raise events, with the record that moves on. -/
theorem recordEffect_of_onlyStreamDev {i : Instr} {p : Pkt} {s : State} {op : State → Pkt → State × Answer} {g : Dev → Dev}
    {f : Stream → Stream} (hi : exec i s = ok (submit op p s)) (h : takesNow p s)
    (hop : op (taken p s) p = (keepRecords (·.onDev g) (taken p s), .now stOk [] p.target))
    (htarget : (g (taken p s).dev).stream p.target = f ((taken p s).dev.stream p.target))
    (honly : onlyStreamDev p.target (taken p s) ((taken p s).onDev g)) : recordEffect i p s f := by
  have hother : ∀ m, m ≠ p.target → (g (taken p s).dev).stream m = (taken p s).dev.stream m ∧
      tableBytes (g (taken p s).dev) m = tableBytes (taken p s).dev m := fun m hm =>
    have hstream := honly.2.2 m hm
    ⟨hstream, tableBytes_congr hstream (recips_of_onlyStreamDev honly)⟩
  have hbefore : onlyRecord p.target s ((taken p s).onDev g) := ⟨rfl, rfl, rfl, fun _ _ => rfl⟩
  refine ⟨_, hi.trans (congrArg ok (submit_answered h hop)), ?_, onlyStreamDev_taken h.1 honly, ?_⟩
  · rw [← stream_taken p s]; exact htarget
  · exact onlyWhere_trans hbefore (onlyRecord_syncRecords hother)

/-! ### Key requests (R184) -/

/-- What a key request leaves of its stream: forced, open, or held and counted. -/
def keyAsked (d : Dev) (force : Bool) (x : Stream) : Stream :=
  if force then { x with ref := { x.ref with keyForced := true } }
  else if keyOpen d x.ref x.ref.cfg.keyMinMs then { x with ref := { x.ref with keyReq := true } }
  else { x with ref := { x.ref with keyReq := true, keyHeldRaised := true }, refCnt := x.refCnt.set 0 8 (errAdd (x.refCnt.get 0 8) 1) }

/-- A key request is one change of its stream; the first of an interval that is held raises an event too. -/
theorem keyRequest_cases (d : Dev) (n : Nat) (force : Bool) :
    keyRequest d n force = d.onStream n (fun _ => keyAsked d force (d.stream n)) ∨
      keyRequest d n force = raise (d.onStream n fun _ => keyAsked d force (d.stream n)) (4 * n + 3) 3 := by
  unfold keyRequest keyAsked
  dsimp only
  by_cases hforce : force = true
  · rw [if_pos hforce, if_pos hforce]
    exact .inl rfl
  · rw [if_neg hforce, if_neg hforce]
    by_cases hopen : keyOpen d (d.stream n).ref (d.stream n).ref.cfg.keyMinMs = true
    · rw [if_pos hopen, if_pos hopen]
      exact .inl rfl
    · rw [if_neg hopen, if_neg hopen, refErr, onRef, onStream_onStream]
      by_cases hraised : (d.stream n).ref.keyHeldRaised = true
      · rw [if_pos hraised]
        exact .inl rfl
      · rw [if_neg hraised]
        exact .inr rfl

theorem stream_keyRequest (d : Dev) (n : Nat) (force : Bool) : (keyRequest d n force).stream n = keyAsked d force (d.stream n) := by
  rcases keyRequest_cases d n force with h | h
  · rw [h, stream_onStream_same]
  · rw [h, Dev.stream_of_core (core_raise ..), stream_onStream_same]

theorem onlyStreamDev_keyRequest (s : State) (n : Nat) (force : Bool) : onlyStreamDev n s (s.onDev fun d => keyRequest d n force) := by
  have hasked := onlyStreamDev_onStream s n fun _ => keyAsked s.dev force (s.dev.stream n)
  rcases keyRequest_cases s.dev n force with h | h
  · rw [State.onDev, h]; exact hasked
  · rw [State.onDev, h]; exact onlyStreamDev_raise hasked ..

/-- Whether the interval is over rests on device time alone. -/
theorem keyAsked_taken (p : Pkt) (s : State) (force : Bool) : keyAsked (taken p s).dev force = keyAsked s.dev force := by
  have hopen : keyOpen (taken p s).dev = keyOpen s.dev := by
    funext r ms
    rw [keyOpen, Dev.now_of_core (core_taken p s), keyOpen]
  unfold keyAsked
  rw [hopen]

theorem opRefKey_accepted {p : Pkt} {s : State} (hgo : streamGo p s 1) (hw : within (p.w 1) 1 = true) :
    opRefKey (taken p s) p = (keepRecords (·.onDev fun d => keyRequest d p.target (p.b 1 0)) (taken p s), .now stOk [] p.target) :=
  simply_ok (firstRefusal_streamGo hgo hw)

/-! ### Refresh requests (R186) -/

/-- What a refresh request leaves of its stream: one that arrives during a wave changes nothing. -/
def refreshAsked (x : Stream) : Stream := if x.ref.wave.isSome then x else { x with ref := { x.ref with refreshReq := true } }

theorem refreshRequest_eq (d : Dev) (n : Nat) : refreshRequest d n = d.onStream n refreshAsked := by
  have hstream : (fun x : Stream => { x with ref := if x.ref.wave.isSome then x.ref else { x.ref with refreshReq := true } }) = refreshAsked := by
    funext x
    unfold refreshAsked
    split <;> rfl
  rw [refreshRequest, onRef, hstream]

theorem opRefRefresh_accepted {p : Pkt} {s : State} (hgo : streamGo p s 0) :
    opRefRefresh (taken p s) p = (recordedFor p s refreshAsked, .now stOk [] p.target) := by
  have hop : opRefRefresh (taken p s) p =
      (keepRecords (·.onDev fun d => refreshRequest d p.target) (taken p s), .now stOk [] p.target) :=
    simply_ok (by rw [streamRefusals_taken hgo]; rfl)
  rw [recordedFor]
  simpa only [refreshRequest_eq] using hop

/-- Settles O4: each request is one change of its stream; a held key request may raise an event beside it. -/
theorem keyAndRefreshRequests : Obligations.KeyAndRefreshRequests := by
  intro fn hdr ps s
  refine ⟨fun h hgo hw => ?key, fun h hgo => recordEffect_of rfl h (opRefRefresh_accepted hgo)⟩
  case key =>
    have hasked := stream_keyRequest (taken (mkPkt 0x0502 fn hdr ps) s).dev
    simp only [keyAsked_taken] at hasked
    exact recordEffect_of_onlyStreamDev rfl h (opRefKey_accepted hgo hw) (hasked ..) (onlyStreamDev_keyRequest ..)

end Sys2Proof.Machine

/-! SUPPORT. REF.LOSS and the SILENT timer on a recipient that the table lists twice: the record of another stream moves with it (R172, R175,
R180, R228, R445). -/

namespace Sys2Proof.Machine

/-! ### A table of recipients that lists one entry for two streams -/

/-- The device of `twiceListed` with stream 0 running too. Entry 0 is listed as a recipient of stream 0 and again as one of stream 1. No
operation of the model makes such a table, but it is a state, and the statements speak of all of them. -/
def bothRunningDev : Dev := { twiceListedDev with streams := [(0, { phase := .running }), (1, { phase := .running })] }

/-- The record of stream 1 counts the second listing. -/
def bothRunning : State := { mem := [(reportersAddr, 1)], dev := bothRunningDev }

theorem byte_bothRunning : bothRunning.byte reportersAddr = 1 := by decide +kernel

theorem stream_bothRunning : (bothRunning.dev.recip 0).stream = 0 := by decide +kernel

theorem not_inRecord_reportersAddr : ¬ inRecord 0 reportersAddr := by unfold inRecord reportersAddr; omega

/-- The reporting recipients of group 0 of a stream, as its record counts them. -/
def reportersByte (d : Dev) (n : Nat) : Option Byte := ((List.range 8).flatMap (groupBytes d n))[2]?

/-- Where streams 0 and 1 have records and stream 1 has lost its reporting recipient, the record of stream 1 says so. -/
theorem byte_syncRecords_reporters {old : Dev} {s : State} (hrecords : recordsOf old s.dev = [0, 1]) (hstream : s.dev.stream 1 = old.stream 1)
    (hbefore : reportersByte old 1 = some 1) (hafter : reportersByte s.dev 1 = some 0) : (syncRecords old s).byte reportersAddr = 0 := by
  have hdev : (syncRecord old s 0).dev = s.dev := dev_syncRecord old s 0
  have htable : tableBytes (syncRecord old s 0).dev 1 ≠ tableBytes old 1 := by
    intro h
    have hat := congrArg (·[0x600 + 2]?) h
    rw [reportersByte] at hbefore hafter
    simp only [tableBytes_group, hdev, hbefore, hafter] at hat
    exact absurd hat (by decide)
  have hsync : (syncRecords old s).byte reportersAddr = (syncRecord old (syncRecord old s 0) 1).byte reportersAddr := by
    rw [State.byte, State.byte, syncRecords_memGen, memGen_syncRecord, memGen_syncRecord, syncRecords, hrecords]
    rfl
  rw [hsync, syncRecord_of_table (hdev ▸ hstream) htable, reportersAddr]
  exact byte_storeBoth_first _ ((tableBytes_group ..).trans (hdev ▸ hafter)) (by decide) (by rw [length_tableBytes]; decide)

/-! ### REF.LOSS -/

/-- REF.ACK and REF.LOSS: the words are within their limits and the recipient is attached to the stream. -/
theorem firstRefusal_attached {p : Pkt} {s : State} {wordsOk : Bool} (hgo : streamGo p s 1) (hw : wordsOk = true)
    (hdet : detached s.dev p = false) :
    firstRefusal (streamRefusals (taken p s).dev p 1 ++ [(!wordsOk || detached (taken p s).dev p, stBadParam)]) = none := by
  have hdett : detached (taken p s).dev p = false := by
    rw [detached, Dev.recip_of_core (core_taken p s)]; exact hdet
  rw [streamRefusals_taken hgo, hw, hdett]; rfl

/-- REF.LOSS whose checks all pass. -/
theorem opRefLoss_accepted {p : Pkt} {s : State} (hgo : streamGo p s 1) (hw : within (p.w 1) (ones 63 48 ||| ones 45 0) = true)
    (hdet : detached s.dev p = false) :
    opRefLoss (taken p s) p =
      (keepRecords (·.onDev fun d => applyLoss d (p.f 1 45 32) (p.f 1 63 48) (p.f 1 31 0)) (taken p s), .now stOk [] p.target) :=
  simply_ok (firstRefusal_attached hgo hw hdet)

/-- REF.LOSS of stream 0, by the PF, of an unknown band of recipient 0. -/
def lossOfFirst : Pkt := mkPkt 0x0505 0 (word (2 ^ 43)) [0]

theorem takesNow_lossOfFirst : takesNow lossOfFirst bothRunning := by unfold takesNow; decide +kernel

theorem streamGo_lossOfFirst : streamGo lossOfFirst bothRunning 1 := by unfold streamGo; decide +kernel

theorem within_lossOfFirst : within (lossOfFirst.w 1) (ones 63 48 ||| ones 45 0) = true := by decide +kernel

theorem attached_lossOfFirst : detached bothRunning.dev lossOfFirst = false := by decide +kernel

/-- The state in which REF.LOSS has marked the recipient. -/
def firstMarked : State :=
  (taken lossOfFirst bothRunning).onDev fun d => applyLoss d (lossOfFirst.f 1 45 32) (lossOfFirst.f 1 63 48) (lossOfFirst.f 1 31 0)

/-- With the mark the second listing goes, and stream 1 has no recipient that reports any more. -/
theorem reporters_firstMarked :
    reportersByte (taken lossOfFirst bothRunning).dev 1 = some 1 ∧ reportersByte firstMarked.dev 1 = some 0 := by decide +kernel

theorem byte_lossOfFirst : (submit opRefLoss lossOfFirst bothRunning).byte reportersAddr = 0 := by
  obtain ⟨hbefore, hafter⟩ := reporters_firstMarked
  have hrecords : recordsOf (taken lossOfFirst bothRunning).dev firstMarked.dev = [0, 1] := by decide +kernel
  have hstream : firstMarked.dev.stream 1 = (taken lossOfFirst bothRunning).dev.stream 1 := by decide +kernel
  have hgo := opRefLoss_accepted streamGo_lossOfFirst within_lossOfFirst attached_lossOfFirst
  rw [submit_answered takesNow_lossOfFirst hgo, answered, State.onDev_byte, keepRecords, ← firstMarked]
  exact byte_syncRecords_reporters hrecords hstream hbefore hafter

/-- Refutes O5, by the frame of REF.LOSS: the mark of entry 0 for stream 0 takes the second listing of entry 0 away, and the record of
stream 1, which counted it, is brought up to date. -/
theorem not_ackAndLoss : ¬ Obligations.AckAndLoss := by
  rintro ⟨-, hloss⟩
  obtain ⟨t, hexec, -, -, -, -, -, hrecord, -⟩ :=
    hloss 0 (word (2 ^ 43)) [0] bothRunning takesNow_lossOfFirst streamGo_lossOfFirst within_lossOfFirst attached_lossOfFirst
  have hsubmit : submit opRefLoss lossOfFirst bothRunning = answered lossOfFirst t stOk [] lossOfFirst.target :=
    Host.Outcome.next.inj hexec
  have hkept : t.byte reportersAddr = 1 := (hrecord.2.2.2 _ not_inRecord_reportersAddr).trans byte_bothRunning
  have hmoved : t.byte reportersAddr = 0 := by rw [← byte_lossOfFirst, hsubmit, answered, State.onDev_byte]
  rw [hkept] at hmoved
  exact absurd hmoved (by decide)

/-! ### SILENT -/

theorem working_bothRunning : working bothRunning.dev = true := by decide +kernel

theorem exec_silent_working {s : State} (h : working s.dev = true) (r : Fin 16384) :
    exec (.silent r) s = .next (keepRecords (fun s => s.onDev fun d => silentExpiry d r) s) := by
  show ok (if working s.dev then _ else s) = _
  rw [if_pos h]; rfl

/-- The state in which recipient 0 has become SILENT. -/
def firstSilent : State := bothRunning.onDev fun d => silentExpiry d 0

theorem reporters_firstSilent : reportersByte bothRunning.dev 1 = some 1 ∧ reportersByte firstSilent.dev 1 = some 0 := by decide +kernel

theorem byte_firstSilent : (syncRecords bothRunning.dev firstSilent).byte reportersAddr = 0 := by
  obtain ⟨hbefore, hafter⟩ := reporters_firstSilent
  have hrecords : recordsOf bothRunning.dev firstSilent.dev = [0, 1] := by decide +kernel
  exact byte_syncRecords_reporters hrecords (by decide +kernel) hbefore hafter

/-- Refutes O27, by the frame of SILENT: as entry 0 becomes SILENT for stream 0 its second listing goes, and the record of stream 1, which
counted it, is brought up to date. -/
theorem not_mouthTimersExpire : ¬ Obligations.MouthTimersExpire := by
  intro h
  obtain ⟨-, hsilent, -⟩ := h bothRunning working_bothRunning
  obtain ⟨t, hexec, -, -, -, -, -, hrecord⟩ := hsilent 0 (by decide +kernel) (by decide +kernel) (by decide +kernel)
  have ht : t = syncRecords bothRunning.dev firstSilent :=
    (Host.Outcome.next.inj ((exec_silent_working working_bothRunning 0).symm.trans hexec)).symm
  have hkept : t.byte reportersAddr = 1 :=
    (hrecord.2.2.2 _ (stream_bothRunning ▸ not_inRecord_reportersAddr)).trans byte_bothRunning
  rw [ht, byte_firstSilent] at hkept
  exact absurd hkept (by decide)

end Sys2Proof.Machine

/-! SUPPORT. The PTP client: what a Sync with a measured offset moves (R304, R305). -/

namespace Sys2Proof.Machine

/-! ### Nothing but the client's state and its two registers -/

/-- Beside outputs and events, at most the PTP client and its registers for the offset and the grandmaster move. -/
def onlyPtp (d e : Dev) : Prop :=
  e.core = { d.core with ptp := e.ptp } ∧ ∀ a, ¬ eventPage a → a ≠ rPtpOffset → a ≠ rPtpGm → reg e a = reg d a

theorem onlyPtp_trans {a b c : Dev} (h : onlyPtp a b) (k : onlyPtp b c) : onlyPtp a c := by
  obtain ⟨hcore, hregs⟩ := h
  obtain ⟨kcore, kregs⟩ := k
  exact ⟨by rw [kcore, hcore], fun x he ho hg => (kregs x he ho hg).trans (hregs x he ho hg)⟩

theorem onlyPtp_of_core {d e : Dev} (hcore : e.core = d.core) (hregs : ∀ a, ¬ eventPage a → reg e a = reg d a) : onlyPtp d e :=
  ⟨by rw [hcore, Dev.ptp_of_core hcore]; rfl, fun a he _ _ => hregs a he⟩

theorem onlyPtp_withPtp (d : Dev) (x : Ptp) : onlyPtp d { d with ptp := x } := ⟨rfl, fun _ _ _ _ => rfl⟩

theorem onlyPtp_raise (d : Dev) (s c x y : Nat) : onlyPtp d (raise d s c x y) :=
  onlyPtp_of_core (core_raise ..) fun _ he => reg_raise _ _ _ _ _ he

theorem onlyPtp_edge (d : Dev) (s : Nat) (b : Bool) (x y : Nat) : onlyPtp d (edge d s b x y) :=
  onlyPtp_of_core (core_edge ..) fun _ he => reg_edge _ _ _ _ _ he

theorem onlyPtp_emit (d : Dev) (o : Out) : onlyPtp d (emit d o) := onlyPtp_of_core (core_emit ..) fun _ _ => reg_emit ..

theorem onlyPtp_setReg_offset (d : Dev) (v : Word) : onlyPtp d (setReg d rPtpOffset v) := ⟨rfl, fun _ _ ho _ => reg_setReg_other d v ho⟩

theorem onlyPtp_setReg_gm (d : Dev) (v : Word) : onlyPtp d (setReg d rPtpGm v) := ⟨rfl, fun _ _ _ hg => reg_setReg_other d v hg⟩

theorem now_of_onlyPtp {d e : Dev} (h : onlyPtp d e) : e.now = d.now := (congrArg Dev.now h.1 :)
theorem fleet_of_onlyPtp {d e : Dev} (h : onlyPtp d e) : e.fleet = d.fleet := (congrArg Dev.fleet h.1 :)
theorem streams_of_onlyPtp {d e : Dev} (h : onlyPtp d e) : e.streams = d.streams := (congrArg Dev.streams h.1 :)

/-! ### Lock and grandmaster -/

theorem onlyPtp_setPtpLock (d : Dev) (l : Bool) : onlyPtp d (setPtpLock d l) := onlyPtp_trans (onlyPtp_withPtp d _) (onlyPtp_edge ..)

theorem reg_setPtpLock (d : Dev) (l : Bool) {a : Nat} (ha : ¬ eventPage a) : reg (setPtpLock d l) a = reg d a := reg_edge _ _ _ _ _ ha

/-- A change of the lock moves the lock and the time of the next pulse. -/
theorem ptp_setPtpLock (d : Dev) (l : Bool) : ∃ next, (setPtpLock d l).ptp = { d.ptp with locked := l, ppsNext := next } :=
  ⟨_, Dev.ptp_of_core (core_edge ..)⟩

theorem onlyPtp_setGm (d : Dev) (gm : Nat) : onlyPtp d (setGm d gm) := by
  unfold setGm
  dsimp only
  split
  · exact onlyPtp_withPtp d _
  · exact onlyPtp_trans (onlyPtp_withPtp d _) (onlyPtp_trans (onlyPtp_setReg_gm ..) (onlyPtp_raise ..))

theorem ptp_setGm (d : Dev) (gm : Nat) : (setGm d gm).ptp = { d.ptp with lastAt := d.now, gm := gm } := by
  unfold setGm
  dsimp only
  split
  · next h => rw [← h]
  · rw [Dev.ptp_of_core (core_raise ..), setReg_ptp]

/-! ### The servo -/

/-- A far offset is counted, and ends the lock. -/
def farCounted (d : Dev) : Dev := setPtpLock { d with ptp := { d.ptp with good := 0, bad := d.ptp.bad + 1 } } false

/-- PTP time steps by the offset. -/
def timeStepped (d : Dev) (offset : Int) : Dev :=
  raise { d with ptp := { d.ptp with bad := 0, offset := d.ptp.offset - offset } } 1170 3

/-- A near offset is counted, and PTP time is slewed. -/
def nearCounted (d : Dev) (offset slew : Int) : Dev :=
  { d with ptp := { d.ptp with
    bad := 0, good := if offset.natAbs ≤ 500 then min 16 (d.ptp.good + 1) else 0, offset := d.ptp.offset - slew } }

/-- What the client makes of a measured offset, once the register holds it. -/
def ptpServo (d : Dev) (offset slew : Int) : Dev :=
  if 10000 < offset.natAbs then if 8 ≤ (farCounted d).ptp.bad then timeStepped (farCounted d) offset else farCounted d
  else if (nearCounted d offset slew).ptp.good = 16 ∧ !d.ptp.locked then setPtpLock (nearCounted d offset slew) true
  else nearCounted d offset slew

theorem ptpSync_eq (d : Dev) (offset : Int) (gm : Nat) :
    ptpSync d offset gm =
      ptpServo (setReg (setGm d gm) rPtpOffset (word (signedBits 64 offset))) offset
        (max (-(slewLimit d : Int)) (min (slewLimit d : Int) offset)) := rfl

/-- The fields of the client that the servo leaves alone. -/
def sameMaster (x y : Ptp) : Prop := y.gm = x.gm ∧ y.lastAt = x.lastAt ∧ y.requests = x.requests

theorem farCounted_effect (d : Dev) :
    onlyPtp d (farCounted d) ∧ (∀ a, ¬ eventPage a → reg (farCounted d) a = reg d a) ∧ sameMaster d.ptp (farCounted d).ptp ∧
      (farCounted d).ptp.locked = false := by
  obtain ⟨next, hptp⟩ := ptp_setPtpLock { d with ptp := { d.ptp with good := 0, bad := d.ptp.bad + 1 } } false
  refine ⟨onlyPtp_trans (onlyPtp_withPtp d _) (onlyPtp_setPtpLock ..), fun a ha => reg_setPtpLock _ _ ha, ?_⟩
  rw [farCounted, hptp]
  exact ⟨⟨rfl, rfl, rfl⟩, rfl⟩

theorem ptp_timeStepped (d : Dev) (offset : Int) :
    (timeStepped d offset).ptp = { d.ptp with bad := 0, offset := d.ptp.offset - offset } := Dev.ptp_of_core (core_raise ..)

theorem onlyPtp_timeStepped (d : Dev) (offset : Int) : onlyPtp d (timeStepped d offset) :=
  onlyPtp_trans (onlyPtp_withPtp d _) (onlyPtp_raise ..)

/-- A far offset ends the lock. -/
theorem ptpServo_far {d : Dev} {offset : Int} (slew : Int) (h : 10000 < offset.natAbs) :
    onlyPtp d (ptpServo d offset slew) ∧ (∀ a, ¬ eventPage a → reg (ptpServo d offset slew) a = reg d a) ∧
      sameMaster d.ptp (ptpServo d offset slew).ptp ∧ (ptpServo d offset slew).ptp.locked = false := by
  obtain ⟨honly, hregs, hmaster, hlock⟩ := farCounted_effect d
  unfold ptpServo
  rw [if_pos h]
  split
  · rw [ptp_timeStepped]
    exact ⟨onlyPtp_trans honly (onlyPtp_timeStepped ..), fun a ha => (reg_raise _ _ _ _ _ ha).trans (hregs a ha), hmaster, hlock⟩
  · exact ⟨honly, hregs, hmaster, hlock⟩

/-- A near offset keeps the lock, and the sixteenth small one in a row gives it. -/
theorem ptpServo_near {d : Dev} {offset : Int} (slew : Int) (h : ¬ 10000 < offset.natAbs) :
    onlyPtp d (ptpServo d offset slew) ∧ (∀ a, ¬ eventPage a → reg (ptpServo d offset slew) a = reg d a) ∧
      sameMaster d.ptp (ptpServo d offset slew).ptp ∧
      (offset.natAbs ≤ 500 → 15 ≤ d.ptp.good → (ptpServo d offset slew).ptp.locked = true) := by
  have honly : onlyPtp d (nearCounted d offset slew) := onlyPtp_withPtp d _
  unfold ptpServo
  rw [if_neg h]
  split
  · obtain ⟨next, hptp⟩ := ptp_setPtpLock (nearCounted d offset slew) true
    rw [hptp]
    exact ⟨onlyPtp_trans honly (onlyPtp_setPtpLock ..), fun a ha => reg_setPtpLock _ _ ha, ⟨rfl, rfl, rfl⟩, fun _ _ => rfl⟩
  · next hnot =>
    refine ⟨honly, fun _ _ => rfl, ⟨rfl, rfl, rfl⟩, fun hsmall hgood => ?_⟩
    have hsixteen : (nearCounted d offset slew).ptp.good = 16 := by
      show (if offset.natAbs ≤ 500 then min 16 (d.ptp.good + 1) else 0) = 16
      rw [if_pos hsmall]
      omega
    show d.ptp.locked = true
    simpa [hsixteen] using hnot

/-- What a Sync with a measured offset moves. -/
theorem ptpSync_effect (d : Dev) (offset : Int) (gm : Nat) :
    let u := ptpSync d offset gm
    onlyPtp d u ∧ reg u rPtpOffset = word (signedBits 64 offset) ∧ u.ptp.gm = gm ∧ u.ptp.lastAt = d.now ∧
      u.ptp.requests = d.ptp.requests ∧ (offset.natAbs ≤ 500 → 15 ≤ d.ptp.good → u.ptp.locked = true) ∧
      (10000 < offset.natAbs → u.ptp.locked = false) := by
  intro u
  let e := setReg (setGm d gm) rPtpOffset (word (signedBits 64 offset))
  have hu : u = ptpServo e offset _ := ptpSync_eq d offset gm
  have hbefore : onlyPtp d e := onlyPtp_trans (onlyPtp_setGm d gm) (onlyPtp_setReg_offset ..)
  have hptp : e.ptp = { d.ptp with lastAt := d.now, gm := gm } := ptp_setGm d gm
  have hreg : reg e rPtpOffset = word (signedBits 64 offset) := reg_setReg_same ..
  have hpage : ¬ eventPage rPtpOffset := by unfold eventPage rPtpOffset; omega
  by_cases hfar : 10000 < offset.natAbs
  · obtain ⟨honly, hregs, ⟨hgm, hlast, hreqs⟩, hlock⟩ := ptpServo_far (d := e) _ hfar
    rw [← hu] at honly hregs hgm hlast hreqs hlock
    rw [hptp] at hgm hlast hreqs
    exact ⟨onlyPtp_trans hbefore honly, (hregs _ hpage).trans hreg, hgm, hlast, hreqs, fun h => by omega, fun _ => hlock⟩
  · obtain ⟨honly, hregs, ⟨hgm, hlast, hreqs⟩, hlock⟩ := ptpServo_near (d := e) _ hfar
    rw [← hu] at honly hregs hgm hlast hreqs hlock
    rw [hptp] at hgm hlast hreqs hlock
    exact ⟨onlyPtp_trans hbefore honly, (hregs _ hpage).trans hreg, hgm, hlast, hreqs, hlock, fun h => absurd h hfar⟩

/-! ### A one-step Sync of the master that the client follows -/

/-- The client has judged the offset, as `u`, and sends a Delay_Req with the next sequence number. -/
def syncRecorded (d u : Dev) (port : Nat) (udp : Bool) (t1 : Int) : Dev :=
  let seq := d.ptp.requests % 65536
  emit { u with ptp := { u.ptp with
    t1 := t1, t2 := clientTime d + (u.ptp.offset - d.ptp.offset), slewAt := d.now, request := some (seq, clientTime u)
    requests := seq + 1 } } (.ptp port udp (delayRequest u seq))

/-- Once the path delay is known the offset is the time of arrival less the time of sending and the delay. -/
theorem syncTimes_of_path {d : Dev} {delay : Int} (port gm : Nat) (udp : Bool) (t1 : Int) (h : d.ptp.path = some delay) :
    syncTimes d port gm udp t1 (clientTime d) = syncRecorded d (ptpSync d (clientTime d - t1 - delay) gm) port udp t1 := by
  obtain ⟨honly, -, -, -, hrequests, -⟩ := ptpSync_effect d (clientTime d - t1 - delay) gm
  unfold syncTimes syncRecorded
  dsimp only
  rw [h]
  dsimp only
  rw [hrequests, now_of_onlyPtp honly]

/-- A one-step Sync in the client's domain, on the port on which it hears, from the best of the masters heard. -/
theorem ptpMessage_sync {d : Dev} {port : Nat} {m : List Byte} {best : PtpMaster} (udp : Bool)
    (hdomain : netNum m 4 1 = regFld d rMouthCtrl 39 32) (hversion : netNum m 1 1 % 16 = 2) (hlen : 44 ≤ m.length)
    (htype : ptpType m = 0) (hone : bit (word (netNum m 6 1)) 1 = false) (hheard : d.ptp.heardOn = port)
    (hbest : bestMaster d.ptp.masters = some best) (hfrom : ptpFrom m = best.port) :
    ptpMessage d port udp m = syncTimes d port best.gm udp (ptpStamp m + ptpCorrection m) (clientTime d) := by
  have hused : ¬ (netNum m 4 1 ≠ regFld d rMouthCtrl 39 32 ∨ netNum m 1 1 % 16 ≠ 2 ∨ m.length < 44) := by
    rintro (h | h | h)
    · exact h hdomain
    · exact h hversion
    · omega
  unfold ptpMessage
  rw [hearOn, if_pos hheard]
  dsimp only
  rw [if_neg hused, if_neg (by rw [htype]; decide), hbest]
  dsimp only
  rw [if_pos hfrom, masterMessage, if_pos htype, if_neg (by rw [hone]; exact Bool.false_ne_true)]

/-- What the Sync leaves, of whatever offset: beside the client nothing moves. -/
theorem syncRecorded_effect (d : Dev) (offset : Int) (gm port : Nat) (udp : Bool) (t1 : Int) :
    let e := syncRecorded d (ptpSync d offset gm) port udp t1
    onlyPtp d e ∧ reg e rPtpOffset = word (signedBits 64 offset) ∧ e.ptp.gm = gm ∧ e.ptp.lastAt = d.now ∧
      (offset.natAbs ≤ 500 → 15 ≤ d.ptp.good → e.ptp.locked = true) ∧ (10000 < offset.natAbs → e.ptp.locked = false) := by
  obtain ⟨honly, hreg, hgm, hlast, -, hnear, hfar⟩ := ptpSync_effect d offset gm
  exact ⟨onlyPtp_trans honly (onlyPtp_trans (onlyPtp_withPtp _ _) (onlyPtp_emit ..)), hreg, hgm, hlast, hnear, hfar⟩

end Sys2Proof.Machine

/-! SUPPORT. The landing of an armed activation: what it sets and what it leaves (R522, R526 to R528). -/

namespace Sys2Proof.Machine

/-! ### The parts of a landing -/

/-- The registers that a landing writes: the status, the time, the digest and the pacing words. -/
def fleetRegs : List Nat := rFleetStatus :: rFleetActTime :: (List.range 4).map rFleetDigest ++ pacingAddrs

/-- The device as a landing begins: nothing is staged or armed, and the pacing words are in force. -/
def landBegun (d : Dev) (q : Profile) : Dev :=
  let cur := regFld d rFleetStatus 2 0
  let d := { d with fleet := { d.fleet with
    staged := none, armed := none, waiting := false, prevSet := if q.tableSet = cur then d.fleet.prevSet else cur } }
  if q.pacingEn then each (pacingAddrs.zip q.pacing) d fun d x => setReg d x.1 x.2 else d

/-- A stream that is not FREE notes the number from which on the new table set applies. -/
def switchNoted (d : Dev) (e : Nat × Stream) : Dev :=
  if e.2.phase == .free then d else d.onStream e.1 fun st => { st with switchSeq := lowestWaiting st }

/-- The device with EPOCH, the table set and the time of the landing in their registers. -/
def landWords (d : Dev) (q : Profile) : Dev :=
  setReg (setReg (landBegun d q) rFleetStatus (word (q.epoch * 2 ^ 48 + q.tableSet))) rFleetActTime
    (word (fleetTime d % 2 ^ 63 + (!d.ptp.locked).toNat * 2 ^ 63))

theorem land_eq (d : Dev) (q : Profile) :
    land d q = raise (publish (each (landWords d q).streams (landWords d q) switchNoted)) 1238 1 0 q.epoch := rfl

/-- A property of devices that every step of a landing keeps. -/
structure KeptByLanding (P : Dev → Prop) : Prop where
  fleet : ∀ {d : Dev} (x : Fleet), P d → P { d with fleet := x }
  setReg : ∀ {d : Dev} {a : Nat} (v : Word), a ∈ fleetRegs → P d → P (setReg d a v)
  onStream : ∀ {d : Dev} (n : Nat) (f : Stream → Stream), P d → P (d.onStream n f)
  raise : ∀ {d : Dev} (s c x y : Nat), P d → P (raise d s c x y)

namespace KeptByLanding

variable {P : Dev → Prop} (hP : KeptByLanding P) {d : Dev}
include hP

theorem publish (h : P d) : P (Machine.publish d) := by
  unfold Machine.publish
  refine each_keeps_mem (P := P) _ _ (fun _ k hk h => hP.setReg _ ?_ h) _ (hP.fleet _ h)
  exact List.mem_append_left _ (List.mem_cons_of_mem _ (List.mem_cons_of_mem _ (List.mem_map_of_mem hk)))

theorem landBegun (q : Profile) (h : P d) : P (Machine.landBegun d q) := by
  unfold Machine.landBegun
  dsimp only
  split
  · exact each_keeps_mem (P := P) _ _
      (fun _ _ hx h => hP.setReg _ (List.mem_append_right _ (List.of_mem_zip hx).1) h) _ (hP.fleet _ h)
  · exact hP.fleet _ h

theorem switchNoted (e : Nat × Stream) (h : P d) : P (Machine.switchNoted d e) := by
  unfold Machine.switchNoted
  split
  · exact h
  · exact hP.onStream _ _ h

theorem land (q : Profile) (h : P d) : P (Machine.land d q) := by
  have hwords : P (landWords d q) := hP.setReg _ (by simp [fleetRegs]) (hP.setReg _ (by simp [fleetRegs]) (hP.landBegun q h))
  rw [land_eq]
  exact hP.raise _ _ _ _ (hP.publish (each_keeps (P := P) _ (fun _ e he => hP.switchNoted e he) _ _ hwords))

theorem landIfDue (h : P d) : P (Machine.landIfDue d) := by
  unfold Machine.landIfDue
  split
  · split
    · exact h
    · split
      · exact hP.setReg _ (by simp [fleetRegs]) (hP.fleet _ h)
      · exact hP.land _ h
  · exact h

end KeptByLanding

theorem keptByLanding_ptp (x : Ptp) : KeptByLanding fun d => d.ptp = x where
  fleet _ h := h
  setReg _ _ h := h
  onStream _ _ h := h
  raise _ _ _ _ h := (Dev.ptp_of_core (core_raise ..)).trans h

/-- A register that a landing does not write. -/
theorem keptByLanding_reg {a : Nat} (v : Word) (hpage : ¬ eventPage a) (ha : a ∉ fleetRegs) : KeptByLanding fun d => reg d a = v where
  fleet _ h := h
  setReg w hb h := (reg_setReg_other _ w (ne_of_mem_of_not_mem hb ha).symm).trans h
  onStream _ _ h := h
  raise _ _ _ _ h := (reg_raise _ _ _ _ _ hpage).trans h

theorem ptp_landIfDue (d : Dev) : (landIfDue d).ptp = d.ptp := (keptByLanding_ptp d.ptp).landIfDue rfl

theorem reg_landIfDue {d : Dev} {a : Nat} (hpage : ¬ eventPage a) (ha : a ∉ fleetRegs) : reg (landIfDue d) a = reg d a :=
  (keptByLanding_reg (reg d a) hpage ha).landIfDue rfl

/-! ### An activation that has landed (R526) -/

/-- No activation is armed, and the status holds this word. -/
def landed (v : Word) (d : Dev) : Prop := d.fleet.armed = none ∧ reg d rFleetStatus = v

theorem landed_setReg {v : Word} {d : Dev} {a : Nat} (w : Word) (ha : rFleetStatus ≠ a) (h : landed v d) : landed v (setReg d a w) :=
  ⟨h.1, (reg_setReg_other d w ha).trans h.2⟩

theorem landed_switchNoted {v : Word} {d : Dev} (e : Nat × Stream) (h : landed v d) : landed v (switchNoted d e) := by
  unfold switchNoted
  split <;> exact h

theorem landed_raise {v : Word} {d : Dev} (s c x y : Nat) (h : landed v d) : landed v (raise d s c x y) :=
  ⟨(congrArg Fleet.armed (Dev.fleet_of_core (core_raise ..))).trans h.1,
    (reg_raise _ _ _ _ _ (by unfold eventPage rFleetStatus; omega)).trans h.2⟩

theorem landed_publish {v : Word} {d : Dev} (h : landed v d) : landed v (publish d) := by
  unfold publish
  exact each_keeps (P := landed v) _ (fun _ k h => landed_setReg _ (by unfold rFleetStatus rFleetDigest; omega) h) _ _ h

theorem armed_landBegun (d : Dev) (q : Profile) : (landBegun d q).fleet.armed = none := by
  unfold landBegun
  dsimp only
  split
  · exact each_keeps (P := fun e : Dev => e.fleet.armed = none) (fun e (x : Nat × Word) => setReg e x.1 x.2) (fun _ _ h => h) _ _ rfl
  · rfl

/-- What lands is armed no longer, and its epoch and table set are in force. -/
theorem landed_land (d : Dev) (q : Profile) : landed (word (q.epoch * 2 ^ 48 + q.tableSet)) (land d q) := by
  have hwords : landed (word (q.epoch * 2 ^ 48 + q.tableSet)) (landWords d q) := by
    rw [landWords]
    refine landed_setReg _ (by decide) ⟨?_, reg_setReg_same ..⟩
    rw [setReg_fleet, armed_landBegun]
  rw [land_eq]
  exact landed_raise _ _ _ _ (landed_publish (each_keeps (P := landed _) _ (fun _ e he => landed_switchNoted e he) _ _ hwords))

/-- Nothing lands while nothing is armed. -/
theorem landIfDue_unarmed {d : Dev} (h : d.fleet.armed = none) : landIfDue d = d := by
  unfold landIfDue
  rw [h]

/-- What is armed lands once its time has come, if no older table set is needed. -/
theorem landIfDue_due {d : Dev} {time : Nat} {q : Profile} (harmed : d.fleet.armed = some time) (hstaged : d.fleet.staged = some q)
    (htime : time ≤ fleetTime d) (hset : setNeeded d q.tableSet = false) : landIfDue d = land d q := by
  unfold landIfDue
  rw [harmed, hstaged]
  dsimp only
  rw [if_neg (Nat.not_lt.mpr htime), if_neg (by rw [hset]; exact Bool.false_ne_true)]

/-- Whether an older table set is needed does not rest on the client. -/
theorem setNeeded_of_onlyPtp {d e : Dev} (h : onlyPtp d e) (k : Nat) : setNeeded e k = setNeeded d k := by
  have hstatus : reg e rFleetStatus = reg d rFleetStatus := h.2 _ (by unfold eventPage rFleetStatus; omega) (by decide) (by decide)
  unfold setNeeded regFld
  rw [hstatus, fleet_of_onlyPtp h, streams_of_onlyPtp h]

end Sys2Proof.Machine

/-! SUPPORT. Uplink packets: their bytes move decode contexts, registers and device memory, and no key (R303). -/

namespace Sys2Proof.Machine

theorem keys_storeAs (s : State) (m a : Nat) (bs : List Byte) (n : Option Nat) : (storeAs s m a bs n).1.dev.keys = s.dev.keys :=
  Dev.keys_of_core (core_storeAs ..)

theorem keys_storeRing (s : State) (m base size off : Nat) (bs : List Byte) : (storeRing s m base size off bs).dev.keys = s.dev.keys := by
  unfold storeRing
  dsimp only
  split
  · rw [keys_storeAs]
  · rw [keys_storeAs, keys_storeAs]

theorem keys_auAppend (s : State) (m c : Nat) (bs : List Byte) : (auAppend s m c bs).dev.keys = s.dev.keys := by
  unfold auAppend
  dsimp only
  split
  · rfl
  · rw [keys_storeRing]; rfl

theorem keys_auComplete (s : State) (m c : Nat) (net : Bool) (pts : Nat) : (auComplete s m c net pts).dev.keys = s.dev.keys := by
  unfold auComplete
  dsimp only
  split
  · rfl
  · rw [State.onDev_dev, Dev.keys_of_core (core_pauseUpdate ..)]
    split
    · rw [State.onDev_dev]
      split
      · rw [Dev.keys_of_core (core_raise ..)]; rfl
      · rfl
    · rw [keys_storeRing, State.onDev_dev]
      split
      · rw [Dev.keys_of_core (core_raise ..)]; rfl
      · rfl

theorem keys_onBinding (s : State) (c : Nat) (f : Dev → Binding → Binding) :
    (s.onDev fun d => onBinding d c (f d)).dev.keys = s.dev.keys := rfl

theorem keys_deliver (s : State) (c : Nat) (marker : Bool) (ts : Nat) (payload : List Byte) :
    (deliver s c marker ts payload).dev.keys = s.dev.keys := by
  have hbefore : ∀ (k : Bool) (cur : Nat), (if k then auComplete s 0xF9 c true cur else s).dev.keys = s.dev.keys := fun k cur => by
    cases k
    · rfl
    · exact keys_auComplete ..
  unfold deliver
  dsimp only
  split
  · rw [keys_auComplete, keys_onBinding, keys_auAppend, hbefore]
  · rw [keys_onBinding, keys_auAppend, hbefore]

theorem keys_deliverNext (fuel : Nat) (s : State) (c : Nat) : (deliverNext fuel s c).dev.keys = s.dev.keys := by
  induction fuel generalizing s with
  | zero => rfl
  | succ k ih =>
    unfold deliverNext
    split
    · rfl
    · split
      · rfl
      · dsimp only
        rw [ih, keys_deliver, keys_onBinding]

theorem keys_closeWindow (s : State) (c : Nat) : (closeWindow s c).dev.keys = s.dev.keys := by
  unfold closeWindow
  split
  · rfl
  · dsimp only
    split
    · rfl
    · rw [keys_deliverNext, keys_onBinding]
      split
      · rw [keys_auComplete]; rfl
      · rfl

/-- A packet that enters the window of a binding moves no key. -/
theorem keys_acceptRtp (s : State) (c : Nat) (b : Binding) (seq ts : Nat) (marker : Bool) (payload : List Byte) :
    (acceptRtp s c b seq ts marker payload).dev.keys = s.dev.keys := by
  unfold acceptRtp
  dsimp only
  split
  · rfl
  · split
    · rw [keys_closeWindow, keys_deliverNext, keys_onBinding]
    · rw [keys_deliverNext, keys_onBinding]

/-- The key has accepted the packet with this index. -/
def acceptedIndex (index : Nat) (k : Key) : Key := { k with index := if k.accepted then max k.index index else index, accepted := true }

/-- An uplink packet that its binding admits, whose key opens it, in an accepted format. -/
theorem uplink_accepted {s : State} {c : Nat} {b : Binding} {bs payload : List Byte} (hbinding : (s.dev.ctx c).binding = some b)
    (hphase : (s.dev.ctx c).phase = .running) (hrtp : rtpSupported bs = true) (hpt : netNum bs 1 1 % 128 = b.pt)
    (hssrc : netNum bs 8 4 = b.ssrc)
    (hopen : openWith s.dev b.keySlot 2 (fun m => srtpOpen m b.ssrc (indexNear (s.dev.key b.keySlot) (netNum bs 2 2))
      (bs.take (rtpHeaderLength bs)) (bs.drop (rtpHeaderLength bs))) = some payload)
    (hformat : formatOk (s.dev.ctx c).codec payload = true) :
    uplink s c bs =
      acceptRtp (s.onDev fun d => d.onKey b.keySlot (acceptedIndex (indexNear (s.dev.key b.keySlot) (netNum bs 2 2)))) c b
        (netNum bs 2 2) (netNum bs 4 4) (128 ≤ netNum bs 1 1) payload := by
  unfold uplink
  dsimp only
  rw [hbinding]
  dsimp only
  rw [if_neg (by simp [hphase, hrtp, hpt, hssrc]), hssrc, hopen]
  dsimp only
  rw [if_pos hformat]
  rfl

end Sys2Proof.Machine

/-! SUPPORT. What a received frame does by its class: bad, PAUSE, PTP, feedback and uplink (R300 to R304, R307, R325). -/

namespace Sys2Proof.Machine

/-! ### Beside the device, the records of streams -/

theorem onlyRecords_syncRecords (old : Dev) (s : State) : onlyRecords s (syncRecords old s) := by
  have hstore : ∀ t n a bs, onlyRecords s t → onlyRecords s (storeBoth t n a bs) := fun t n a bs ht =>
    onlyBytes_trans ht (onlyBytes_trans (onlyBytes_store_up _ _ _ (by omega)) (onlyBytes_store_up _ _ _ (by omega)))
  obtain ⟨-, hgen, -, hbyte⟩ : onlyRecords s (each (recordsOf old s.dev) s (syncRecord old)) :=
    each_keeps (P := onlyRecords s) _ (fun t n ht => syncRecord_keeps hstore old t n ht) _ _ (onlyBytes_refl ..)
  refine ⟨rfl, rfl, rfl, fun a ha => ?_⟩
  have ht := hbyte a ha
  unfold State.byte at ht ⊢
  rwa [hgen] at ht

theorem alive_of_working {d : Dev} (h : working d = true) : alive d = true := by
  unfold working at h
  exact (Bool.and_eq_true_iff.mp h).1

theorem stopped_of_working {d : Dev} (h : working d = true) : stopped d = false := by
  unfold working at h
  simpa using (Bool.and_eq_true_iff.mp h).2

/-- FRAME_RECEIVE is what the port makes of the frame, with the records of streams that it moves on. -/
theorem exec_frameReceive_alive {s t : State} {p : Fin 2} {frame : List Byte} (halive : alive s.dev = true)
    (hreceive : receive s p.val frame = t) : exec (.frameReceive p frame) s = .next (syncRecords s.dev t) := by
  show ok (if alive s.dev then keepRecords (fun s => receive s p.val frame) s else s) = _
  rw [if_pos halive, ok_eq, keepRecords, hreceive]

/-- Where the port moves the device alone, at most the records of streams move beside it. -/
theorem onlyRecords_received (s : State) (f : Dev → Dev) : onlyRecords s (syncRecords s.dev (s.onDev f)) :=
  onlyBytes_trans (onlyBytes_onDev _ _ s f) (onlyRecords_syncRecords ..)

/-! ### The classes (R300) -/

section Classes

variable {s : State} {p : Nat} {frame : List Byte} (hup : (s.dev.port p).up = true)
include hup

theorem receive_bad {fec : Bool} (h : parseFrame frame = .bad fec) : receive s p frame = s.onDev fun d => badFrame d p fec := by
  unfold receive
  rw [if_neg (by rw [hup]; decide), h]

theorem receive_pause (h : parseFrame frame = .pause) :
    receive s p frame = s.onDev fun d => d.onPort p fun q => { q with pauseFrames := q.pauseFrames + 1 } := by
  unfold receive
  rw [if_neg (by rw [hup]; decide), h]

/-- A PTP message over Ethernet on the PTP port. -/
theorem receive_ptp {m : List Byte} (h : parseFrame frame = .ptp m) (hport : regFld s.dev rPtpStatus 62 62 = p) :
    receive s p frame = s.onDev fun d => landIfDue (ptpMessage d p false m) := by
  unfold receive
  rw [if_neg (by rw [hup]; decide), h]
  dsimp only
  rw [if_pos (by rw [hport, beq_self_eq_true])]

/-- A PTP message over UDP on the PTP port. -/
theorem receive_ptp_udp {g : Datagram} (h : parseFrame frame = .datagram g) (hport : regFld s.dev rPtpStatus 62 62 = p)
    (hudp : g.dstUdp = 319 ∨ g.dstUdp = 320) : receive s p frame = s.onDev fun d => landIfDue (ptpMessage d p true g.payload) := by
  unfold receive
  rw [if_neg (by rw [hup]; decide), h]
  dsimp only
  rw [if_pos (by simpa [hport] using hudp)]

/-- Any other datagram, on a device that is not stopped. -/
theorem receive_datagram {g : Datagram} (h : parseFrame frame = .datagram g) (hstop : stopped s.dev = false)
    (hnot : ¬ (regFld s.dev rPtpStatus 62 62 = p ∧ (g.dstUdp = 319 ∨ g.dstUdp = 320))) :
    receive s p frame = receiveDatagram s p g (frameBody frame) := by
  unfold receive
  rw [if_neg (by rw [hup]; decide), h]
  dsimp only
  rw [if_neg (by simpa using hnot), if_neg (by rw [hstop]; decide)]

end Classes

/-- A PTP message on the PTP port, over UDP or over Ethernet: the client takes it, and what is armed may land. -/
theorem ptpFrame_effect {s : State} {p : Fin 2} {frame m : List Byte} {udp : Bool} (halive : alive s.dev = true)
    (hup : (s.dev.port p.val).up = true) (hport : regFld s.dev rPtpStatus 62 62 = p.val)
    (hframe : if udp then ∃ g, parseFrame frame = .datagram g ∧
        (regFld s.dev rPtpStatus 62 62 = p.val ∧ (g.dstUdp = 319 ∨ g.dstUdp = 320)) ∧ g.payload = m
      else parseFrame frame = .ptp m) :
    ∃ t, exec (.frameReceive p frame) s = .next t ∧ t.dev = landIfDue (ptpMessage s.dev p.val udp m) ∧ onlyRecords s t := by
  have hreceive : receive s p.val frame = s.onDev fun d => landIfDue (ptpMessage d p.val udp m) := by
    cases udp with
    | true =>
      obtain ⟨g, hparse, ⟨-, hudp⟩, rfl⟩ := hframe
      exact receive_ptp_udp hup hparse hport hudp
    | false => exact receive_ptp hup hframe hport
  exact ⟨_, exec_frameReceive_alive halive hreceive, rfl, onlyRecords_received ..⟩

/-! ### Ports (R300, R307, R311) -/

theorem port_onPort_same (d : Dev) (p : Nat) (f : Port → Port) : (d.onPort p f).port p = f (d.port p) := by
  by_cases h : p = 0
  · simp [Dev.onPort, Dev.setPort, Dev.port, Dev.onMouth, h]
  · simp [Dev.onPort, Dev.setPort, Dev.port, Dev.onMouth, h]

theorem Dev.port_of_core {d d' : Dev} (h : d'.core = d.core) (p : Nat) : d'.port p = d.port p := by
  rw [Dev.port, Dev.port, Dev.mouth_of_core h]

/-- A bad frame is counted; an uncorrectable codeword raises its event too. -/
theorem badFrame_cases (d : Dev) (p : Nat) (fec : Bool) :
    badFrame d p fec = d.onPort p (fun q => { q with badFrames := q.badFrames + 1 }) ∨
      badFrame d p fec = raiseLim (d.onPort p fun q => { q with badFrames := q.badFrames + 1 }) 1000000 (1104 + 16 * p + 1) 1 := by
  cases fec
  · exact .inl rfl
  · exact .inr rfl

theorem badFrame_effect (d : Dev) (p : Nat) (fec : Bool) :
    ((badFrame d p fec).port p).badFrames = (d.port p).badFrames + 1 ∧ (badFrame d p fec).streams = d.streams ∧
      (badFrame d p fec).recips = d.recips ∧ ∀ a, ¬ eventPage a → reg (badFrame d p fec) a = reg d a := by
  have hport := congrArg Port.badFrames (port_onPort_same d p fun q => { q with badFrames := q.badFrames + 1 })
  rcases badFrame_cases d p fec with h | h
  · rw [h]
    exact ⟨hport, rfl, rfl, fun _ _ => rfl⟩
  · rw [h, Dev.port_of_core (core_raiseLim ..), Dev.streams_of_core (core_raiseLim ..), Dev.recips_of_core (core_raiseLim ..)]
    exact ⟨hport, rfl, rfl, fun _ ha => reg_raiseLim _ _ _ _ _ _ ha⟩

/-! ### Feedback (R168, R301, R325) -/

theorem recip_onRecip_same (d : Dev) (r : Nat) (f : Recip → Recip) : (d.onRecip r f).recip r = f (d.recip r) := Tab.get_set_same ..

/-- An authenticated packet of a recipient that learns no address, and that holds feedback alone: its items are applied in order. -/
theorem feedback_applied {d : Dev} {n r : Nat} {packet bytes : List Byte} (p : Nat) (src : Source) (hsent : sentBy d n packet = some r)
    (hopen : openFeedback d r packet = some bytes) (hlearn : (d.recip r).learn = false)
    (hfeedback : ((rtcpItems bytes.length bytes).any fun i => i.2 == .other) = false) :
    feedback d p n src packet =
      each (rtcpItems bytes.length bytes) (d.onRecip r fun x => noteRtcp x (srtcpWord packet % 2 ^ 31)) fun d i =>
        applyItem d r i.1 i.2 := by
  have hnot : learnAddr (d.onRecip r fun x => noteRtcp x (srtcpWord packet % 2 ^ 31)) r p src =
      (d.onRecip r fun x => noteRtcp x (srtcpWord packet % 2 ^ 31), false) := by
    have hnoted : ((d.onRecip r fun x => noteRtcp x (srtcpWord packet % 2 ^ 31)).recip r).learn = false := by
      rw [recip_onRecip_same]; exact hlearn
    unfold learnAddr
    dsimp only
    rw [hnoted]
    rfl
  unfold feedback
  rw [hsent]
  dsimp only
  rw [hopen]
  dsimp only
  rw [hnot]
  dsimp only
  rw [if_neg Bool.false_ne_true, hfeedback, Bool.false_and, if_neg Bool.false_ne_true]

theorem receiveDatagram_feedback {s : State} {p n : Nat} {g : Datagram} (body : List Byte)
    (h : feedbackStream s.dev g.dstUdp (rtcpPt g.payload) = some n) :
    receiveDatagram s p g body = s.onDev fun d => feedback d p n g.src g.payload := by
  unfold receiveDatagram
  rw [h]

theorem receiveDatagram_uplink {s : State} {p c : Nat} {g : Datagram} (body : List Byte)
    (h : feedbackStream s.dev g.dstUdp (rtcpPt g.payload) = none) (hctx : boundCtx s.dev p g.dstUdp g.src.ipv6 = some c) :
    receiveDatagram s p g body = uplink s c g.payload := by
  unfold receiveDatagram
  rw [h, hctx]

/-! ### The statement -/

theorem key_onKey_same (d : Dev) (k : Nat) (f : Key → Key) : (d.onKey k f).key k = f (d.key k) := Tab.get_set_same ..

/-- Settles O26, one clause for each class of frame: what the port makes of it, and the effect lemma of that. -/
theorem receivedFramesAct : Obligations.ReceivedFramesAct := by
  intro p frame s hwork hup forPtp
  have halive := alive_of_working hwork
  have hstop := stopped_of_working hwork
  refine ⟨?sync, ?feedback, ?uplink, fun fec hparse => ?bad, fun hparse => ?pause⟩
  case sync =>
    intro udp m best delay d seq t1 offset u hframe hport hdomain hversion hlen htype hone hheard hbest hfrom hpath
    have hmessage := (ptpMessage_sync udp hdomain hversion hlen htype hone hheard hbest hfrom).trans (syncTimes_of_path p.val best.gm udp t1 hpath)
    obtain ⟨t, hexec, hdev, hrecords⟩ := ptpFrame_effect halive hup hport hframe
    obtain ⟨honly, hreg, hgm, hlast, hnear, hfar⟩ := syncRecorded_effect d offset best.gm p.val udp t1
    rw [hmessage] at hdev
    have hptp : t.dev.ptp = (syncRecorded d u p.val udp t1).ptp := by rw [hdev, ptp_landIfDue]
    refine ⟨t, hexec, hdev, ?offset, hptp ▸ hgm, hptp ▸ hlast, hptp ▸ hnear, hptp ▸ hfar, fun harmed => ?unarmed,
      fun time q harmed hstaged htime hset => ?lands, hrecords⟩
    case offset =>
      rw [hdev, reg_landIfDue (by unfold eventPage rPtpOffset; omega) (by decide)]
      exact hreg
    case unarmed =>
      rw [landIfDue_unarmed ((congrArg Fleet.armed (fleet_of_onlyPtp honly)).trans harmed)] at hdev
      rw [hdev]
      refine ⟨honly.1, fun a ha hl => ?_⟩
      rw [hdev]
      obtain ⟨hoffset, hmaster⟩ : a ≠ rPtpOffset ∧ a ≠ rPtpGm := by simpa using hl
      exact honly.2 a ha hoffset hmaster
    case lands =>
      have hfleet := fleet_of_onlyPtp honly
      rw [landIfDue_due ((congrArg Fleet.armed hfleet).trans harmed) ((congrArg Fleet.staged hfleet).trans hstaged) htime
        ((setNeeded_of_onlyPtp honly _).trans hset)] at hdev
      rw [hdev]
      exact landed_land ..
  case feedback =>
    intro g n r bytes items d hparse hnot hstream hsent hopen hlearn hother
    refine ⟨_, exec_frameReceive_alive halive (receive_datagram hup hparse hstop hnot), ?_⟩
    rw [receiveDatagram_feedback _ hstream]
    exact ⟨feedback_applied p.val g.src hsent hopen hlearn hother, onlyRecords_received ..⟩
  case uplink =>
    intro g c b payload bs n x index hparse hnot hstream hbound hbinding hphase hrtp hpt hssrc hopen hformat
    refine ⟨_, _, exec_frameReceive_alive halive (receive_datagram hup hparse hstop hnot), rfl, ?_⟩
    rw [receiveDatagram_uplink _ hstream hbound, uplink_accepted hbinding hphase hrtp hpt hssrc hopen hformat, syncRecords_dev]
    refine ⟨rfl, onlyRecords_syncRecords .., ?_⟩
    rw [Dev.key, keys_acceptRtp, State.onDev_dev, ← Dev.key, key_onKey_same]
    rfl
  case bad =>
    obtain ⟨hcount, hstreams, hrecips, hregs⟩ := badFrame_effect s.dev p.val fec
    exact ⟨_, exec_frameReceive_alive halive (receive_bad hup hparse), hcount, hstreams, hrecips, fun a ha _ => hregs a ha,
      onlyRecords_received ..⟩
  case pause =>
    refine ⟨_, exec_frameReceive_alive halive (receive_pause hup hparse), ?_, rfl, rfl, rfl, onlyRecords_received ..⟩
    exact congrArg Port.pauseFrames (port_onPort_same s.dev p.val _)

end Sys2Proof.Machine

/-! SUPPORT. A verdict whose FAIL makes a source of a Gallery fast and then raises it: the event abandons a routine although no source of a
Gallery was fast before (R95, R205, R286, R467). -/

namespace Sys2Proof.Machine

/-! ### A buffer of a pool that does not exist -/

/-- Pool 32953. Sump has five pools; the status of one of this number would stand where the event system keeps the configuration of
source 773. -/
def strayPool : Nat := 32953

theorem rPoolStatus_strayPool : rPoolStatus strayPool = rSrcCfg 773 := by decide

/-- Band 0 of stream 193, closed on Gallery 0. Event source 773 is source 1 of the stream and source 5 of the Gallery. -/
def strayBand : Band := { seq := 0, frame := 0, b := 0, n := 1, stage := .closed }

/-- Mouth holds that band in a buffer of the pool. -/
def strayStored : Stored :=
  { stream := 193, seq := 0, frame := 0, b := 0, last := false, vein := false, key := false, rep := false, resend := false, len0 := 0, len1 := 0,
    digest4 := 0, epoch := 0, bufs := [(strayPool, 0)] }

/-- A device that works with this band. Source 773 is enabled and not fast; the buffer that goes back to the pool counts its word up by 2³²,
which carries into FAST. No operation of the model makes such a buffer or such a stream, but it is a state, and the statement speaks of all
of them. -/
def strayBuffer : State :=
  { dev :=
      { pwr := { die := .running }
        regs := [(rSrcCfg 773, word (0x8FFFFFFF * 2 ^ 32))]
        streams := [(193, { phase := .running, bands := [strayBand] })]
        mouth := { stored := [strayStored] } } }

/-- Echo finds a superblock CRC that the band does not have. -/
def strayFindings : EchoFindings := ⟨[1], [], 0, 0, false, 0, 0, [], []⟩

theorem working_strayBuffer : working strayBuffer.dev = true := by decide +kernel

theorem retired_strayBuffer : retired strayBuffer.dev 0 = false := by decide +kernel

theorem nextVerdict_strayBuffer : nextVerdict strayBuffer.dev 0 = some (193, strayBand) := by decide +kernel

theorem galsQuiet_strayBuffer : galsQuiet strayBuffer := by unfold galsQuiet; decide +kernel

/-! ### The verdict -/

/-- The device once the verdict has been given. -/
def strayFailed : Dev :=
  giveVerdict ((readBlocks (prefetch strayBuffer.dev 0 193 strayBand true) 0 193 true (strayBand.coded0.flatMap fun x => x.blocks)).onStream 193
    fun st => takeEchoState st strayBand strayFindings) 0 193 strayBand (causeOf (strayBuffer.dev.stream 193) strayBand strayFindings [])

/-- The FAIL returns the buffer, so that the source is fast, and then raises the source. -/
theorem fastMet_strayFailed : strayFailed.fastMet = [0] := by decide +kernel

/-- What `restartMet` makes of a device: the routines that events have met are abandoned, and none waits for that any more. -/
theorem dev_restartMet (s : State) :
    (restartMet s).dev = if s.dev.fastMet.isEmpty then s.dev else each (uniq s.dev.fastMet) { s.dev with fastMet := [] } restartRoutine := by
  unfold restartMet
  split
  · rfl
  · rfl

theorem fastMet_strayFailed_restarted : (each (uniq strayFailed.fastMet) { strayFailed with fastMet := [] } restartRoutine).fastMet = [] := by
  decide +kernel

theorem fastMet_restartMet_of_strayFailed {t : State} (h : t.dev = strayFailed) : (restartMet t).dev.fastMet = [] := by
  rw [dev_restartMet, h, if_neg (by rw [fastMet_strayFailed]; decide), fastMet_strayFailed_restarted]

/-- Where no source of a Gallery was fast, the effect of a command is already as `restartMet` leaves it. -/
theorem restartMet_of_galEffect {i : Instr} {s t : State} (h : galEffect i s t) (hquiet : galsQuiet s) : restartMet t = t :=
  Host.Outcome.next.inj (h.2.symm.trans (h.1 hquiet))

/-- Refutes O16, by its first clause: no source of a Gallery is fast before the verdict, and yet its effect leaves a routine to abandon. -/
theorem not_verdictsAndMissedBands : ¬ Obligations.VerdictsAndMissedBands := by
  rintro ⟨hverdict, -, -⟩
  obtain ⟨t, heffect, hdev, -⟩ :=
    hverdict 0 strayFindings [] strayBuffer 193 strayBand working_strayBuffer retired_strayBuffer nextVerdict_strayBuffer
  have hfailed : t.dev = strayFailed := hdev
  have hnone : t.dev.fastMet = [] := by
    rw [← restartMet_of_galEffect heffect galsQuiet_strayBuffer]
    exact fastMet_restartMet_of_strayFailed hfailed
  rw [hfailed, fastMet_strayFailed] at hnone
  cases hnone

end Sys2Proof.Machine

/-! SUPPORT. The period of ingest decoding: what each context is given, and that the others stay (R212, R574). -/

namespace Sys2Proof.Machine

/-! ### Laying one context after the other -/

/-- A context that the dispatcher passes over: it is free, or best effort. -/
def Ctx.unlaid (x : Ctx) : Bool := x.phase == .free || !x.assured

theorem Ctx.unlaid_iff (x : Ctx) : x.unlaid = true ↔ x.phase = .free ∨ x.assured = false := by simp [Ctx.unlaid]

/-- A context with its allotment of the period, laid from position `pos` over the Galleries `l` (R212). -/
def allotted (l : List Nat) (pos : Nat) (x : Ctx) : Ctx :=
  { x with
    credit := (x.credit + x.load) % 1000, given := (x.credit + x.load) / 1000, lateRaised := false
    pieces := piecesOf 3 l pos 0 ((x.credit + x.load) / 1000 * 1000)
    work := if x.hasInput then x.work ++ x.pieces else [] }

/-- One step of `layContexts`: the device and the position reached. -/
def layStep (l : List Nat) (st : Dev × Nat) (c : Nat) : Dev × Nat :=
  if (st.1.ctx c).unlaid then st
  else (st.1.setCtx c (allotted l st.2 (st.1.ctx c)), st.2 + ((st.1.ctx c).credit + (st.1.ctx c).load) / 1000 * 1000)

theorem layContexts_eq (d : Dev) : layContexts d = ((List.range 96).foldl (layStep (healthyList d)) (d, 0)).1 := rfl

/-- The contexts of a list have been laid: each assured one has its allotment, and every other context is as before. -/
def laidOut (cs : List Nat) (d e : Dev) : Prop :=
  e = { d with ctxs := e.ctxs } ∧ (∀ c, c ∉ cs ∨ (d.ctx c).unlaid = true → e.ctx c = d.ctx c) ∧
    ∀ c ∈ cs, (d.ctx c).unlaid = false → ∃ l pos, e.ctx c = allotted l pos (d.ctx c)

theorem laidOut_nil (d : Dev) : laidOut [] d d := ⟨rfl, fun _ _ => rfl, by simp⟩

/-- A context that has not been laid yet is laid. -/
theorem laidOut_layStep {cs : List Nat} {d : Dev} {st : Dev × Nat} {c : Nat} (l : List Nat) (hc : c ∉ cs) (h : laidOut cs d st.1) :
    laidOut (cs ++ [c]) d (layStep l st c).1 := by
  obtain ⟨hdev, hother, hlaid⟩ := h
  have hnow : st.1.ctx c = d.ctx c := hother c (.inl hc)
  have hbefore : ∀ k, k ∉ cs ++ [c] ∨ (d.ctx k).unlaid = true → st.1.ctx k = d.ctx k := fun k hk =>
    hother k (hk.imp_left fun hk hmem => hk (List.mem_append_left _ hmem))
  unfold layStep
  rw [hnow]
  split
  · next hskip =>
    refine ⟨hdev, hbefore, fun k hk hopen => hlaid k ?_ hopen⟩
    have hne : k ≠ c := by
      rintro rfl
      rw [hskip] at hopen
      cases hopen
    simpa [hne] using hk
  · next hopen =>
    refine ⟨by rw [hdev]; rfl, fun k hk => ?_, fun k hk hkopen => ?_⟩
    · have hne : k ≠ c := by
        rintro rfl
        simp [hopen] at hk
      rw [ctx_setCtx_other _ _ hne, hbefore k hk]
    · by_cases hkc : k = c
      · subst hkc
        exact ⟨l, st.2, ctx_setCtx_same ..⟩
      · rw [ctx_setCtx_other _ _ hkc]
        exact hlaid k (by simpa [hkc] using hk) hkopen

theorem laidOut_foldl {cs : List Nat} {d : Dev} {st : Dev × Nat} (l rest : List Nat) (hnodup : (cs ++ rest).Nodup) (h : laidOut cs d st.1) :
    laidOut (cs ++ rest) d (rest.foldl (layStep l) st).1 := by
  induction rest generalizing cs st with
  | nil => simpa using h
  | cons c rest ih =>
    have hc : c ∉ cs := fun hmem => (List.nodup_append.mp hnodup).2.2 c hmem c List.mem_cons_self rfl
    rw [List.append_cons] at hnodup ⊢
    exact ih hnodup (laidOut_layStep l hc h)

theorem laidOut_layContexts (d : Dev) : laidOut (List.range 96) d (layContexts d) := by
  rw [layContexts_eq]
  exact laidOut_foldl (cs := []) (st := (d, 0)) _ (List.range 96) List.nodup_range (laidOut_nil d)

/-! ### INGEST_PERIOD -/

/-- The device at the start of its next ingest period. -/
def periodBegun (d : Dev) : Dev := { advance d ((d.ingestPeriods + 1) * 1000000) with ingestPeriods := d.ingestPeriods + 1 }

theorem ingestPeriod_eq (d : Dev) : ingestPeriod d = layContexts (periodBegun d) := rfl

theorem exec_ingestPeriod_working {s : State} (h : working s.dev = true) : exec .ingestPeriod s = .next (s.onDev ingestPeriod) := by
  show ok (if working s.dev then _ else s) = _
  rw [if_pos h, ok_eq]

/-- What an ingest period gives, and to whom. -/
theorem ingestPeriod_effect (d : Dev) :
    let e := ingestPeriod d
    e.now = max d.now ((d.ingestPeriods + 1) * 1000000) ∧ e.ingestPeriods = d.ingestPeriods + 1 ∧
      (∀ c : Fin 96, (d.ctx c.val).phase ≠ .free → (d.ctx c.val).assured = true →
        (e.ctx c.val).given = ((d.ctx c.val).credit + (d.ctx c.val).load) / 1000 ∧
        (e.ctx c.val).credit = ((d.ctx c.val).credit + (d.ctx c.val).load) % 1000) ∧
      (∀ c, (d.ctx c).phase = .free ∨ (d.ctx c).assured = false → e.ctx c = d.ctx c) ∧ e.streams = d.streams ∧ e.regs = d.regs := by
  intro e
  obtain ⟨hdev, hother, hlaid⟩ := laidOut_layContexts (periodBegun d)
  rw [← ingestPeriod_eq] at hdev hother hlaid
  refine ⟨(congrArg Dev.now hdev :), (congrArg Dev.ingestPeriods hdev :), fun c hphase hassured => ?_,
    fun c hskip => hother c (.inr ((Ctx.unlaid_iff _).mpr hskip)), (congrArg Dev.streams hdev :), (congrArg Dev.regs hdev :)⟩
  obtain ⟨l, pos, hctx⟩ := hlaid c.val (List.mem_range.mpr c.isLt) (show (d.ctx c.val).unlaid = false by simp [Ctx.unlaid, hphase, hassured])
  exact ⟨(congrArg Ctx.given hctx :), (congrArg Ctx.credit hctx :)⟩

end Sys2Proof.Machine

/-! SUPPORT. The rows of a frame in its output slot: what stands there, and that no other byte of memory moves (R215, R434). -/

namespace Sys2Proof.Machine

/-! ### Rows whose windows Echo may write -/

/-- Memory with the rows of a frame stored from `base` on. -/
def withRows (s : State) (base : Nat) (rows : List (Nat × List Byte)) : State := each rows s fun s r => s.store (base + r.1) r.2

theorem withRows_cons (s : State) (base : Nat) (r : Nat × List Byte) (rest : List (Nat × List Byte)) :
    withRows s base (r :: rest) = withRows (s.store (base + r.1) r.2) base rest := rfl

/-- Echo is granted every row of a slot. -/
def rowsGranted (d : Dev) (base : Nat) (rows : List (Nat × List Byte)) : Prop :=
  ∀ r ∈ rows, memGranted d 0xFA (base + r.1) r.2.length true = true

theorem storeSlot_granted {s : State} {base : Nat} {rows : List (Nat × List Byte)} (h : rowsGranted s.dev base rows) :
    storeSlot s base rows = withRows s base rows := by
  induction rows generalizing s with
  | nil => rfl
  | cons r rest ih =>
    have hfirst : (storeAs s 0xFA (base + r.1) r.2).1 = s.store (base + r.1) r.2 := by
      rw [storeAs, if_pos (h r List.mem_cons_self)]
    have hrest : rowsGranted (s.store (base + r.1) r.2).dev base rest := fun q hq => h q (List.mem_cons_of_mem _ hq)
    rw [withRows_cons, ← ih hrest, ← hfirst]
    rfl

/-- Memory alone moves. -/
theorem withRows_eq (s : State) (base : Nat) (rows : List (Nat × List Byte)) :
    withRows s base rows = { s with mem := (withRows s base rows).mem } :=
  each_keeps (P := fun t : State => t = { s with mem := t.mem }) _ (fun t r h => by rw [h]; rfl) rows s rfl

@[simp] theorem withRows_dev (s : State) (base : Nat) (rows : List (Nat × List Byte)) : (withRows s base rows).dev = s.dev := by
  rw [withRows_eq]

/-- A byte outside every row stays. -/
theorem byte_withRows_outside {s : State} {base a : Nat} {rows : List (Nat × List Byte)}
    (h : ∀ r ∈ rows, a < base + r.1 ∨ base + r.1 + r.2.length ≤ a) : (withRows s base rows).byte a = s.byte a :=
  each_keeps_mem (P := fun t : State => t.byte a = s.byte a) _ rows (fun t r hr ht => (State.byte_store_outside t _ _ a (h r hr)).trans ht) s rfl

/-- Rows that follow one another without overlap stand as they were written. -/
theorem byte_withRows_inside {s : State} {base : Nat} {rows : List (Nat × List Byte)}
    (hbacked : ∀ r ∈ rows, base + r.1 + r.2.length ≤ Config.memBytes) (hapart : rows.Pairwise fun p q => p.1 + p.2.length ≤ q.1) :
    ∀ r ∈ rows, ∀ k, k < r.2.length → (withRows s base rows).byte (base + r.1 + k) = r.2.getD k 0 := by
  induction rows generalizing s with
  | nil => simp
  | cons q rest ih =>
    obtain ⟨hafter, hapart⟩ := List.pairwise_cons.mp hapart
    intro r hr k hk
    rw [withRows_cons]
    rcases List.mem_cons.mp hr with rfl | hr
    · rw [byte_withRows_outside fun p hp => .inl (by have := hafter p hp; omega),
        State.byte_store_inside _ _ _ k hk (hbacked r List.mem_cons_self), List.getD_eq_getElem?_getD, List.getElem?_eq_getElem hk,
        Option.getD_some]
    · exact ih (fun p hp => hbacked p (List.mem_cons_of_mem _ hp)) hapart r hr k hk

end Sys2Proof.Machine

/-! SUPPORT. What decoding a picture leaves: streams, other contexts, and what the access checks of device memory read (R218 to R220, R431). -/

namespace Sys2Proof.Machine

/-! ### What the access checks of device memory read (R431 to R436) -/

/-- A register that grants windows: the locks, and the assignment of a window. -/
def accessReg (a : Nat) : Prop := a = rSecLocks ∨ ∃ k < 256, a = rWinAssign k

theorem accessReg_bounds {a : Nat} (h : accessReg a) : a = 0x200 ∨ (0x7A0000 ≤ a ∧ a < 0x7A0800) := by
  rcases h with rfl | ⟨k, hk, rfl⟩
  · exact .inl rfl
  · right
    unfold rWinAssign
    omega

theorem not_eventPage_of_accessReg {a : Nat} (h : accessReg a) : ¬ eventPage a := by
  have := accessReg_bounds h
  unfold eventPage
  omega

theorem ne_rGal_of_accessReg {a : Nat} (h : accessReg a) (g : Nat) : a ≠ rGal g oEchoIngestSb := by
  have := accessReg_bounds h
  unfold rGal oEchoIngestSb
  omega

theorem ne_rCh_of_accessReg {a c off : Nat} (h : accessReg a) (hc : c < 288) (ho : off < 0x100) : a ≠ rCh c off := by
  have := accessReg_bounds h
  unfold rCh
  omega

/-- Devices of one access table whose registers grant the same windows. -/
def sameAccess (d e : Dev) : Prop := e.acc = d.acc ∧ e.accStd = d.accStd ∧ ∀ a, accessReg a → reg e a = reg d a

theorem memGranted_of_sameAccess {d e : Dev} (h : sameAccess d e) (m a len : Nat) (write : Bool) :
    memGranted e m a len write = memGranted d m a len write := by
  obtain ⟨hacc, hstd, hregs⟩ := h
  have hgranted : ∀ t inst, granted e t m write inst = granted d t m write inst := fun t inst => by
    unfold granted accessLocked accCode
    rw [hacc, hstd, regBit, hregs _ (.inl rfl), ← regBit]
  have hwindow : ∀ k, winGranted e m k write = winGranted d m k write := fun k => by
    unfold winGranted
    by_cases hk : k < 256
    · rw [hgranted, regBit, regFld, hregs _ (.inr ⟨k, hk, rfl⟩), ← regBit, ← regFld]
    · simp [hk]
  unfold memGranted
  simp only [hwindow]

/-! ### Decoding moves one context -/

/-- Streams, the contexts but c, and the grants of device memory are as before. -/
def decodes (c : Nat) (d e : Dev) : Prop := e.streams = d.streams ∧ otherCtxs c d e ∧ sameAccess d e

theorem decodes_refl (c : Nat) (d : Dev) : decodes c d d := ⟨rfl, otherCtxs_refl c d, rfl, rfl, fun _ _ => rfl⟩

section Decodes

variable {c : Nat} {d e : Dev} (h : decodes c d e)
include h

theorem decodes_of_core {e' : Dev} (hcore : e'.core = e.core) (hregs : ∀ a, accessReg a → reg e' a = reg e a) : decodes c d e' := by
  obtain ⟨hstreams, hother, hacc, hstd, hsame⟩ := h
  exact ⟨(Dev.streams_of_core hcore).trans hstreams, otherCtxs_trans hother (otherCtxs_of_core c hcore), (Dev.acc_of_core hcore).trans hacc,
    (Dev.accStd_of_core hcore).trans hstd, fun a ha => (hregs a ha).trans (hsame a ha)⟩

theorem decodes_setCtx (x : Ctx) : decodes c d (e.setCtx c x) := ⟨h.1, otherCtxs_setCtx h.2.1 x, h.2.2⟩

theorem decodes_raise (s cause x y : Nat) : decodes c d (raise e s cause x y) :=
  decodes_of_core h (core_raise ..) fun _ ha => reg_raise _ _ _ _ _ (not_eventPage_of_accessReg ha)

theorem decodes_ctxErr (w k : Nat) : decodes c d (ctxErr e c w k) := decodes_setCtx h _

theorem decodes_ctxStat (w k : Nat) : decodes c d (ctxStat e c w k) := by
  unfold ctxStat
  dsimp only
  split
  · exact decodes_raise (decodes_setCtx h _) ..
  · exact decodes_setCtx h _

/-- A Gallery counts superblocks that its Echo has reconstructed. -/
theorem decodes_ingestSb (g n src subj off : Nat) : decodes c d (incStat e (rGal g oEchoIngestSb) n src subj off) :=
  decodes_of_core h (core_incStat ..) fun _ ha =>
    reg_incStat_other _ _ _ _ _ (not_eventPage_of_accessReg ha) (ne_rGal_of_accessReg ha g)

theorem decodes_frameEchoes (x : Ctx) (n : Nat) : decodes c d (frameEchoes e x n).2 := by
  unfold frameEchoes
  dsimp only
  split
  · exact h
  · exact h

theorem decodes_pauseUpdate {k : Nat} (hk : k < 288) : decodes c d (pauseUpdate e k) :=
  decodes_of_core h (core_pauseUpdate ..) fun _ ha => reg_pauseUpdate_other _ (ne_rCh_of_accessReg ha hk (by decide))

theorem decodes_ite {e' : Dev} (h' : decodes c d e') (b : Prop) [Decidable b] : decodes c d (if b then e' else e) := by
  split
  · exact h'
  · exact h

theorem decodes_decodeEvents (x : Ctx) (u : AccessUnit) (f : DecodedFrame) : decodes c d (decodeEvents e c x u f) := by
  unfold decodeEvents
  extract_lets un d1 d2 d3 d4 echoes
  have h1 : decodes c d d1 := decodes_ctxErr (decodes_ctxErr (decodes_ctxStat h _ _) _ _) _ _
  have h2 : decodes c d d2 := decodes_ite h1 (decodes_ctxErr h1 _ _) _
  have h3 : decodes c d d3 := decodes_ite h2 (decodes_raise h2 ..) _
  have h4 : decodes c d d4 := decodes_ite h3 (decodes_raise h3 ..) _
  refine each_keeps (P := decodes c d) _ (fun b g hb => ?_) _ _ (decodes_frameEchoes h4 x f.totalSb)
  split
  · exact hb
  · exact decodes_ingestSb hb ..

theorem decodes_decodeUnit (hc : c < 96) (x : Ctx) (u : AccessUnit) (rest : List AccessUnit) (f : DecodedFrame) :
    decodes c d (decodeUnit e c x u rest f) :=
  decodes_pauseUpdate (decodes_setCtx (decodes_decodeEvents h _ u f) _) (by omega)

theorem decodes_passTurn (k : Nat) : decodes c d (passTurn e k) := by
  unfold passTurn
  split
  · exact h
  · exact h

end Decodes

end Sys2Proof.Machine

/-! SUPPORT. INGEST_FRAME_OUTPUT on a context that the dispatcher serves: the context after its picture, and its frame in a slot (R209,
R214 to R217). -/

namespace Sys2Proof.Machine

/-! ### The context that a picture is decoded in -/

/-- The context when the picture is reached: a lost unit that begins counts as lost. `gap`: whether units before it were lost too. -/
def reachedCtx (x : Ctx) (u : AccessUnit) (gap : Bool) : Ctx :=
  if u.lost && !x.midUnit then { lostUnit x with gapSince := gap } else x

/-- The context with the header of the frame seen, and its key picture counted. -/
def seenCtx (x : Ctx) (f : DecodedFrame) : Ctx :=
  if f.key && f.existing.isNone then { headerSeen x f with epoch := (headerSeen x f).epoch + 1 } else headerSeen x f

/-- A context but for what headers, key pictures and lost units move. -/
def Ctx.unheaded (x : Ctx) : Ctx := { x with badHeader := false, seqW := 0, seqH := 0, epoch := 0, gapSince := false, pics := [] }

theorem unheaded_reachedCtx (x : Ctx) (u : AccessUnit) (gap : Bool) : (reachedCtx x u gap).unheaded = x.unheaded := by
  unfold reachedCtx
  split
  · rfl
  · rfl

theorem unheaded_headerSeen (x : Ctx) (f : DecodedFrame) : (headerSeen x f).unheaded = x.unheaded := by
  unfold headerSeen
  split
  · rfl
  · split
    · rfl
    · rfl

theorem unheaded_seenCtx (x : Ctx) (f : DecodedFrame) : (seenCtx x f).unheaded = x.unheaded := by
  unfold seenCtx
  split
  · exact unheaded_headerSeen x f
  · exact unheaded_headerSeen x f

/-! #### The rows of the frame (R215) -/

theorem slotRows_epoch (x : Ctx) (f : DecodedFrame) (n : Nat) : slotRows { x with epoch := n } f = slotRows x f := rfl

theorem slotRows_gapSince (x : Ctx) (f : DecodedFrame) (gap : Bool) : slotRows { x with gapSince := gap } f = slotRows x f := rfl

theorem headerSeen_gapSince (x : Ctx) (f : DecodedFrame) (gap : Bool) :
    headerSeen { x with gapSince := gap } f = { headerSeen x f with gapSince := gap } := by
  unfold headerSeen
  split
  · rfl
  · dsimp only
    split
    · rfl
    · rfl

/-- The rows follow from the context once the header is seen; what has been lost before the unit plays no part. -/
theorem slotRows_seenCtx (x : Ctx) (u : AccessUnit) (f : DecodedFrame) (gap : Bool) :
    slotRows (seenCtx (reachedCtx x u gap) f) f = slotRows (headerSeen (if u.lost && !x.midUnit then lostUnit x else x) f) f := by
  have hkey : ∀ y, slotRows (seenCtx y f) f = slotRows (headerSeen y f) f := fun y => by
    unfold seenCtx
    split
    · exact slotRows_epoch ..
    · rfl
  rw [hkey]
  unfold reachedCtx
  split
  · rw [headerSeen_gapSince, slotRows_gapSince]
  · rfl

/-! ### The context after its picture -/

/-- The pictures held once the picture of unit u is decoded, in the context y that has seen its header. -/
def heldAfter (y : Ctx) (u : AccessUnit) (f : DecodedFrame) : List HeldPic :=
  if f.existing.isSome then y.pics
  else
    holdPic y f
      { number := y.decoded, unit := u.number, clean := cleanFrame y u f, width := (frameSize y f).1, height := (frameSize y f).2
        seq := two32 - 1, depth := (keptPicture y f).1, picture := (keptPicture y f).2 }

/-- The context once the picture of unit u is decoded, from the context y that has seen its header. -/
def decodedCtx (y : Ctx) (u : AccessUnit) (rest : List AccessUnit) (f : DecodedFrame) (cnt : Tab Word) : Ctx :=
  { y with
    cnt := cnt, units := if f.more then u :: rest else rest, fill := if f.more then y.fill else y.fill - u.size, midUnit := f.more
    hurt := 0, gapSince := if f.shown then false else y.gapSince, waits := f.waits, work := [], pieces := piecesLeft y f.totalSb
    decoded := if f.existing.isSome then y.decoded else y.decoded + 1
    pics := heldAfter y u f, waiting := if f.shown then queueFrame y.waiting (shownOf y u f) else y.waiting }

theorem ctx_decodeUnit (d : Dev) (c : Nat) (x : Ctx) (u : AccessUnit) (rest : List AccessUnit) (f : DecodedFrame) :
    ∃ cnt, (decodeUnit d c x u rest f).ctx c = decodedCtx (seenCtx x f) u rest f cnt :=
  ⟨_, (Dev.ctx_of_core (core_pauseUpdate _ _) c).trans (ctx_setCtx_same ..)⟩

/-- The latest picture is the newest held, where the buffer keeps it. -/
theorem head_holdPic {x : Ctx} {f : DecodedFrame} {p : HeldPic} (hbuffer : p.inBuffer = true) (hlatest : p.number = x.decoded)
    (hstays : 0 ∉ f.drops) : (holdPic x f p).head? = some p := by
  have hkept : (f.drops.any fun r => p.number + r == x.decoded) = false := by
    rw [List.any_eq_false]
    intro r hr
    have : r ≠ 0 := fun h => hstays (h ▸ hr)
    simpa [hlatest] using this
  unfold holdPic
  dsimp only
  rw [List.map_cons, if_neg (by rw [hkept]; decide), List.filter_cons_of_pos (by rw [hbuffer]; rfl), List.head?_cons]

/-- A new picture that does not leave the buffer at once is the newest one held, and has no FRAME_SEQ yet. -/
theorem head_heldAfter {y : Ctx} {u : AccessUnit} {f : DecodedFrame} (hnew : f.existing = none) (hstays : 0 ∉ f.drops) :
    (heldAfter y u f).head?.map (fun p => (p.unit, p.seq)) = some (u.number, two32 - 1) := by
  rw [heldAfter, hnew, if_neg (by decide), head_holdPic rfl rfl hstays]
  rfl

/-! ### The command on a context that is served -/

/-- A unit with data is not skipped. -/
theorem skipLost_of_data {x : Ctx} {u : AccessUnit} {rest : List AccessUnit} (hunits : x.units = u :: rest) (hdata : u.empty = false) (fuel : Nat) :
    skipLost fuel x = x := by
  cases fuel with
  | zero => rfl
  | succ k => rw [skipLost, hunits]; simp [hdata]

theorem mayDecode_of_ctx {d e : Dev} (hctx : ∀ k, e.ctx k = d.ctx k) (hturn : e.ingestTurn = d.ingestTurn) (c : Nat) :
    mayDecode e c = mayDecode d c := by
  unfold mayDecode
  simp only [hctx, hturn]

/-- A context that is set to what it is. -/
theorem ctx_setCtx_self (d : Dev) (c k : Nat) : (d.setCtx c (d.ctx c)).ctx k = d.ctx k := by
  by_cases h : k = c
  · rw [h, ctx_setCtx_same]
  · exact ctx_setCtx_other _ _ h

/-- The state in which the picture has been decoded and nothing is written out yet. -/
def pictureDecoded (s : State) (c : Nat) (u : AccessUnit) (rest : List AccessUnit) (f : DecodedFrame) (gap : Bool) : State :=
  s.onDev fun d => passTurn (decodeUnit (d.setCtx c (d.ctx c)) c (reachedCtx (d.ctx c) u gap) u rest f) c

/-- INGEST_FRAME_OUTPUT of a context that is served: its picture is decoded, and what is due is written out. -/
theorem outputFrame_served {s : State} {c : Nat} {f : DecodedFrame} {u : AccessUnit} {rest : List AccessUnit}
    (hphase : (s.dev.ctx c).phase ≠ .free) (hunits : (s.dev.ctx c).units = u :: rest) (hdata : u.empty = false)
    (hpoint : offPoint (s.dev.ctx c) f = false) (hslot : slotBlocked (s.dev.ctx c) = false) (hmay : mayDecode s.dev c = true) :
    ∃ gap, outputFrame s c f = outputDue (pictureDecoded s c u rest f gap) c := by
  have hmay' : mayDecode (s.dev.setCtx c (s.dev.ctx c)) c = true := (mayDecode_of_ctx (ctx_setCtx_self s.dev c) rfl c).trans hmay
  have hphase' : ((s.dev.ctx c).phase == .free) = false := by simpa using hphase
  refine ⟨(s.dev.ctx c).gapSince || decide (1 < (s.dev.ctx c).units.length - rest.length), ?_⟩
  unfold outputFrame
  simp only [skipLost_of_data hunits hdata, hphase', hslot, hpoint, State.onDev_dev, hmay', Bool.not_true, Bool.or_self, Bool.false_eq_true,
    if_false]
  split
  · next h => rw [hunits] at h; cases h
  · next h =>
    rw [hunits] at h
    cases h
    rfl

theorem ctx_passTurn (d : Dev) (c k : Nat) : (passTurn d c).ctx k = d.ctx k := by
  unfold passTurn
  split
  · rfl
  · rfl

/-- What stands after the picture: the context, and that streams, other contexts and grants are as before. -/
theorem pictureDecoded_effect (s : State) {c : Nat} (hc : c < 96) (u : AccessUnit) (rest : List AccessUnit) (f : DecodedFrame) (gap : Bool) :
    (∃ cnt, (pictureDecoded s c u rest f gap).dev.ctx c = decodedCtx (seenCtx (reachedCtx (s.dev.ctx c) u gap) f) u rest f cnt) ∧
      decodes c s.dev (pictureDecoded s c u rest f gap).dev := by
  obtain ⟨cnt, hctx⟩ := ctx_decodeUnit (s.dev.setCtx c (s.dev.ctx c)) c (reachedCtx (s.dev.ctx c) u gap) u rest f
  exact ⟨⟨cnt, (ctx_passTurn ..).trans hctx⟩,
    decodes_passTurn (decodes_decodeUnit (decodes_setCtx (decodes_refl c s.dev) _) hc _ u rest f) c⟩

/-! ### A frame is written out (R215 to R217) -/

/-- A context but for its counters and what it has reported. -/
def Ctx.unmarked (x : Ctx) : Ctx := { x with cnt := [], lateRaised := false, concealed := false }

/-- Streams are as before, and context c but for its counters and reports. -/
def marksCtx (c : Nat) (d e : Dev) : Prop := e.streams = d.streams ∧ (e.ctx c).unmarked = (d.ctx c).unmarked

section Marks

variable {c : Nat} {d e : Dev} (h : marksCtx c d e)
include h

theorem marksCtx_onCtx {f : Ctx → Ctx} (hf : ∀ x, (f x).unmarked = x.unmarked) : marksCtx c d (e.onCtx c f) :=
  ⟨h.1, by rw [ctx_onCtx_same, hf]; exact h.2⟩

theorem marksCtx_of_core {e' : Dev} (hcore : e'.core = e.core) : marksCtx c d e' :=
  ⟨(Dev.streams_of_core hcore).trans h.1, by rw [Dev.ctx_of_core hcore]; exact h.2⟩

theorem marksCtx_raise (s cause x y : Nat) : marksCtx c d (raise e s cause x y) := marksCtx_of_core h (core_raise ..)

theorem marksCtx_ctxErr (w k : Nat) : marksCtx c d (ctxErr e c w k) := marksCtx_onCtx h fun _ => rfl

theorem marksCtx_ctxStat (w k : Nat) : marksCtx c d (ctxStat e c w k) := by
  have hcount : marksCtx c d (e.onCtx c fun x => { x with cnt := cntStat x.cnt w k }) := marksCtx_onCtx h fun _ => rfl
  unfold ctxStat
  dsimp only
  split
  · exact marksCtx_raise hcount ..
  · exact hcount

theorem marksCtx_ite {e' : Dev} (h' : marksCtx c d e') (b : Prop) [Decidable b] : marksCtx c d (if b then e' else e) := by
  split
  · exact h'
  · exact h

/-- LATE and CONCEALED are reported once (R213, R221). -/
theorem marksCtx_reports (late concealed : Ctx → Bool) :
    marksCtx c d (e.onCtx c fun x => { x with lateRaised := late x, concealed := concealed x }) :=
  marksCtx_onCtx h fun _ => rfl

theorem marksCtx_frameEvents (x : Ctx) (y : Shown) (taken late : Bool) : marksCtx c d (frameEvents e c x y taken late) := by
  unfold frameEvents
  extract_lets d1 d2 l1 d3 e1
  have h1 : marksCtx c d d1 := marksCtx_ctxStat h 1 1
  have h2 : marksCtx c d d2 := marksCtx_ite h1 (marksCtx_raise (marksCtx_ctxErr h1 8 1) ..) _
  have hl : marksCtx c d l1 := marksCtx_ctxErr h2 9 1
  have hlate := marksCtx_raise (marksCtx_reports hl (fun _ => true) Ctx.concealed) 1247 4 c 0
  have h3 : marksCtx c d d3 := marksCtx_ite h2 (marksCtx_ite hlate hl _) _
  have he : marksCtx c d e1 := marksCtx_ctxErr h3 3 1
  have hclean := marksCtx_raise (marksCtx_reports h3 Ctx.lateRaised fun _ => false) 1247 2 c 0
  have hconceal := marksCtx_raise (marksCtx_reports he Ctx.lateRaised fun _ => true) 1247 1 c 0
  exact marksCtx_ite (marksCtx_ite hconceal he _) (marksCtx_ite h3 hclean _) _

end Marks

/-- The context once its next frame y has been written out. -/
def outputCtx (x : Ctx) (y : Shown) (rest : List Shown) : Ctx :=
  { x with
    phase := if x.phase == .admitted then .running else x.phase, waiting := rest, frameSeq := x.frameSeq + 1
    slots := (x.slots.filter fun e => e.1 != x.nextSlot) ++ [(x.nextSlot, x.frameSeq % two32)]
    nextSlot := (x.nextSlot + 1) % max 1 x.outSlots
    pics := x.pics.map fun p => if p.number = y.number then { p with seq := x.frameSeq % two32 } else p
    lastW := y.width, lastH := y.height
    ring := { x.ring with next := x.ring.next + 1 } }

/-- Writing out the frame whose turn is next: its rows in the next slot, then the context, its counters and its record. -/
theorem outputNext_waiting {s : State} {c : Nat} {y : Shown} {rest : List Shown} (hwaiting : (s.dev.ctx c).waiting = y :: rest)
    (hslot : slotBlocked (s.dev.ctx c) = false) :
    ∃ g : Dev → Dev,
      outputNext s c = (storeSlot s ((s.dev.ctx c).outBase + (s.dev.ctx c).nextSlot * (s.dev.ctx c).outStride) y.rows).onDev g ∧
        ∀ d, marksCtx c (d.setCtx c (outputCtx (s.dev.ctx c) y rest)) (g d) := by
  have hmark : ∀ (d : Dev) (taken late : Bool), marksCtx c (d.setCtx c (outputCtx (s.dev.ctx c) y rest))
      (frameEvents (d.setCtx c (outputCtx (s.dev.ctx c) y rest)) c (s.dev.ctx c) y taken late) := fun d taken late =>
    marksCtx_frameEvents ⟨rfl, rfl⟩ ..
  unfold outputNext
  simp only [hwaiting, hslot, Bool.false_eq_true, if_false]
  refine ⟨_, rfl, fun d => ?_⟩
  exact marksCtx_ite (hmark d _ _) (marksCtx_of_core (hmark d _ _) (core_emit ..)) _

end Sys2Proof.Machine

/-! SUPPORT. The obligation on ingest decoding: the period, a picture that is held, and a frame that fills its slot. -/

namespace Sys2Proof.Machine

/-! ### What is due (R216) -/

theorem dueFrames_of_none_waiting {x : Ctx} (h : x.waiting = []) (waits : Nat) : dueFrames x waits = 0 := by simp [dueFrames, h]

/-- A single frame is due where none may wait. -/
theorem dueFrames_of_one_waiting {x : Ctx} {y : Shown} (h : x.waiting = [y]) : dueFrames x 0 = 1 := by
  have hepochs : ([y].filter fun z => z.epoch != x.epoch).length ≤ 1 := List.length_filter_le ..
  rw [dueFrames, h]
  split
  · rfl
  · exact Nat.max_eq_right hepochs

theorem outputDue_of_one {s : State} {c : Nat} (h : dueFrames (s.dev.ctx c) (s.dev.ctx c).waits = 1) : outputDue s c = outputNext s c := by
  rw [outputDue, h]; rfl

/-! ### A picture of a context in which no frame waits -/

/-- Context c is served with unit u at the head of its buffer, and no frame of it waits. -/
structure Served (s : State) (c : Nat) (f : DecodedFrame) (u : AccessUnit) (rest : List AccessUnit) : Prop where
  ctx : c < 96
  phase : (s.dev.ctx c).phase ≠ .free
  units : (s.dev.ctx c).units = u :: rest
  data : u.empty = false
  point : offPoint (s.dev.ctx c) f = false
  slot : slotBlocked (s.dev.ctx c) = false
  may : mayDecode s.dev c = true
  waiting : (s.dev.ctx c).waiting = []

/-- The context that has seen the header of frame f, from the context x: it moves by headers and lost units alone, and gives the rows of the
frame. -/
def sees (x : Ctx) (u : AccessUnit) (f : DecodedFrame) (y : Ctx) : Prop :=
  y.unheaded = x.unheaded ∧ slotRows y f = slotRows (headerSeen (if u.lost && !x.midUnit then lostUnit x else x) f) f

theorem sees_seenCtx (x : Ctx) (u : AccessUnit) (f : DecodedFrame) (gap : Bool) : sees x u f (seenCtx (reachedCtx x u gap) f) :=
  ⟨(unheaded_seenCtx ..).trans (unheaded_reachedCtx ..), slotRows_seenCtx ..⟩

theorem waiting_decodedCtx (y : Ctx) (u : AccessUnit) (rest : List AccessUnit) (f : DecodedFrame) (cnt : Tab Word) :
    (decodedCtx y u rest f cnt).waiting = if f.shown then queueFrame y.waiting (shownOf y u f) else y.waiting := rfl

section Served

variable {s : State} {c : Nat} {f : DecodedFrame} {u : AccessUnit} {rest : List AccessUnit} (h : Served s c f u rest)
include h

/-- The command decodes the picture, and writes out what is due then. -/
theorem outputFrame_decodes :
    ∃ t0 y cnt, outputFrame s c f = outputDue t0 c ∧ sameOutside s t0 ∧ decodes c s.dev t0.dev ∧ sees (s.dev.ctx c) u f y ∧
      t0.dev.ctx c = decodedCtx y u rest f cnt := by
  obtain ⟨gap, hgo⟩ := outputFrame_served h.phase h.units h.data h.point h.slot h.may
  obtain ⟨⟨cnt, hctx⟩, hdecodes⟩ := pictureDecoded_effect s h.ctx u rest f gap
  exact ⟨_, _, cnt, hgo, sameOutside_onDev .., hdecodes, sees_seenCtx .., hctx⟩

/-- A picture that is not shown: it is held, and nothing is written out (R214, R216). -/
theorem outputFrame_held (hshown : f.shown = false) :
    let x := s.dev.ctx c
    let t := outputFrame s c f
    (t.dev.ctx c).units = (if f.more then u :: rest else rest) ∧ (t.dev.ctx c).waiting = [] ∧ (t.dev.ctx c).slots = x.slots ∧
      (t.dev.ctx c).frameSeq = x.frameSeq ∧
      (f.existing = none → 0 ∉ f.drops → ((t.dev.ctx c).pics.head?.map fun p => (p.unit, p.seq)) = some (u.number, two32 - 1)) ∧
      onlyCtx c s t ∧ t.dev.streams = s.dev.streams ∧ sameOutside s t := by
  intro x t
  obtain ⟨t0, y, cnt, hgo, houtside, ⟨hstreams, hother, -⟩, ⟨hseen, -⟩, hctx⟩ := outputFrame_decodes h
  have hnone : (decodedCtx y u rest f cnt).waiting = [] := by
    have hy : y.waiting = x.waiting := (congrArg Ctx.waiting hseen :)
    rw [waiting_decodedCtx, hshown, hy]
    exact h.waiting
  have ht : t = t0 := hgo.trans (outputDue_of_none (by rw [hctx]; exact dueFrames_of_none_waiting hnone _))
  rw [ht, hctx]
  exact ⟨rfl, hnone, (congrArg Ctx.slots hseen :), (congrArg Ctx.frameSeq hseen :), head_heldAfter, hother, hstreams, houtside⟩

/-- A frame whose turn it is at once: its rows fill the next slot, and the slot is taken (R215 to R217). -/
theorem outputFrame_shown (hshown : f.shown = true) (hwaits : f.waits = 0) {base : Nat} {rows : List (Nat × List Byte)}
    (hbase : base = (s.dev.ctx c).outBase + (s.dev.ctx c).nextSlot * (s.dev.ctx c).outStride)
    (hrows : rows = slotRows (headerSeen (if u.lost && !(s.dev.ctx c).midUnit then lostUnit (s.dev.ctx c) else s.dev.ctx c) f) f)
    (hgranted : rowsGranted s.dev base rows) (hbacked : ∀ r ∈ rows, base + r.1 + r.2.length ≤ Config.memBytes) :
    let x := s.dev.ctx c
    let t := outputFrame s c f
    (rows.Pairwise (fun p q => p.1 + p.2.length ≤ q.1) → ∀ r ∈ rows, ∀ k, k < r.2.length → t.byte (base + r.1 + k) = r.2.getD k 0) ∧
      (∀ a, (∀ r ∈ rows, a < base + r.1 ∨ base + r.1 + r.2.length ≤ a) → t.byte a = s.byte a) ∧
      (t.dev.ctx c).units = (if f.more then u :: rest else rest) ∧
      (t.dev.ctx c).frameSeq = x.frameSeq + 1 ∧
      (t.dev.ctx c).slots = (x.slots.filter fun e => e.1 != x.nextSlot) ++ [(x.nextSlot, x.frameSeq % two32)] ∧
      (t.dev.ctx c).nextSlot = (x.nextSlot + 1) % max 1 x.outSlots ∧ (t.dev.ctx c).waiting = [] ∧
      onlyCtx c s t ∧ t.dev.streams = s.dev.streams ∧ t.memGen = s.memGen ∧ t.nv = s.nv ∧ t.pending = s.pending := by
  intro x t
  obtain ⟨t0, y, cnt, hgo, ⟨hpending, hmem, hgen, hnv⟩, ⟨hstreams, hother, haccess⟩, ⟨hseen, hslotRows⟩, hctx⟩ :=
    outputFrame_decodes h
  have hone : (t0.dev.ctx c).waiting = [shownOf y u f] := by
    have hy : y.waiting = x.waiting := (congrArg Ctx.waiting hseen :)
    rw [hctx, waiting_decodedCtx, hshown, hy, show x.waiting = [] from h.waiting]
    rfl
  have hdue : dueFrames (t0.dev.ctx c) (t0.dev.ctx c).waits = 1 := by
    have hnone : (t0.dev.ctx c).waits = 0 := by rw [hctx]; exact hwaits
    rw [hnone, dueFrames_of_one_waiting hone]
  have hfree : slotBlocked (t0.dev.ctx c) = false := by
    rw [hctx]
    exact (congrArg slotBlocked hseen :).trans h.slot
  obtain ⟨g, hnext, hmarks⟩ := outputNext_waiting hone hfree
  have hplace : (t0.dev.ctx c).outBase + (t0.dev.ctx c).nextSlot * (t0.dev.ctx c).outStride = base := by
    rw [hctx, hbase]
    exact (congrArg (fun z : Ctx => z.outBase + z.nextSlot * z.outStride) hseen :)
  have hstored : storeSlot t0 base (shownOf y u f).rows = withRows t0 base rows := by
    rw [show (shownOf y u f).rows = rows from hslotRows.trans hrows.symm]
    exact storeSlot_granted fun r hr => (memGranted_of_sameAccess haccess ..).trans (hgranted r hr)
  have ht : t = (withRows t0 base rows).onDev g := by
    rw [← hstored, ← hplace]
    exact hgo.trans ((outputDue_of_one hdue).trans hnext)
  have hdev : t.dev = g t0.dev := by rw [ht, State.onDev_dev, withRows_dev]
  have hbyte : ∀ a, t.byte a = (withRows t0 base rows).byte a := fun a => by rw [ht, State.onDev_byte]
  have hsame : ∀ a, t0.byte a = s.byte a := fun a => by rw [State.byte, State.byte, hmem, hgen]
  obtain ⟨houtStreams, houtCtx⟩ := hmarks t0.dev
  have hout : (t.dev.ctx c).unmarked = (outputCtx (decodedCtx y u rest f cnt) (shownOf y u f) []).unmarked := by
    rw [hdev, houtCtx, ctx_setCtx_same, hctx]
  refine ⟨fun hapart r hr k hk => ?_, fun a ha => ?_, (congrArg Ctx.units hout :), ?_, ?_, ?_, (congrArg Ctx.waiting hout :), ?_, ?_, ?_, ?_, ?_⟩
  · rw [hbyte]
    exact byte_withRows_inside hbacked hapart r hr k hk
  · rw [hbyte, byte_withRows_outside ha, hsame]
  · exact (congrArg Ctx.frameSeq hout :).trans (congrArg (fun z : Ctx => z.frameSeq + 1) hseen :)
  · exact (congrArg Ctx.slots hout :).trans
      (congrArg (fun z : Ctx => (z.slots.filter fun e => e.1 != z.nextSlot) ++ [(z.nextSlot, z.frameSeq % two32)]) hseen :)
  · exact (congrArg Ctx.nextSlot hout :).trans (congrArg (fun z : Ctx => (z.nextSlot + 1) % max 1 z.outSlots) hseen :)
  · have hdue : t = outputDue t0 c := hgo
    rw [hdue]
    exact otherCtxs_trans hother (otherCtxs_outputDue t0 c)
  · rw [hdev, houtStreams]
    exact hstreams
  · rw [ht, withRows_eq]
    exact hgen
  · rw [ht, withRows_eq]
    exact hnv
  · rw [ht, withRows_eq]
    exact hpending

end Served

/-! ### The statement -/

theorem exec_ingestFrameOutput_working {s : State} (h : working s.dev = true) (c : Fin 96) (f : DecodedFrame) :
    exec (.ingestFrameOutput c f) s = .next (outputFrame s c.val f) := by
  show ok (if working s.dev then _ else s) = _
  rw [if_pos h, ok_eq]

/-- Settles O22: the period by the effect of laying the contexts; a frame by the effect of its picture, and of what is due then. -/
theorem ingestPeriodAndFrames : Obligations.IngestPeriodAndFrames := by
  refine ⟨?period, ?frame⟩
  case period =>
    intro s hworking
    obtain ⟨hnow, hperiods, hgiven, hother, hstreams, hregs⟩ := ingestPeriod_effect s.dev
    refine ⟨s.onDev ingestPeriod, exec_ingestPeriod_working hworking, ?_⟩
    simp only [State.onDev_dev]
    exact ⟨hnow, hperiods, hgiven, hother, hstreams, hregs, sameOutside_onDev ..⟩
  case frame =>
    intro c f s u rest x base rows left hworking hphase hunits hdata hpoint hslot hmay hwaiting
    have hempty : u.empty = false := by
      rcases hdata with h | h
      · simp [AccessUnit.empty, h]
      · simp [AccessUnit.empty, h]
    have hserved : Served s c.val f u rest := ⟨c.isLt, hphase, hunits, hempty, hpoint, hslot, hmay, hwaiting⟩
    have hexec := exec_ingestFrameOutput_working hworking c f
    exact ⟨fun hshown => ⟨_, hexec, outputFrame_held hserved hshown⟩, fun hshown hwaits hrows =>
      ⟨_, hexec, outputFrame_shown hserved hshown hwaits (base := base) (rows := rows) rfl rfl (fun r hr => (hrows r hr).1)
        fun r hr => (hrows r hr).2⟩⟩

end Sys2Proof.Machine

/-! SUPPORT. A packet of a stream number past the last one: the buffer that its queue gives back first counts in the word that would hold the
stream's time stamp (R268, R277, R284, R338). -/

namespace Sys2Proof.Machine

/-! ### A stream that does not exist -/

/-- Stream 3841. The device has 192 streams; the RTP register of one of this number would stand where Sump keeps the status of pool 0. -/
def strayStream : Nat := 3841

theorem rMs_strayStream : rMs strayStream oMsRtp = rPoolStatus 0 := by decide

/-- The first of two packets of band 0 of that stream. -/
def strayCopy : QEntry := { stream := strayStream, seq := 0, idx := 0, count := 2, len := 100, colour := .green }

def strayCopyBand : Stored :=
  { stream := strayStream, seq := 0, frame := 0, b := 0, last := false, vein := false, key := false, rep := false, resend := false, len0 := 0,
    len1 := 0, digest4 := 0, epoch := 0, bufs := [] }

/-- A working device whose port 0 is idle, with the queue of recipient 0 ready. The queue holds that packet alone and two entry blocks of
pool 0, one more than it needs. The pool has 3 free buffers and a low mark of 10, which would be the time stamp of the packet. No operation
of the model makes such a stream, but it is a state, and the statement speaks of all of them. -/
def spareBlock : State :=
  { dev :=
      { pwr := { die := .running }
        regs := [(rPoolStatus 0, word (3 * 2 ^ 32 + 10))]
        recips := [(0, { valid := true, stream := strayStream, queue := [strayCopy], blocks := [(0, 0), (0, 1)], place := .ready 0 })]
        keys := [(0, { kind := 1 })]
        mouth := { stored := [strayCopyBand], port0 := { up := true, ready := [0] } } } }

theorem working_spareBlock : working spareBlock.dev = true := by decide +kernel

theorem recip_spareBlock :
    portOf spareBlock.dev (spareBlock.dev.recip 0) = 0 ∧ (spareBlock.dev.recip 0).queue = [strayCopy] ∧
      heldEntry spareBlock.dev strayCopy = false ∧ (spareBlock.dev.key (spareBlock.dev.recip 0).keySlot).kind = 1 := by decide +kernel

theorem storedAt_spareBlock : storedAt spareBlock.dev strayCopy.stream strayCopy.seq = some strayCopyBand := by decide +kernel

theorem hostRecord_spareBlock : hostRecord spareBlock.dev = false := by decide +kernel

theorem rtpTime_spareBlock : rtpTime spareBlock.dev strayCopy.stream strayCopyBand = 10 := by
  rw [rtpTime, strayCopy, rMs_strayStream]
  decide +kernel

/-! ### PORT_SERVE -/

theorem finishWire_idle {d : Dev} {p : Nat} (h : (d.port p).wire = none) : finishWire d p = d := by
  unfold finishWire
  rw [h]

theorem exec_portServe_idle {s : State} {p : Fin 2} (h : working s.dev = true) (hwire : (s.dev.port p.val).wire = none) :
    exec (.portServe p) s = .next (keepRecords (·.onDev fun d => servePort d p) s) := by
  show ok (if !alive s.dev then s
    else keepRecords (·.onDev fun d => if stopped (finishWire d p) then finishWire d p else servePort (finishWire d p) p) s) = _
  rw [alive_of_working h, Bool.not_true, if_neg Bool.false_ne_true, ok_eq, keepRecords, State.onDev, finishWire_idle hwire,
    stopped_of_working h, if_neg Bool.false_ne_true]
  rfl

/-- The time stamps of the packets among outputs. -/
def packetTimes (l : List Out) : List Nat :=
  l.filterMap fun o => match o with
    | .packet _ _ _ _ ts _ _ _ _ => some ts
    | _ => none

theorem mem_packetTimes {l : List Out} {p r : Nat} {e : QEntry} {marker : Bool} {ts : Nat} {dst : Source} {digest epoch : Nat}
    {frame : List Byte} (h : .packet p r e marker ts dst digest epoch frame ∈ l) : ts ∈ packetTimes l :=
  List.mem_filterMap.mpr ⟨_, h, rfl⟩

/-- The spare block goes back before the packet is sent, so that the pool's 4 free buffers are the low mark, and the time stamp. -/
theorem packetTimes_spareBlock : packetTimes (servePort spareBlock.dev 0).out = [4] := by decide +kernel

/-- Refutes O24, by its clause on PORT_SERVE: the time stamp of the packet is read once the queue has given its spare block back, and of this
stream it is not the one that stood there before. -/
theorem not_calendarAndPorts : ¬ Obligations.CalendarAndPorts := by
  rintro ⟨-, hserve⟩
  obtain ⟨hport, hqueue, hheld, hkey⟩ := recip_spareBlock
  obtain ⟨t, hexec, -, hsent, -⟩ := hserve 0 spareBlock 0 [] strayCopy [] strayCopyBand working_spareBlock rfl rfl rfl hport hqueue rfl hheld
    hkey storedAt_spareBlock (.inl hostRecord_spareBlock)
  have ht : t = keepRecords (·.onDev fun d => servePort d 0) spareBlock :=
    (Host.Outcome.next.inj ((exec_portServe_idle working_spareBlock rfl).symm.trans hexec)).symm
  have hts := mem_packetTimes hsent
  rw [ht, keepRecords_dev, State.onDev_dev, packetTimes_spareBlock, rtpTime_spareBlock] at hts
  exact absurd hts (by decide)

end Sys2Proof.Machine

/-! SUPPORT. Commands and window operations on one recipient: who may run them, and that one entry of the table moves (R319 to R324, R388, R431). -/

namespace Sys2Proof.Machine

/-! ### One entry of the table of recipients -/

theorem recip_setRecip_same (d : Dev) (r : Nat) (x : Recip) : (d.setRecip r x).recip r = x := Tab.get_set_same ..

theorem recip_setRecip_other (d : Dev) {r q : Nat} (x : Recip) (h : q ≠ r) : (d.setRecip r x).recip q = d.recip q :=
  Tab.get_set_other d.recips _ _ h

theorem recip_onRecip_other (d : Dev) {r q : Nat} (f : Recip → Recip) (h : q ≠ r) : (d.onRecip r f).recip q = d.recip q :=
  recip_setRecip_other d _ h

theorem core_onRecip (d : Dev) (r : Nat) (f : Recip → Recip) : (d.onRecip r f).core = { d.core with recips := (d.onRecip r f).recips } := rfl

@[simp] theorem reg_onRecip (d : Dev) (r : Nat) (f : Recip → Recip) (a : Nat) : reg (d.onRecip r f) a = reg d a := rfl

theorem recip_taken (p : Pkt) (s : State) (r : Nat) : (taken p s).dev.recip r = s.dev.recip r := Dev.recip_of_core (core_taken p s) r

/-! ### Grants on recipients and key slots (R365, R431) -/

section Grants

variable {d d' : Dev} (h : sameGrants d d')
include h

theorem recipGranted_same (m r stream : Nat) (write : Bool) : recipGranted d' m r stream write = recipGranted d m r stream write := by
  rw [recipGranted, recipGranted, granted_same h, Dev.streamOwner_of_core h.1]

theorem keyGranted_same (m k : Nat) (write : Bool) : keyGranted d' m k write = keyGranted d m k write := by
  rw [keyGranted, keyGranted, granted_same h, Dev.key_of_core h.1]

theorem policyOf_same (k : Nat) : policyOf d' k = policyOf d k := by
  have hregs : ((List.range 16).map fun r => reg d' (rKeyPolicy r)) = (List.range 16).map fun r => reg d (rKeyPolicy r) :=
    List.map_congr_left fun r hr => by
      have hlt := List.mem_range.mp hr
      exact h.2 _ (by unfold eventPage rKeyPolicy; omega) (by unfold ringPage rKeyPolicy; omega)
  rw [policyOf, policyOf, hregs]

theorem slotOk_same (r n k : Nat) : slotOk d' r n k = slotOk d r n k := by
  unfold slotOk naming
  simp only [policyOf_same h, Dev.recips_of_core h.1, Dev.recip_of_core h.1]

theorem modifyBad_same (r : Nat) (ws : Nat → Word) : modifyBad d' r ws = modifyBad d r ws := by
  unfold modifyBad modified
  simp only [slotOk_same h, Dev.recip_of_core h.1]

end Grants

/-! ### Commands on an existing entry (R387, R388, R431) -/

/-- A command or a query of one entry passes the checks that come before its parameter words. -/
def entryOpen (p : Pkt) (s : State) (count : Nat) (query : Bool) : Prop :=
  hdrBad p count 16384 = false ∧ notOwner p (s.dev.streamOwner (s.dev.recip p.target).stream) = false ∧
    (query = true ∨ (s.dev.recip p.target).valid = true) ∧
    recipGranted s.dev p.fn p.target (s.dev.recip p.target).stream (!query) = true

theorem entryOpen_of_entryGo {p : Pkt} {s : State} {count : Nat} (h : entryGo p s count) : entryOpen p s count false := by
  obtain ⟨hhdr, howner, hvalid, hgrant⟩ := h
  exact ⟨hhdr, howner, .inr hvalid, hgrant⟩

theorem entryOpen_taken {p : Pkt} {s : State} {count : Nat} {query : Bool} (hf : p.fn ≤ 192) (h : entryOpen p s count query) :
    entryOpen p (taken p s) count query := by
  unfold entryOpen
  rw [recip_taken, streamOwner_taken, recipGranted_same (sameGrants_taken s hf)]
  exact h

theorem recipRefusals_of_entryOpen {p : Pkt} {s : State} {count : Nat} {query : Bool} (h : entryOpen p s count query) :
    recipRefusals s.dev p count query = [(false, stBadParam), (false, stDenied), (false, stBadParam)] := by
  obtain ⟨hhdr, howner, hvalid, -⟩ := h
  have hthere : (!query && !(s.dev.recip p.target).valid) = false := by
    rcases hvalid with hq | hv
    · simp [hq]
    · simp [hv]
  rw [recipRefusals, hhdr, howner, hthere]

/-- A command on an entry that passes its checks, with parameter words that are not refused. -/
theorem onEntry_accepted {s : State} {p : Pkt} {count : Nat} {query : Bool} {wordsBad : Bool} {effect : State → State × List Word}
    (h : entryOpen p s count query) (hwords : wordsBad = false) :
    onEntry s p count query [(wordsBad, stBadParam)] effect = ((effect s).1, .now stOk (effect s).2 p.target) := by
  have hrefusals := recipRefusals_of_entryOpen h
  obtain ⟨-, -, -, hgrant⟩ := h
  have hnone : firstRefusal ([(false, stBadParam), (false, stDenied), (false, stBadParam)] ++ [(false, stBadParam)]) = none := rfl
  rw [onEntry, hrefusals, hwords, hgrant, simply_ok hnone]
  rfl

/-! ### What such a command moves -/

/-- One change of entry r in the state in which a packet has been taken. -/
theorem recipEffect_of {i : Instr} {p : Pkt} {s : State} {op : State → Pkt → State × Answer} {rs : List Word} {f : Recip → Recip}
    (hi : exec i s = ok (submit op p s)) (h : takesNow p s)
    (hop : op (taken p s) p = ((taken p s).onDev fun d => d.onRecip p.target f, .now stOk rs p.target)) : recipEffect i p s rs f := by
  refine ⟨_, hi.trans (congrArg ok (submit_answered h hop)), ?_, fun r hr => ?_, ?_, sameRegs_taken s.dev p h.1, sameOutside_taken p s _⟩
  · rw [State.onDev_dev, recip_onRecip_same, recip_taken]
  · rw [State.onDev_dev, recip_onRecip_other _ _ hr, recip_taken]
  · rw [State.onDev_dev, core_onRecip, core_taken]

/-- An operation that only answers. -/
theorem recipEffect_id {i : Instr} {p : Pkt} {s : State} {op : State → Pkt → State × Answer} {rs : List Word}
    (hi : exec i s = ok (submit op p s)) (h : takesNow p s) (hop : op (taken p s) p = (taken p s, .now stOk rs p.target)) :
    recipEffect i p s rs id := by
  refine ⟨_, hi.trans (congrArg ok (submit_answered h hop)), recip_taken p s _, fun r _ => recip_taken p s r, ?_, sameRegs_taken s.dev p h.1,
    rfl, rfl, rfl, rfl⟩
  rw [core_taken, recips_taken]
  rfl

end Sys2Proof.Machine

/-! SUPPORT. RECIP.QUERY, RECIP.CLEAR and RECIP.FLUSH (R318, R320, R324, R332, R342). -/

namespace Sys2Proof.Machine

/-! ### What each makes of the entry -/

/-- An entry without its high-water marks (R342). -/
def hwmCleared (x : Recip) : Recip := { x with latHwm := 0, depthHwm := 0 }

/-- An entry with the error counters cleared whose bits are set (R320). -/
def errorsCleared (v : Word) (x : Recip) : Recip := { x with cnt := clearCnt x.cnt v [18, 19, 20, 21, 22, 23] }

/-- An entry whose learned slots of port p are free (R332). -/
def portFlushed (p : Nat) (x : Recip) : Recip := if p = 0 then { x with learned0 := [] } else { x with learned1 := [] }

theorem clearHwm_eq (d : Dev) (r : Nat) : clearHwm d r = d.onRecip r hwmCleared := rfl
theorem clearEntry_eq (d : Dev) (r : Nat) (v : Word) : clearEntry d r v = d.onRecip r (errorsCleared v) := rfl
theorem flushPort_eq (d : Dev) (r p : Nat) : flushPort d r p = d.onRecip r (portFlushed p) := rfl

theorem cnt_errorsCleared (v : Word) (x : Recip) (w : Nat) :
    (errorsCleared v x).cnt.get 0 w = if 18 ≤ w ∧ w ≤ 23 ∧ bit v w = true then 0 else x.cnt.get 0 w :=
  get_clearCnt_between (by simp; omega) x.cnt v w

/-! ### The commands -/

section Commands

variable {p : Pkt} {s : State} (hf : p.fn ≤ 192)
include hf

/-- RECIP.QUERY whose checks all pass. -/
theorem opRecipQuery_accepted (hgo : entryOpen p s 1 true) (hw : within (p.w 1) (ones 1 0) = true) :
    opRecipQuery (taken p s) p =
      (if p.b 1 1 then (taken p s).onDev fun d => d.onRecip p.target hwmCleared else taken p s,
        .now stOk ((List.range 16).map fun i => entryWord (s.dev.recip p.target) (16 * p.f 1 0 0 + i)) p.target) := by
  rw [← recip_taken p s]
  exact onEntry_accepted (entryOpen_taken hf hgo) (by rw [hw]; rfl)

theorem opRecipClear_accepted (hgo : entryGo p s 1) (hw : within (p.w 1) (ones 23 18) = true) :
    opRecipClear (taken p s) p = ((taken p s).onDev fun d => d.onRecip p.target (errorsCleared (p.w 1)), .now stOk [] p.target) :=
  onEntry_accepted (entryOpen_taken hf (entryOpen_of_entryGo hgo)) (by rw [hw]; rfl)

theorem opRecipFlush_accepted (hgo : entryGo p s 1) (hw : within (p.w 1) 1 = true) :
    opRecipFlush (taken p s) p = ((taken p s).onDev fun d => d.onRecip p.target (portFlushed (p.f 1 0 0)), .now stOk [] p.target) :=
  onEntry_accepted (entryOpen_taken hf (entryOpen_of_entryGo hgo)) (by rw [hw]; rfl)

end Commands

/-- RECIP.QUERY clears the high-water marks where bit 1 of its word asks for that, and else only answers. -/
theorem recipEffect_query {i : Instr} {p : Pkt} {s : State} (hi : exec i s = ok (submit opRecipQuery p s)) (h : takesNow p s)
    (hgo : entryOpen p s 1 true) (hw : within (p.w 1) (ones 1 0) = true) :
    recipEffect i p s ((List.range 16).map fun i => entryWord (s.dev.recip p.target) (16 * p.f 1 0 0 + i))
      fun x => if p.b 1 1 then hwmCleared x else x := by
  have hop := opRecipQuery_accepted h.1 hgo hw
  cases hclear : p.b 1 1 with
  | true =>
    rw [hclear] at hop
    exact recipEffect_of hi h hop
  | false =>
    rw [hclear] at hop
    exact recipEffect_id hi h hop

/-- Settles O32: a query may clear the high-water marks, and the two other commands are one change of the entry. -/
theorem recipQueryClearFlush : Obligations.RecipQueryClearFlush := by
  intro fn hdr ps s
  refine ⟨?query, ?clear, ?flush⟩
  case query => exact fun h hhdr howner hgrant hw => recipEffect_query rfl h ⟨hhdr, howner, .inl rfl, hgrant⟩ hw
  case clear =>
    exact fun h hgo hw => ⟨_, recipEffect_of rfl h (opRecipClear_accepted h.1 hgo hw), fun x => ⟨_, rfl, cnt_errorsCleared _ x⟩⟩
  case flush => exact fun h hgo hw => recipEffect_of rfl h (opRecipFlush_accepted h.1 hgo hw)

end Sys2Proof.Machine

/-! SUPPORT. The operations of `RECIP_CMD`: the window, the result, and what the entry loses (R319 to R321, R332, R342). -/

namespace Sys2Proof.Machine

/-! ### The result (R319) -/

theorem regFld_setRegFld_apart (d : Dev) (a : Nat) {hi lo hi' lo' : Nat} (v : Nat) (h : hi ≤ 63) (hl : lo ≤ hi) (hl' : lo' ≤ hi')
    (hd : hi' < lo ∨ hi < lo') : regFld (setRegFld d a hi lo v) a hi' lo' = regFld d a hi' lo' := by
  rw [regFld, setRegFld, reg_setReg_same, fld_setFld_other _ v h hl hl' hd, regFld]

theorem core_cmdResult (d : Dev) (r result : Nat) : (cmdResult d r result).core = d.core := by
  rw [cmdResult, core_setRegFld, core_setRegFld]

theorem reg_cmdResult_other (d : Dev) (r result : Nat) {a : Nat} (h : a ≠ rRecipStatus) : reg (cmdResult d r result) a = reg d a := by
  rw [cmdResult, reg_setRegFld_other _ _ _ _ h, reg_setRegFld_other _ _ _ _ h]

/-- The state in which an operation of this effect has ended with RESULT 0. -/
def recipCmdDone (r : Nat) (f : Dev → Dev) (s : State) : State := s.onDev fun d => cmdResult (f d) r 0

section Done

variable (r : Nat) (f : Dev → Dev) (s : State)

theorem core_recipCmdDone : (recipCmdDone r f s).dev.core = (f s.dev).core := core_cmdResult ..

theorem recip_recipCmdDone (q : Nat) : (recipCmdDone r f s).dev.recip q = (f s.dev).recip q := Dev.recip_of_core (core_recipCmdDone r f s) q

theorem reg_recipCmdDone_other {a : Nat} (h : a ≠ rRecipStatus) : reg (recipCmdDone r f s).dev a = reg (f s.dev) a :=
  reg_cmdResult_other _ _ _ h

theorem sameOutside_recipCmdDone : sameOutside s (recipCmdDone r f s) := sameOutside_onDev s _

theorem recipCmdOk_recipCmdDone (hr : r < 16384) : recipCmdOk r (recipCmdDone r f s) := by
  rw [recipCmdOk, recipCmdDone, State.onDev_dev, cmdResult]
  refine ⟨?_, ?_⟩
  · rw [regFld_setRegFld_apart _ _ _ (by decide) (by decide) (by decide) (.inr (by decide)),
      regFld_setRegFld_same _ _ _ (by decide) (by decide), Nat.zero_mod]
  · rw [regFld_setRegFld_same _ _ _ (by decide) (by decide)]
    exact Nat.mod_eq_of_lt hr

/-- An effect that leaves the registers moves RESULT alone. -/
theorem onlyRegs_recipCmdDone (hregs : ∀ a, reg (f s.dev) a = reg s.dev a) : onlyRegs [rRecipStatus] s (recipCmdDone r f s) :=
  fun a _ ha => (reg_recipCmdDone_other r f s (by simpa using ha)).trans (hregs a)

end Done

/-! ### The window (R318) -/

theorem rRecipData_ne_rRecipStatus (w : Nat) : rRecipData w ≠ rRecipStatus := by unfold rRecipData rRecipStatus; omega

theorem core_setWindow (d : Dev) (f : Nat → Word) : (setWindow d f).core = d.core :=
  each_keeps (P := fun e : Dev => e.core = d.core) _ (fun e _ he => (core_setReg e _ _).trans he) _ _ rfl

/-- Words of the window written one after the other: each reads as written. -/
theorem reg_each_setReg (f : Nat → Word) (l : List Nat) (d : Dev) (w : Nat) :
    reg (each l d fun d w => setReg d (rRecipData w) (f w)) (rRecipData w) = if w ∈ l then f w else reg d (rRecipData w) := by
  induction l generalizing d with
  | nil => rfl
  | cons v l ih =>
    have hword : rRecipData w = rRecipData v ↔ w = v := by unfold rRecipData; omega
    show reg (each l (setReg d (rRecipData v) (f v)) _) _ = _
    rw [ih, reg_setReg]
    by_cases hl : w ∈ l
    · simp [hl]
    · by_cases hv : w = v
      · simp [hv]
      · simp [hl, hv, hword]

theorem reg_setWindow (d : Dev) (f : Nat → Word) {w : Nat} (hw : w < 32) : reg (setWindow d f) (rRecipData w) = f w := by
  rw [setWindow, reg_each_setReg, if_pos (List.mem_range.mpr hw)]

/-! ### A write of `RECIP_CMD` (R320, R321, R431) -/

/-- An instruction is this operation of `RECIP_CMD`. -/
def isRecipCmd (i : Instr) (m r op port : Nat) (s : State) : Prop :=
  exec i s = ok (barGate s m rRecipCmd true fun s => recipCmd s m r op port)

/-- While BUSY is 1 the write sets OVERRUN and does nothing else. -/
theorem recipCmd_discarded {i : Instr} {m r op port : Nat} {s : State} (hi : isRecipCmd i m r op port s) (halive : alive s.dev = true)
    (hgrant : barGranted s.dev m rRecipCmd true = true) (hbusy : regBit s.dev rRecipStatus 63 = true) :
    exec i s = .next (s.onDev fun d => setRegFld d rRecipStatus 62 62 1) := by
  rw [hi, barGate_granted _ halive hgrant (by decide), recipCmd, if_pos hbusy, ok_eq]

theorem overrun_effect (s : State) :
    let t := s.onDev fun d => setRegFld d rRecipStatus 62 62 1
    regBit t.dev rRecipStatus 62 = true ∧ onlyRegs [rRecipStatus] s t ∧
      (∀ b : Nat, b ≠ 62 → regBit t.dev rRecipStatus b = regBit s.dev rRecipStatus b) ∧ t.dev.core = s.dev.core ∧ sameOutside s t := by
  refine ⟨regBit_setRegBit_same s.dev rRecipStatus true (by decide), fun a _ ha => ?_, fun b hb => ?_, core_setRegFld .., sameOutside_onDev ..⟩
  · exact reg_setRegFld_other _ _ _ _ (by simpa using ha)
  · exact regBit_setRegFld_other _ _ _ (by decide) (by decide) (by omega)

/-- An accepted write runs its operation. -/
theorem exec_of_recipOp {i : Instr} {m r op port : Nat} {s t : State} {write : Bool} (hop : recipOp s m r op port = t)
    (hgo : recipCmdGo m r s write) (hi : isRecipCmd i m r op port s) : exec i s = .next t := by
  obtain ⟨halive, hgrant, hidle, -⟩ := hgo
  rw [hi, barGate_granted _ halive hgrant (by decide), recipCmd, hidle, if_neg Bool.false_ne_true, ok_eq, hop]

section Operations

variable {m r port : Nat} {s : State}

theorem recipOp_read (hgo : recipCmdGo m r s false) :
    recipOp s m r 1 port = recipCmdDone r (fun d => setWindow d (entryWord (s.dev.recip r))) s := by
  obtain ⟨-, -, -, hgrant⟩ := hgo
  simp [recipOp, recipCmdDone, hgrant]

theorem recipOp_readLearned (hgo : recipCmdGo m r s false) (hvalid : (s.dev.recip r).valid = true) :
    recipOp s m r 2 port = recipCmdDone r (fun d => setWindow d (learnedWord (slots4 (learnedOf (s.dev.recip r) port)))) s := by
  obtain ⟨-, -, -, hgrant⟩ := hgo
  simp [recipOp, recipCmdDone, hgrant, hvalid]

/-- MODIFY whose fields pass and whose key slot is granted (R322). -/
theorem recipOp_modify {ws : Nat → Word} (hws : ws = fun w => reg s.dev (rRecipData w)) (hgo : recipCmdGo m r s true)
    (hvalid : (s.dev.recip r).valid = true) (hkey : fld (ws 0) 31 16 < 20480 → keyGranted s.dev m (fld (ws 0) 31 16) true = true)
    (hbad : modifyBad s.dev r ws = false) : recipOp s m r 3 port = recipCmdDone r (fun d => modify d r ws) s := by
  obtain ⟨-, -, -, hgrant⟩ := hgo
  subst hws
  have hkeyOk : ¬ (fld (reg s.dev (rRecipData 0)) 31 16 < 20480 ∧ keyGranted s.dev m (fld (reg s.dev (rRecipData 0)) 31 16) true = false) := by
    rintro ⟨hk, hdenied⟩
    exact Bool.false_ne_true (hdenied.symm.trans (hkey hk))
  simp [recipOp, recipCmdDone, State.onDev, hgrant, hvalid, hkeyOk, hbad]

theorem recipOp_clear (hgo : recipCmdGo m r s true) (hvalid : (s.dev.recip r).valid = true) :
    recipOp s m r 4 port = recipCmdDone r (fun d => d.onRecip r (errorsCleared (reg s.dev (rRecipData 0)))) s := by
  obtain ⟨-, -, -, hgrant⟩ := hgo
  simp [recipOp, recipCmdDone, State.onDev, hgrant, hvalid, clearEntry_eq]

theorem recipOp_flushLearned (hgo : recipCmdGo m r s true) (hvalid : (s.dev.recip r).valid = true) :
    recipOp s m r 5 port = recipCmdDone r (fun d => d.onRecip r (portFlushed port)) s := by
  obtain ⟨-, -, -, hgrant⟩ := hgo
  simp [recipOp, recipCmdDone, hgrant, hvalid, flushPort_eq]

theorem recipOp_readHwm (hgo : recipCmdGo m r s true) (hvalid : (s.dev.recip r).valid = true) :
    recipOp s m r 6 port = recipCmdDone r (fun d => (setWindow d (entryWord (s.dev.recip r))).onRecip r hwmCleared) s := by
  obtain ⟨-, -, -, hgrant⟩ := hgo
  simp [recipOp, recipCmdDone, hgrant, hvalid, clearHwm_eq]

end Operations

/-! ### What the operations move -/

/-- An operation that fills the window. -/
theorem window_effect {r : Nat} (hr : r < 16384) (f : Nat → Word) (s : State) :
    let t := recipCmdDone r (fun d => setWindow d f) s
    recipCmdOk r t ∧ (∀ w < 32, reg t.dev (rRecipData w) = f w) ∧ t.dev.core = s.dev.core ∧ sameOutside s t := by
  refine ⟨recipCmdOk_recipCmdDone r _ s hr, fun w hw => ?_, ?_, sameOutside_recipCmdDone r _ s⟩
  · rw [reg_recipCmdDone_other _ _ _ (rRecipData_ne_rRecipStatus w), reg_setWindow _ _ hw]
  · rw [core_recipCmdDone, core_setWindow]

/-- An operation that changes the entry alone. -/
theorem entry_effect {r : Nat} (hr : r < 16384) (f : Recip → Recip) (s : State) :
    let t := recipCmdDone r (fun d => d.onRecip r f) s
    recipCmdOk r t ∧ t.dev.recip r = f (s.dev.recip r) ∧ (∀ q, q ≠ r → t.dev.recip q = s.dev.recip q) ∧ onlyRegs [rRecipStatus] s t ∧
      sameOutside s t := by
  refine ⟨recipCmdOk_recipCmdDone r _ s hr, ?_, fun q hq => ?_, onlyRegs_recipCmdDone r _ s fun _ => rfl, sameOutside_recipCmdDone r _ s⟩
  · rw [recip_recipCmdDone, recip_onRecip_same]
  · rw [recip_recipCmdDone, recip_onRecip_other _ _ hq]

/-- READ_HWM fills the window with the entry as it was, and then clears its marks (R342). -/
theorem readHwm_effect {r : Nat} (hr : r < 16384) (f : Nat → Word) (s : State) :
    let t := recipCmdDone r (fun d => (setWindow d f).onRecip r hwmCleared) s
    recipCmdOk r t ∧ (∀ w < 32, reg t.dev (rRecipData w) = f w) ∧ t.dev.recip r = hwmCleared (s.dev.recip r) ∧
      (∀ q, q ≠ r → t.dev.recip q = s.dev.recip q) ∧ sameOutside s t := by
  have hrecip : ∀ q, (setWindow s.dev f).recip q = s.dev.recip q := Dev.recip_of_core (core_setWindow s.dev f)
  refine ⟨recipCmdOk_recipCmdDone r _ s hr, fun w hw => ?_, ?_, fun q hq => ?_, sameOutside_recipCmdDone r _ s⟩
  · rw [reg_recipCmdDone_other _ _ _ (rRecipData_ne_rRecipStatus w), reg_onRecip, reg_setWindow _ _ hw]
  · rw [recip_recipCmdDone, recip_onRecip_same, hrecip]
  · rw [recip_recipCmdDone, recip_onRecip_other _ _ hq, hrecip]

/-! ### The statement -/

/-- Settles O33: a write while BUSY is 1 is discarded; else each operation is the effect lemma of its class. -/
theorem recipCmdOperations : Obligations.RecipCmdOperations := by
  intro m r s x discarded
  refine ⟨fun halive hgrant hbusy => ?busy, fun hgo => ⟨?read, fun p hvalid => ?readLearned⟩,
    fun hgo hvalid => ⟨?clear, fun p => ?flushLearned, ?readHwm⟩⟩
  case busy =>
    have hdiscarded : ∀ {i op port}, isRecipCmd i m r op port s → discarded i := fun hi =>
      ⟨_, recipCmd_discarded hi halive hgrant hbusy, overrun_effect s⟩
    exact ⟨hdiscarded rfl, fun p => ⟨hdiscarded (op := 2) (port := p) rfl, hdiscarded (op := 5) (port := p) rfl⟩, hdiscarded rfl,
      hdiscarded rfl, hdiscarded rfl⟩
  case read => exact ⟨_, exec_of_recipOp (recipOp_read hgo) hgo rfl, window_effect r.isLt _ s⟩
  case readLearned =>
    exact ⟨_, exec_of_recipOp (recipOp_readLearned hgo hvalid) hgo rfl, window_effect r.isLt _ s⟩
  case clear =>
    obtain ⟨hok, hentry, hother, hregs, hout⟩ := entry_effect r.isLt (errorsCleared (reg s.dev (rRecipData 0))) s
    exact ⟨_, _, exec_of_recipOp (recipOp_clear hgo hvalid) hgo rfl, hok, hentry, cnt_errorsCleared _ x, hother, hregs, hout⟩
  case flushLearned =>
    exact ⟨_, exec_of_recipOp (recipOp_flushLearned hgo hvalid) hgo rfl, entry_effect r.isLt (portFlushed p) s⟩
  case readHwm =>
    exact ⟨_, exec_of_recipOp (recipOp_readHwm hgo hvalid) hgo rfl, readHwm_effect r.isLt _ s⟩

end Sys2Proof.Machine

/-! SUPPORT. MODIFY: the fields that it rewrites, the shaper, and the calendar that its queue enters again (R322, R335, R336, R337). -/

namespace Sys2Proof.Machine

/-! ### One queue moves -/

/-- At most entry r and Mouth move. -/
def onlyQueue (r : Nat) (d e : Dev) : Prop :=
  e = { d with recips := e.recips, mouth := e.mouth } ∧ ∀ q, q ≠ r → e.recip q = d.recip q

theorem onlyQueue_refl (r : Nat) (d : Dev) : onlyQueue r d d := ⟨rfl, fun _ _ => rfl⟩

theorem onlyQueue_trans {r : Nat} {a b c : Dev} (h : onlyQueue r a b) (k : onlyQueue r b c) : onlyQueue r a c := by
  obtain ⟨hdev, hother⟩ := h
  obtain ⟨kdev, kother⟩ := k
  refine ⟨?_, fun q hq => (kother q hq).trans (hother q hq)⟩
  rw [kdev, hdev]

theorem onlyQueue_setRecip (r : Nat) (d : Dev) (x : Recip) : onlyQueue r d (d.setRecip r x) :=
  ⟨rfl, fun _ hq => recip_setRecip_other d x hq⟩

theorem onlyQueue_onRecip (r : Nat) (d : Dev) (f : Recip → Recip) : onlyQueue r d (d.onRecip r f) := onlyQueue_setRecip r d _

theorem onlyQueue_onMouth (r : Nat) (d : Dev) (f : Mouth → Mouth) : onlyQueue r d (d.onMouth f) := ⟨rfl, fun _ _ => rfl⟩

section OnlyQueue

variable {r : Nat} {d e : Dev} (h : onlyQueue r d e)
include h

theorem streams_of_onlyQueue : e.streams = d.streams := (congrArg Dev.streams h.1 :)
theorem now_of_onlyQueue : e.now = d.now := (congrArg Dev.now h.1 :)
theorem reg_of_onlyQueue (a : Nat) : reg e a = reg d a := by rw [h.1]; rfl

end OnlyQueue

/-! ### The calendar (R335, R336) -/

theorem onlyQueue_unplace (r : Nat) (d : Dev) : onlyQueue r d (unplace d r) := by
  unfold unplace
  exact onlyQueue_trans (onlyQueue_onMouth r d _) (onlyQueue_onRecip r _ _)

theorem recip_unplace (r : Nat) (d : Dev) : (unplace d r).recip r = { d.recip r with place := .idle } := recip_onRecip_same ..

/-- A queue at this place. -/
def placed (x : Recip) (place : QPlace) : Recip := { x with place := place }

/-- The device as a queue has left its place and its tokens have been brought up to date. -/
def leftCalendar (d : Dev) (r : Nat) : Dev := (syncCal (unplace d r)).onRecip r fun x => refill x (slotNow d)

/-- A queue whose tokens stand at the slot that has been reached is not filled further. -/
theorem refill_reached {x : Recip} {slot : Nat} (h : x.tokenSlot = slot) : refill x slot = x := by
  subst h
  rw [refill, if_pos (.inr (Nat.le_refl _)), Nat.max_self]

theorem onlyQueue_leftCalendar (d : Dev) (r : Nat) : onlyQueue r d (leftCalendar d r) :=
  onlyQueue_trans (onlyQueue_unplace r d) (onlyQueue_trans (onlyQueue_onMouth r _ _) (onlyQueue_onRecip r _ _))

/-- A queue that enters the calendar, waits outside, or is idle: it has left its place, and has a place again. -/
theorem enterCalendar_cases (d : Dev) (r : Nat) :
    enterCalendar d r = leftCalendar d r ∨ ∃ e place, onlyQueue r (leftCalendar d r) e ∧ e.recips = (leftCalendar d r).recips ∧
      enterCalendar d r = e.onRecip r (placed · place) := by
  unfold enterCalendar
  dsimp only
  split
  · exact .inl rfl
  · refine .inr ?_
    split
    · exact ⟨_, .held, onlyQueue_refl r _, rfl, rfl⟩
    · exact ⟨_, _, onlyQueue_onMouth r _ _, rfl, rfl⟩

theorem onlyQueue_enterCalendar (d : Dev) (r : Nat) : onlyQueue r d (enterCalendar d r) := by
  have hleft := onlyQueue_leftCalendar d r
  obtain h | ⟨e, place, he, -, h⟩ := enterCalendar_cases d r
  · exact h ▸ hleft
  · exact h ▸ onlyQueue_trans hleft (onlyQueue_trans he (onlyQueue_onRecip r e _))

/-- Of an entry whose tokens are up to date, a move of its queue changes the place alone. -/
theorem recip_enterCalendar {d : Dev} {r : Nat} (h : (d.recip r).tokenSlot = slotNow d) :
    ∃ place, (enterCalendar d r).recip r = placed (d.recip r) place := by
  have hleft : (leftCalendar d r).recip r = placed (d.recip r) .idle := by
    rw [leftCalendar, recip_onRecip_same]
    show refill ((unplace d r).recip r) _ = _
    rw [recip_unplace]
    exact refill_reached h
  obtain hcal | ⟨e, place, -, hrecips, hcal⟩ := enterCalendar_cases d r
  · exact ⟨.idle, by rw [hcal, hleft]⟩
  · refine ⟨place, ?_⟩
    rw [hcal, recip_onRecip_same, Dev.recip, hrecips, ← Dev.recip, hleft]
    rfl

/-! ### MODIFY (R322, R337) -/

/-- An entry with its token bucket full at this slot. -/
def bucketFilled (x : Recip) (slot : Nat) : Recip := { x with tokens := bucket x, tokenSlot := slot }

theorem onlyQueue_moveBlocks (r : Nat) (d : Dev) (l : List (Nat × Nat)) (a b : Nat) : onlyQueue r d (moveBlocks d l a b) := by
  unfold moveBlocks
  split
  · exact onlyQueue_refl r d
  · exact each_keeps (P := onlyQueue r d) _ (fun e x he => onlyQueue_trans he
      (onlyQueue_trans (onlyQueue_onMouth r e _) (onlyQueue_onMouth r _ _))) _ _ (onlyQueue_refl r d)

/-- The device with the fields of the entry rewritten. -/
def rewritten (d : Dev) (r : Nat) (y : Recip) : Dev := (moveBlocks d (d.recip r).blocks (d.recip r).cls y.cls).setRecip r y

theorem onlyQueue_rewritten (d : Dev) (r : Nat) (y : Recip) : onlyQueue r d (rewritten d r y) :=
  onlyQueue_trans (onlyQueue_moveBlocks r d _ _ _) (onlyQueue_setRecip r _ y)

section Modify

variable (d : Dev) (r : Nat) (ws : Nat → Word)

theorem modify_same (hrate : (d.recip r).rate = (modified d r ws).rate) (hburst : (d.recip r).burst = (modified d r ws).burst) :
    modify d r ws = rewritten d r (modified d r ws) := if_pos ⟨hrate, hburst⟩

/-- A change of RATE or BURST fills the bucket; then a queue of the calendar enters it again. -/
theorem modify_changed (h : ¬ ((d.recip r).rate = (modified d r ws).rate ∧ (d.recip r).burst = (modified d r ws).burst)) :
    let e := (rewritten d r (modified d r ws)).onRecip r fun y => bucketFilled y (slotNow d)
    modify d r ws = e ∨ modify d r ws = enterCalendar e r := by
  have hnow : slotNow (rewritten d r (modified d r ws)) = slotNow d := by
    rw [slotNow, slotNow, now_of_onlyQueue (onlyQueue_rewritten d r _)]
  unfold modify
  dsimp only
  rw [if_neg h]
  split
  · exact .inr (by rw [← hnow]; rfl)
  · exact .inl (by rw [← hnow]; rfl)

theorem onlyQueue_modify : onlyQueue r d (modify d r ws) := by
  have hrewritten := onlyQueue_rewritten d r (modified d r ws)
  by_cases h : (d.recip r).rate = (modified d r ws).rate ∧ (d.recip r).burst = (modified d r ws).burst
  · rw [modify_same d r ws h.1 h.2]
    exact hrewritten
  · have hfilled := onlyQueue_trans hrewritten (onlyQueue_onRecip r _ fun y => bucketFilled y (slotNow d))
    obtain hm | hm := modify_changed d r ws h
    · exact hm ▸ hfilled
    · exact hm ▸ onlyQueue_trans hfilled (onlyQueue_enterCalendar _ r)

theorem recip_modify_same (hrate : (d.recip r).rate = (modified d r ws).rate) (hburst : (d.recip r).burst = (modified d r ws).burst) :
    (modify d r ws).recip r = modified d r ws := by
  rw [modify_same d r ws hrate hburst]
  exact recip_setRecip_same ..

theorem recip_modify_changed (h : (d.recip r).rate ≠ (modified d r ws).rate ∨ (d.recip r).burst ≠ (modified d r ws).burst) :
    ∃ place, (modify d r ws).recip r = placed (bucketFilled (modified d r ws) (slotNow d)) place := by
  have hrewritten := onlyQueue_rewritten d r (modified d r ws)
  have hnot : ¬ ((d.recip r).rate = (modified d r ws).rate ∧ (d.recip r).burst = (modified d r ws).burst) := fun hsame =>
    h.elim (· hsame.1) (· hsame.2)
  have hchanged := modify_changed d r ws hnot
  have hfilled : ((rewritten d r (modified d r ws)).onRecip r fun y => bucketFilled y (slotNow d)).recip r =
      bucketFilled (modified d r ws) (slotNow d) := by
    rw [recip_onRecip_same, rewritten, recip_setRecip_same]
  have hnow := now_of_onlyQueue (onlyQueue_trans hrewritten (onlyQueue_onRecip r _ fun y => bucketFilled y (slotNow d)))
  generalize ((rewritten d r (modified d r ws)).onRecip r fun y => bucketFilled y (slotNow d)) = e at hchanged hfilled hnow
  obtain hm | hm := hchanged
  · exact ⟨_, by rw [hm, hfilled]; rfl⟩
  · rw [hm, ← hfilled]
    exact recip_enterCalendar (by rw [hfilled, slotNow, slotNow, hnow]; rfl)

end Modify

/-- RECIP.MODIFY whose checks all pass. -/
theorem opRecipModify_accepted {p : Pkt} {s : State} {ws : Nat → Word} (hws : ws = fun w => p.w (w + 1)) (hf : p.fn ≤ 192)
    (hgo : entryGo p s 7) (hkey : fld (ws 0) 31 16 < 20480 → keyGranted s.dev p.fn (fld (ws 0) 31 16) true = true)
    (hbad : modifyBad s.dev p.target ws = false) :
    opRecipModify (taken p s) p = ((taken p s).onDev fun d => modify d p.target ws, .now stOk [] p.target) := by
  subst hws
  have hopen := entryOpen_taken hf (entryOpen_of_entryGo hgo)
  have hgrants := sameGrants_taken s hf
  have hkeyOk : (recipGranted (taken p s).dev p.fn p.target ((taken p s).dev.recip p.target).stream true &&
      decide (fld (p.w 1) 31 16 < 20480) && !keyGranted (taken p s).dev p.fn (fld (p.w 1) 31 16) true) = false := by
    rw [keyGranted_same hgrants]
    by_cases hk : fld (p.w 1) 31 16 < 20480
    · rw [hkey hk, Bool.not_true, Bool.and_false]
    · rw [decide_eq_false hk, Bool.and_false, Bool.false_and]
  unfold opRecipModify
  dsimp only
  rw [recipRefusals_of_entryOpen hopen, hkeyOk]
  exact onEntry_accepted hopen ((modifyBad_same hgrants ..).trans hbad)

/-- Settles O31: in the state in which the packet has been taken, and in the window operation, what MODIFY moves. -/
theorem modifyRewritesTheFields : Obligations.ModifyRewritesTheFields := by
  refine ⟨?command, ?window⟩
  case command =>
    intro fn hdr ps s p ws y h hgo hkey hbad
    have hexec : exec (.recipModify fn hdr ps) s = ok (submit opRecipModify p s) := rfl
    have hop := opRecipModify_accepted (ws := ws) rfl h.1 hgo hkey hbad
    have hmod := onlyQueue_modify (taken p s).dev p.target ws
    have hentry := recip_taken p s p.target
    have hy : modified (taken p s).dev p.target ws = y := congrArg (withWords · ws) hentry
    refine ⟨_, hexec.trans (congrArg ok (submit_answered h hop)), fun hrate hburst => ?_, fun hchanged => ?_, fun q hq => ?_, ?_,
      fun a he hr => ?_, sameOutside_taken p s _⟩
    · rw [← hy]
      exact recip_modify_same _ _ _ (by rw [hentry, hy]; exact hrate) (by rw [hentry, hy]; exact hburst)
    · obtain ⟨place, hplaced⟩ := recip_modify_changed (taken p s).dev p.target ws (by rw [hentry, hy]; exact hchanged)
      rw [State.onDev_dev, hplaced, hy]
      exact ⟨rfl, rfl, rfl, rfl, rfl, rfl⟩
    · exact (hmod.2 q hq).trans (recip_taken p s q)
    · exact (streams_of_onlyQueue hmod).trans (Dev.streams_of_core (core_taken p s))
    · exact (reg_of_onlyQueue hmod a).trans (reg_taken p s h.1 he hr)
  case window =>
    intro m r s ws y hgo hvalid hkey hbad
    have hmod := onlyQueue_modify s.dev r.val ws
    refine ⟨_, exec_of_recipOp (recipOp_modify (ws := ws) rfl hgo hvalid hkey hbad) hgo rfl, recipCmdOk_recipCmdDone r _ s r.isLt,
      fun hrate hburst => ?_, fun q hq => ?_, ?_, onlyRegs_recipCmdDone r _ s (reg_of_onlyQueue hmod), sameOutside_recipCmdDone r _ s⟩
    · rw [recip_recipCmdDone]
      exact recip_modify_same s.dev r.val ws hrate hburst
    · rw [recip_recipCmdDone]
      exact hmod.2 q hq
    · rw [Dev.streams_of_core (core_recipCmdDone ..)]
      exact streams_of_onlyQueue hmod

end Sys2Proof.Machine
